-- ==== Sys2Proof/Word.lean ====
section
/-!
DEFINITION. Word.lean: bytes, words and the sparse maps in which the model holds its arrays.
A sparse map lists (key, value) pairs with keys strictly rising and no value equal to what an
unlisted key reads as, so that equal contents are equal lists.
-/
namespace Sys2Proof

/-- A byte of memory or of a frame. -/
abbrev Byte := BitVec 8

/-- A 32-bit register or memory word (R11). -/
abbrev Word := BitVec 32

/-- A sparse map from addresses to values; `d` below is what an unlisted key reads as. -/
abbrev SMap (β : Type) := List (Nat × β)

/-- Read key `a`. -/
def SMap.get {β : Type} (d : Nat → β) : SMap β → Nat → β
  | [], a => d a
  | (k, v) :: m, a => if a = k then v else SMap.get d m a

/-- Insert key `a` in its place among rising keys. -/
def SMap.put {β : Type} : SMap β → Nat → β → SMap β
  | [], a, x => [(a, x)]
  | (k, v) :: m, a, x => if a < k then (a, x) :: (k, v) :: m else (k, v) :: SMap.put m a x

/-- The listed keys and values for which `p` holds of the key. -/
def SMap.keep {β : Type} (p : Nat → Bool) (m : SMap β) : SMap β :=
  m.filter (fun kv => p kv.1)

/-- Write key `a`, keeping the canonical form. -/
def SMap.set {β : Type} [DecidableEq β] (d : Nat → β) (m : SMap β) (a : Nat) (x : β) : SMap β :=
  if x = d a then SMap.keep (fun k => decide (k ≠ a)) m
  else SMap.put (SMap.keep (fun k => decide (k ≠ a)) m) a x

/-- Every key of the map lies above `lo` (`none`: no bound). -/
def SMap.above {β : Type} (lo : Option Nat) : SMap β → Bool
  | [] => true
  | (k, _) :: _ => match lo with
    | none => true
    | some l => decide (l < k)

/-- The canonical form: keys strictly rising, no default value listed. -/
def SMap.wf {β : Type} [DecidableEq β] (d : Nat → β) : SMap β → Bool
  | [] => true
  | (k, v) :: m => decide (v ≠ d k) && SMap.above (some k) m && SMap.wf d m

end Sys2Proof
end

