-- ==== Sys2Proof/Syntax.lean ====
section
/-!
DEFINITION. Syntax.lean: the commands of the block, one constructor of `Instr` for each row of
spec/opcode_table.json, and the operand types they carry.
-/
namespace Sys2Proof

abbrev TrackId := Fin 16
abbrev EntryId := Fin 1024
abbrev CvId := Fin 24
abbrev CmpId := Fin 32
abbrev SliceId := Fin 16
abbrev PairId := Fin 32
abbrev ChanId := Fin 16
abbrev UartId := Fin 4
/-- A general register `g0` to `g31` (R397). -/
abbrev Reg := Fin 32
/-- A capability register `c0` to `c7` (R399). -/
abbrev CapIx := Fin 8

/-- The ports PA and PB (R38). -/
inductive PortId
  | pa | pb
  deriving DecidableEq, Repr

/-- The three switched domains (R506): mask bits 0, 1, 2. -/
inductive Dom
  | fast | mem | link
  deriving DecidableEq, Repr

/-- The cores; both cores of a control pair act as one (R495, R436 `CORE.ID`). -/
inductive CoreId
  | ctl0 | ctl1 | mgt0 | mgt1 | aoc
  deriving DecidableEq, Repr

/-- The agents of R26, with the debug port of R391. -/
inductive Agent
  | core (c : CoreId)
  | granary
  | ledger
  | debug
  deriving DecidableEq, Repr

/-- The header of a Wembi request as a command carries it (R47, R48): where it came from, its
sequence number, session tag, source MAC address, destination byte, flags and expected epoch, and the
802.1Q tag its reply repeats. -/
structure Req where
  port : PortId
  seq : BitVec 16
  tag : Word
  mac : BitVec 48
  dst : Byte
  auth : Bool
  express : Bool
  ackReq : Bool
  epoch : BitVec 16
  vlan : Option (BitVec 16)
  deriving DecidableEq, Repr

/-- The calendar fields in the `TIME_SET` layout (R72). -/
structure CalFields where
  year : BitVec 16
  month : Byte
  day : Byte
  hour : Byte
  min : Byte
  sec : Byte
  sub : BitVec 16
  wday : Byte
  flags : Byte
  deriving DecidableEq, Repr

/-- Heartbeat parameters (R309). -/
structure Heartbeat where
  rev : Word
  mode : Word
  fault : Word
  act : BitVec 16
  pend : BitVec 16
  ptpoff : Word
  group : BitVec 16
  flags : Byte
  tripped : Word
  armed : Word
  time : BitVec 64
  deriving DecidableEq, Repr

/-- One record of an angle share (R312). -/
structure ShareRecord where
  track : Byte
  flags : Byte
  turn : BitVec 16
  angle : Word
  vel : BitVec 48
  deriving DecidableEq, Repr

/-- Angle-share parameters (R312). -/
structure AngleShare where
  time : BitVec 64
  records : List ShareRecord
  deriving DecidableEq, Repr

/-- Ring-trip parameters (R315). -/
structure RingTrip where
  groups : Byte
  cause : Byte
  rep : BitVec 16
  time : BitVec 64
  deriving DecidableEq, Repr

/-- The loss conditions of the sources (R104). -/
inductive LossCond
  | amplitude | encoderFault | ssiFault | pllUnlock | staleShare
  deriving DecidableEq, Repr

/-- The three samples of one bit of a serial character (R574); SH210 mode uses `mid` (R576). -/
structure Sample3 where
  early : Bool
  mid : Bool
  late : Bool
  deriving DecidableEq, Repr

/-- A character on `UnRX` as the receiver samples it: the start bit at its centre, then the data,
parity and stop bits in order, and the clock cycles an autobaud measurement counts (R578). -/
structure SerialChar where
  startHigh : Bool
  samples : List Sample3
  cycles : Nat
  deriving DecidableEq, Repr

/-- A register access of an agent: a read, or a write of a word. -/
structure RegAccess where
  adr : BitVec 40
  write : Option Word
  deriving DecidableEq, Repr

/-- What a JTAG scan asks for (R390). -/
inductive JtagOp
  | idcode
  | bypass
  | sample
  | access (acc : RegAccess)
  deriving DecidableEq, Repr

/-- The host commands of R72 with their parameters, as the resident firmware executes them. -/
inductive HostCmd
  /-- `IDENTIFY` (R72). -/
  | identify
  /-- `WINDOW_READ` (R72). -/
  | windowRead (off : Byte) (cnt : Byte)
  /-- `WINDOW_WRITE` (R72). -/
  | windowWrite (off : Byte) (val : Word)
  /-- `SESSION_OPEN` (R72). -/
  | sessionOpen (rights : BitVec 16) (nonce : BitVec 128)
  /-- `SESSION_CLOSE` (R72). -/
  | sessionClose
  /-- `STAGE_WRITE` (R72). -/
  | stageWrite (item : Word) (words : List Word)
  /-- `STAGE_READ` (R72). -/
  | stageRead (item : Word) (n : BitVec 16) (bank : Byte)
  /-- `COMMIT` (R72). -/
  | commit (epoch : BitVec 16) (bound : Byte) (flags : Byte) (tmo : BitVec 16) (arg : BitVec 64)
  /-- `ABORT` (R72). -/
  | abort
  /-- `QUERY_EPOCH` (R72). -/
  | queryEpoch
  /-- `ARM` (R72). -/
  | arm (mask : Word)
  /-- `DISARM` (R72). -/
  | disarm (mask : Word)
  /-- `SET_REFERENCE` (R72). -/
  | setReference (sl : Byte) (idx : Byte) (val : Word)
  /-- `TRIP_CLEAR` (R72). -/
  | tripClear (mask : Word)
  /-- `CAPTURE_START` (R72). -/
  | captureStart (mask : Word) (kb : Word)
  /-- `CAPTURE_TRIGGER` (R72). -/
  | captureTrigger
  /-- `CAPTURE_READ` (R72). -/
  | captureRead (off : BitVec 64) (len : Word)
  /-- `CAPTURE_FREEZE` (R72). -/
  | captureFreeze (when : Byte) (t : BitVec 64)
  /-- `LEDGER_READ` (R72). -/
  | ledgerRead (first : Word) (cnt : BitVec 16)
  /-- `LEDGER_ACK` (R72). -/
  | ledgerAck (idx : Word) (head : BitVec 128) (sigR : BitVec 256) (sigS : BitVec 256)
  /-- `LEDGER_STATUS` (R72). -/
  | ledgerStatus
  /-- `TIME_SET` (R72). -/
  | timeSet (cal : CalFields)
  /-- `TIME_QUERY` (R72). -/
  | timeQuery
  /-- `IMAGE_WRITE` (R72). -/
  | imageWrite (slot : Byte) (flags : Byte) (off : Word) (data : List Byte)
  /-- `IMAGE_ACTIVATE` (R72). -/
  | imageActivate (slot : Byte)
  /-- `IMAGE_STATUS` (R72). -/
  | imageStatus
  /-- `MODE_REQUEST` (R72). -/
  | modeRequest (mode : Byte)
  /-- `VOTE` (R72). -/
  | vote (dom : Byte) (val : Byte)
  /-- `MBX_PUT` (R72). -/
  | mbxPut (ch : Byte) (words : List Word)
  /-- `MBX_GET` (R72). -/
  | mbxGet (ch : Byte) (n : Byte)
  /-- `ENUMERATE` (R72). -/
  | enumerate (adr : Byte)
  /-- `RING_STATUS` (R72). -/
  | ringStatus
  /-- `FAULT_INJECT` (R72). -/
  | faultInject (port : Byte) (kind : Byte) (n : BitVec 16) (etype : BitVec 16) (firstBit : BitVec 16) (bits : Byte)
  /-- `LC_ADVANCE` (R72). -/
  | lcAdvance (target : Byte)
  /-- `RETURN_REQUEST` (R72). -/
  | returnRequest (nonce : BitVec 128) (sigR : BitVec 256) (sigS : BitVec 256)
  /-- `REPLACE_HANDOVER` (R72). -/
  | replaceHandover (old : Byte) (sealIdx : Word) (head : BitVec 128) (sigR : BitVec 256) (sigS : BitVec 256)
  deriving DecidableEq, Repr

/-- The commands of the block: one constructor for each row of spec/opcode_table.json. -/
inductive Instr
  /-- `IDENTIFY` (R72). Host command that returns the device identity, revision, MAC address and identity-key hash. -/
  | identify (rq : Req)
  /-- `WINDOW_READ` (R68). Window frame that returns up to twelve window registers, all taken from one loop cycle. -/
  | windowRead (rq : Req) (off : Byte) (cnt : Byte)
  /-- `WINDOW_WRITE` (R69). Window frame that writes WIN_DOORBELL, WIN_MBX or WIN_SCRATCH. -/
  | windowWrite (rq : Req) (off : Byte) (val : Word)
  /-- `SESSION_OPEN` (R57). Opens an authenticated session, derives its key and grants the requested rights that the life-cycle state permits. -/
  | sessionOpen (rq : Req) (rights : BitVec 16) (nonce : BitVec 128)
  /-- `SESSION_CLOSE` (R60). Closes the session in which it is authenticated. -/
  | sessionClose (rq : Req)
  /-- `STAGE_WRITE` (R80). Stages the ST and CD fields of configuration items into the pending bank. -/
  | stageWrite (rq : Req) (item : Word) (words : List Word)
  /-- `STAGE_READ` (R80). Returns item words from the active or the pending bank. -/
  | stageRead (rq : Req) (item : Word) (n : BitVec 16) (bank : Byte)
  /-- `COMMIT` (R85). Validates the pending bank and schedules its switch to active at a boundary under a new epoch. -/
  | commit (rq : Req) (epoch : BitVec 16) (bound : Byte) (flags : Byte) (tmo : BitVec 16) (arg : BitVec 64)
  /-- `ABORT` (R88). Empties the pending bank and cancels a pending commit that has not yet switched. -/
  | abort (rq : Req)
  /-- `QUERY_EPOCH` (R72). Returns WIN_EPOCH and the number of items in the pending bank. -/
  | queryEpoch (rq : Req)
  /-- `ARM` (R73). Host command that arms the named gate pairs through GOU_ARMREQ. -/
  | arm (rq : Req) (mask : Word)
  /-- `DISARM` (R244). Host command that disarms the named gate pairs through GOU_DISARM. -/
  | disarm (rq : Req) (mask : Word)
  /-- `SET_REFERENCE` (R90). Loads a slice reference latch without changing the epoch. -/
  | setReference (rq : Req) (sl : Byte) (idx : Byte) (val : Word)
  /-- `TRIP_CLEAR` (R74). Clears RX and then the trip latch of each named pair whose cause has gone. -/
  | tripClear (rq : Req) (mask : Word)
  /-- `CAPTURE_START` (R351). Host command that starts a Granary capture with the named streams. -/
  | captureStart (rq : Req) (mask : Word) (kb : Word)
  /-- `CAPTURE_TRIGGER` (R352). Host command that triggers a running capture. -/
  | captureTrigger (rq : Req)
  /-- `CAPTURE_READ` (R358). Returns bytes of the frozen Granary record. -/
  | captureRead (rq : Req) (off : BitVec 64) (len : Word)
  /-- `CAPTURE_FREEZE` (R354). Freezes the capture now, or arms a freeze at a PTP time, device-wide or ring-wide. -/
  | captureFreeze (rq : Req) (when : Byte) (t : BitVec 64)
  /-- `LEDGER_READ` (R379). Returns hour-ledger entries as they are stored. -/
  | ledgerRead (rq : Req) (first : Word) (cnt : BitVec 16)
  /-- `LEDGER_ACK` (R380). Checks a signed acknowledgement, frees the acknowledged slots and queues an ACK entry. -/
  | ledgerAck (rq : Req) (idx : Word) (head : BitVec 128) (sigR : BitVec 256) (sigS : BitVec 256)
  /-- `LEDGER_STATUS` (R381). Returns the ledger indices, flags and chain head. -/
  | ledgerStatus (rq : Req)
  /-- `TIME_SET` (R561). Writes the calendar setting registers and applies them. -/
  | timeSet (rq : Req) (cal : CalFields)
  /-- `TIME_QUERY` (R72). Returns the calendar fields, the PTP time and the PTP offset. -/
  | timeQuery (rq : Req)
  /-- `IMAGE_WRITE` (R91). Opens, fills or closes an image write sequence on a slot. -/
  | imageWrite (rq : Req) (slot : Byte) (flags : Byte) (off : Word) (data : List Byte)
  /-- `IMAGE_ACTIVATE` (R94). Makes a verified slot the preferred slot for the next boot. -/
  | imageActivate (rq : Req) (slot : Byte)
  /-- `IMAGE_STATUS` (R91). Returns the state, version and length of both image slots. -/
  | imageStatus (rq : Req)
  /-- `MODE_REQUEST` (R500). Requests Field, Yard or Barn through APM_MODE.REQ. -/
  | modeRequest (rq : Req) (mode : Byte)
  /-- `VOTE` (R507). Casts or withdraws the HOST vote on a domain. -/
  | vote (rq : Req) (dom : Byte) (val : Byte)
  /-- `MBX_PUT` (R289). Pushes up to eight words into the device-bound queue of a mailbox channel. -/
  | mbxPut (rq : Req) (ch : Byte) (words : List Word)
  /-- `MBX_GET` (R289). Pops up to eight words from the host-bound queue of a mailbox channel. -/
  | mbxGet (rq : Req) (ch : Byte) (n : Byte)
  /-- `ENUMERATE` (R302). Assigns a ring address to the first unaddressed device and fixes its upstream port. -/
  | enumerate (rq : Req) (adr : Byte)
  /-- `RING_STATUS` (R72). Returns the ring address, ring flags, PTP offset and heartbeat map. -/
  | ringStatus (rq : Req)
  /-- `FAULT_INJECT` (R326). Sets a frame drop, corruption or reorder injection on a port. -/
  | faultInject (rq : Req) (port : Byte) (kind : Byte) (n : BitVec 16) (etype : BitVec 16) (firstBit : BitVec 16) (bits : Byte)
  /-- `LC_ADVANCE` (R387). Moves the life-cycle state forward to PROVISIONED or DEPLOYED. -/
  | lcAdvance (rq : Req) (target : Byte)
  /-- `RETURN_REQUEST` (R392). Seals the ledger, programs RETURNED, erases the OEM keys and resets. -/
  | returnRequest (rq : Req) (nonce : BitVec 128) (sigR : BitVec 256) (sigS : BitVec 256)
  /-- `REPLACE_HANDOVER` (R393). Binds the old device's final seal into a spare's ledger with a HANDOVER entry and a seal. -/
  | replaceHandover (rq : Req) (old : Byte) (sealIdx : Word) (head : BitVec 128) (sigR : BitVec 256) (sigS : BitVec 256)
  /-- `FRAME_RECEIVE` (R42). A received Ethernet frame is consumed, forwarded or discarded. -/
  | frameReceive (port : PortId) (frame : List Byte) (fcsOk : Bool)
  /-- `FINAL_REPLY` (R54). The final reply of a command leaves the device and its credit returns. -/
  | finalReply
  /-- `HEARTBEAT_RECEIVE` (R310). A received heartbeat updates the heartbeat map and the last heartbeat kept for its sender. -/
  | heartbeatReceive (sender : Byte) (mac : BitVec 48) (hb : Heartbeat)
  /-- `HEARTBEAT_SEND` (R308). The link domain sends a heartbeat at its scheduled PTP time. -/
  | heartbeatSend
  /-- `HEARTBEAT_MEMBER_SILENT` (R310). A map bit falls after 300 µs without a heartbeat and MEMBLOST is set. -/
  | heartbeatMemberSilent (dev : Fin 64)
  /-- `ANGLE_SHARE_SEND` (R311). At every microsecond of PTP time, an angle-share frame is formed for the shared tracks. -/
  | angleShareSend
  /-- `ANGLE_SHARE_RECEIVE` (R313). A received angle share updates ring-shared tracks or counts as stale. -/
  | angleShareReceive (sender : Byte) (sh : AngleShare)
  /-- `RING_TRIP_REPEAT` (R314). The ring-trip frame is sent again 1 µs and 2 µs after the latch. -/
  | ringTripRepeat
  /-- `RING_TRIP_RECEIVE` (R316). An accepted ring trip sets RX, raises signal 0x1E0 and presents input 66. -/
  | ringTripReceive (sender : Byte) (rt : RingTrip)
  /-- `COMMIT_READY_SEND` (R319). A participant sends commit ready, and sends it again at T − 20 µs. -/
  | commitReadySend
  /-- `COMMIT_ABORT_SEND` (R319). A participant that refuses or is not ready sends commit abort. -/
  | commitAbortSend
  /-- `COMMIT_READY_RECEIVE` (R320). A commit-ready frame from a participant is recorded for the decision. -/
  | commitReadyReceive (sender : Byte) (epoch : BitVec 16) (t : BitVec 64)
  /-- `COMMIT_ABORT_RECEIVE` (R320). A commit-abort frame from a participant is recorded for the decision. -/
  | commitAbortReceive (sender : Byte) (epoch : BitVec 16) (t : BitVec 64)
  /-- `TWO_PHASE_DECISION` (R320). At T − 4 µs each participant decides to switch or abandon. -/
  | twoPhaseDecision
  /-- `PTP_SYNC_RECEIVE` (R306). A Sync updates the PTP time, RING_PTPOFF and the PTPOFF flag. -/
  | ptpSyncReceive (port : PortId) (gm : BitVec 64) (offset : Int)
  /-- `PTP_SYNC_SEND` (R304). The root, as grandmaster, sends Sync and Pdelay_Req on both ports. -/
  | ptpSyncSend
  /-- `UPSTREAM_SWITCH` (R307). The upstream port changes when the current one is lost and the other hears the grandmaster. -/
  | upstreamSwitch
  /-- `LINK_TRAINED` (R515). A port completes link training and its recovered clock becomes ready. -/
  | linkTrained (port : PortId)
  /-- `INJECTION_REORDER_TIMEOUT` (R327). A held reorder frame is released after 100 µs. -/
  | injectionReorderTimeout (port : PortId)
  /-- `SESSION_TIMEOUT` (R60). A session closes after 60 s without an authenticated request. -/
  | sessionTimeout (tag : Word)
  /-- `COMMIT_SWITCH` (R86). In the switch cycle the pending bank becomes active and the epoch changes. -/
  | commitSwitch
  /-- `COMMIT_TIMEOUT` (R87). A commit whose switch cycle has not come within its timeout is abandoned. -/
  | commitTimeout
  /-- `COMMIT_PERSIST_DONE` (R89). The persist write of the active configuration to MRAM completes and the final reply is sent. -/
  | commitPersistDone
  /-- `TRK_MEASUREMENT` (R101). A filtered source measurement applies the second-order tracking correction. -/
  | trkMeasurement (n : TrackId)
  /-- `ENCODER_EDGE` (R111). An accepted quadrature edge moves the count and yields a measurement. -/
  | encoderEdge (n : TrackId) (a : Bool) (b : Bool) (ts : Nat)
  /-- `ENCODER_BOUNDARY_MEASUREMENT` (R114). The prediction passes the count interval without an edge and a boundary measurement is applied. -/
  | encoderBoundaryMeasurement (n : TrackId)
  /-- `ENCODER_INDEX` (R115). An index edge captures the output angle, and may home or check the count. -/
  | encoderIndex (n : TrackId) (ts : Nat)
  /-- `SSI_START` (R119). An SSI frame starts on its task or on the poll period. -/
  | ssiStart (n : TrackId)
  /-- `SSI_FRAME_COMPLETE` (R118). A completed SSI frame yields a position measurement or an SSI fault. -/
  | ssiFrameComplete (n : TrackId) (bits : Word) (low : Bool)
  /-- `OBSERVER_LOAD` (R124). A core write of TRKn_OBS_ANG loads the observer state. -/
  | observerLoad (ag : Agent) (n : TrackId) (ang : Word)
  /-- `TRK_LOSS_CONDITION` (R131). A loss condition starts the coast of a valid track. -/
  | trkLossCondition (n : TrackId) (cond : LossCond)
  /-- `TRK_COAST_EXPIRY` (R133). The coast timer reaches its limit and the track goes lost. -/
  | trkCoastExpiry (n : TrackId)
  /-- `TRK_LOST_CLEAR` (R135). A write of 1 to TRKn_FLAGS.LOST clears the lost state when no loss condition holds. -/
  | trkLostClear (ag : Agent) (n : TrackId)
  /-- `TRK_ENABLE` (R139). Setting or clearing TRKn_CTRL.EN starts or stops the track. -/
  | trkEnable (ag : Agent) (n : TrackId) (en : Bool)
  /-- `TRK_SOURCE_CHANGE` (R644). A change of TYPE, IFACE or TRKn_SRCA restarts the track. -/
  | trkSourceChange (ag : Agent) (n : TrackId) (ty : Fin 8) (iface : Fin 8) (srca : Word)
  /-- `TRK_MULT_CHANGE` (R645). A change of MULT rescales the output and moves the frontiers by the step. -/
  | trkMultChange (ag : Agent) (n : TrackId) (mult : BitVec 7)
  /-- `TRK_ANG_READ` (R136). A read of TRKn_ANG latches the reader's copy of the track state. -/
  | trkAngRead (ag : Agent) (n : TrackId)
  /-- `ALMANAC_COMMIT` (R146). A crossing inside the commit horizon is committed with its instant and the entry is re-armed. -/
  | almanacCommit (n : TrackId)
  /-- `ALMANAC_FIRING_ISSUE` (R152). A committed firing is issued in its firing cycle and its tasks are delivered. -/
  | almanacFiringIssue (n : TrackId)
  /-- `ALM_ARM` (R168). A write of ALM_ARM sets or clears the EN of an entry immediately. -/
  | almArm (ag : Agent) (idx : EntryId) (set : Bool)
  /-- `ALMANAC_CLOCK_STOP` (R166). With its clock enable cleared, the Almanac issues its committed firings and then stops. -/
  | almanacClockStop
  /-- `EVF_SWEV` (R274). A write of EVF_SWEV raises fast-side software event signals. -/
  | evfSwev (ag : Agent) (mask : BitVec 16)
  /-- `EVF_AO_SWEV` (R279). A write of EVF_AO_SWEV raises always-on software event signals. -/
  | evfAoSwev (ag : Agent) (mask : BitVec 8)
  /-- `EVF_CLOCK_STOP` (R286). With its clock enable cleared, the fabric delivers earlier sources and then stops. -/
  | evfClockStop
  /-- `CV_SAMPLE_TASK` (R171). A sampling task makes a task-started converter sample at its instant, in bursts. -/
  | cvSampleTask (n : CvId)
  /-- `CV_FREE_RUN_SAMPLE` (R170). A free-running converter samples on every even loop cycle. -/
  | cvFreeRunSample (n : CvId)
  /-- `CV_STEP_TASK` (R179). A step task advances the channel sequence. -/
  | cvStepTask (n : CvId)
  /-- `CV_REWIND_TASK` (R179). A rewind task restarts the channel sequence and the averaging set. -/
  | cvRewindTask (n : CvId)
  /-- `CV_SEL_WRITE` (R180). A core write of CVn_SEL sets the channel, and sets SELCOL on a collision. -/
  | cvSelWrite (ag : Agent) (n : CvId) (ch : Fin 8)
  /-- `RESULT_DELIVERED` (R174). A converted result reaches its consumers 15 lc after its sample. `input` is the level
  of the sampled analogue input as the converter resolves it, in eighths of a code at ×1. -/
  | resultDelivered (n : CvId) (input : Int)
  /-- `CV_DATA_READ` (R184). A read of CVn_DATA takes the result it returns. -/
  | cvDataRead (ag : Agent) (n : CvId)
  /-- `CV_DISABLE` (R187). Disabling a converter delivers the samples in flight as TAIL and stops its clock. -/
  | cvDisable (ag : Agent) (n : CvId)
  /-- `COMPARATOR_INPUT_CHANGE` (R195). An input crossing a threshold asserts or releases ABOVE or BELOW. -/
  | comparatorInputChange (m : CmpId) (level : Int)
  /-- `COMPARATOR_FILTER_EXPIRY` (R196). An output held for FILT cycles passes to the matrix and the fabric. -/
  | comparatorFilterExpiry (m : CmpId)
  /-- `COMPARATOR_BLANK_END` (R197). After 25 lc the held outputs are released at their new values. -/
  | comparatorBlankEnd (m : CmpId)
  /-- `SLICE_RUN_START` (R201). A trigger starts a slice run that captures its operands and executes its program up to commit. -/
  | sliceRunStart (n : SliceId)
  /-- `SLICE_PERIOD_TIMER` (R203). The period timer expires and triggers a run in MODE 0b10. -/
  | slicePeriodTimer (n : SliceId)
  /-- `TWIN_CLEAR` (R234). A write of 1 to SLCn_STAT.TWIN clears it and zeroes the slice state. -/
  | twinClear (ag : Agent) (n : SliceId)
  /-- `SLC_REF_WRITE` (R230). A write of SLCn_REFk loads the reference latch. -/
  | slcRefWrite (ag : Agent) (n : SliceId) (k : Fin 32) (val : Word)
  /-- `SLC_IZERO` (R228). A write of SLCn_CMD.IZERO zeroes integrators at the next run start. -/
  | slcIzero (ag : Agent) (n : SliceId) (mask : BitVec 8)
  /-- `SLC_INJ` (R236). A write of SLCn_CMD.INJ injects a twin test mismatch when the slice's pairs are disarmed. -/
  | slcInj (ag : Agent) (n : SliceId)
  /-- `SLC_ZERO_INTEGRATORS_TASK` (R228). The zero-integrators task zeroes all eight integrators at the next run start. -/
  | slcZeroIntegratorsTask (n : SliceId)
  /-- `SLC_ENABLE` (R237). Setting SLCn_CTRL.EN zeroes the slice state when its pairs are disarmed. -/
  | slcEnable (ag : Agent) (n : SliceId)
  /-- `SLC_DISABLE` (R238). Clearing EN stops the slice and sends its RUN pairs to their safe state. -/
  | slcDisable (ag : Agent) (n : SliceId)
  /-- `SLC_PROGRAM_STORE_WRITE` (R226). A core write to the program store is refused while EN is 1. -/
  | slcProgramStoreWrite (ag : Agent) (n : SliceId) (prog : Fin 8) (uop : Fin 32) (w : Fin 2) (val : Word)
  /-- `SLC_ENERGY_READ` (R220). A read of SLCn_ENERGY_LO latches the upper word for the reader. -/
  | slcEnergyRead (ag : Agent) (n : SliceId)
  /-- `GOU_ARMREQ` (R243). A write of GOU_ARMREQ arms pairs from OFF or SAFE. -/
  | gouArmreq (ag : Agent) (mask : Word)
  /-- `GOU_DISARM` (R244). A write of GOU_DISARM takes pairs to OFF. -/
  | gouDisarm (ag : Agent) (mask : Word)
  /-- `GOU_TRIPCLR` (R267). A write of GOU_TRIPCLR clears the latches of pairs whose cause has gone. -/
  | gouTripclr (ag : Agent) (mask : Word)
  /-- `PAIR_CROSSING_COMMIT` (R249). A pair commits a carrier or pattern edge crossing on its track. -/
  | pairCrossingCommit (p : PairId)
  /-- `EDGE_PLACEMENT` (R247). The edge placer applies an output change at its instant. -/
  | edgePlacement (p : PairId)
  /-- `DIRECT_PULSE_START` (R258). A timed-edge task or a new time word starts a direct-mode pulse. -/
  | directPulseStart (p : PairId)
  /-- `TRIPIN_PIN_CHANGE` (R263). A TRIPIN pin holds its active level for FILT cycles and is presented to the matrix. -/
  | tripinPinChange (j : Fin 4) (level : Bool)
  /-- `GOU_CLOCK_STOP` (R271). With its clock enable cleared, the gate block runs until every pair is OFF. -/
  | gouClockStop
  /-- `MBX_PUSH` (R287). A write to MBXn_DPUSH or HPUSH pushes a word, overwriting when the queue is full. -/
  | mbxPush (ag : Agent) (ch : ChanId) (hostBound : Bool) (val : Word)
  /-- `MBX_POP` (R287). A read of MBXn_DPOP or HPOP removes the oldest word. -/
  | mbxPop (ag : Agent) (ch : ChanId) (hostBound : Bool)
  /-- `DOORBELL_RING` (R292). A write to MBX_BELL_SET rings doorbells and raises their events. -/
  | doorbellRing (ag : Agent) (mask : Word)
  /-- `MBX_CLOCK_STOP` (R291). Clearing the mailbox clock enable stops the block and keeps its contents. -/
  | mbxClockStop
  /-- `GRN_START` (R351). A write of GRN_CMD.START starts a capture. -/
  | grnStart (ag : Agent)
  /-- `GRN_TRIG` (R352). A write of GRN_CMD.TRIG triggers a running capture. -/
  | grnTrig (ag : Agent)
  /-- `GRN_FREEZE` (R353). A write of GRN_CMD.FREEZE freezes the capture now. -/
  | grnFreeze (ag : Agent)
  /-- `GRN_FRZAT` (R354). A write of GRN_CMD.FRZAT arms a freeze at GRN_FRZTIME. -/
  | grnFrzat (ag : Agent)
  /-- `CAPTURE_TASK` (R352). Capture task 0 triggers and task 1 freezes. -/
  | captureTask
  /-- `CAPTURE_MARK_TASK` (R355). Capture tasks 2 to 7 write a mark into the record. -/
  | captureMarkTask
  /-- `POST_TRIGGER_COMPLETE` (R352). The post-trigger amount has been written and the capture freezes. -/
  | postTriggerComplete
  /-- `FREEZE_TIME_REACHED` (R354). The armed PTP freeze time is reached and the capture freezes. -/
  | freezeTimeReached
  /-- `GRANARY_BLOCK_WRITE` (R350). A completed 64 KB block is written to the ring in LPDDR6. -/
  | granaryBlockWrite
  /-- `GRANARY_DISABLE_FREEZE` (R357). Clearing the clock enable or withdrawing the memory vote freezes the capture. -/
  | granaryDisableFreeze
  /-- `CALENDAR_TICK` (R553). SUB reaches a multiple of 32 and the meters, the tamper sampling and the periodic wake count. -/
  | calendarTick
  /-- `CALENDAR_SECOND_CARRY` (R550). SUB wraps and the calendar fields carry. -/
  | calendarSecondCarry
  /-- `CALENDAR_TRIM` (R554). Every 2^20 counts the rate trim is applied. -/
  | calendarTrim
  /-- `PERIODIC_WAKE` (R563). The periodic wake reaches COUNT units and fires. -/
  | periodicWake
  /-- `RTC_APPLY` (R559). A write of RTC_APPLY.GO checks and applies the calendar setting. -/
  | rtcApply (ag : Agent) (val : Word)
  /-- `RTC_READ_FREEZE` (R556). A first calendar read freezes a coherent shadow of the calendar. -/
  | rtcReadFreeze (ag : Agent) (k : Fin 4)
  /-- `RTC_RELEASE` (R557). A write of RTC_RELEASE.REL releases the freeze. -/
  | rtcRelease (ag : Agent)
  /-- `RTC_FREEZE_TIMEOUT` (R557). The freeze is released 1 s after the freezing read. -/
  | rtcFreezeTimeout
  /-- `HOUR_ENTRY` (R370). On the calendar hour change, a HOUR entry is written when something counted. -/
  | hourEntry
  /-- `LEDGER_SLOT_WRITE` (R372). The engine writes a queued entry to its slot once a grant is given. -/
  | ledgerSlotWrite
  /-- `LEDGER_SEAL` (R374). The engine writes a four-slot seal record for a due reason. -/
  | ledgerSeal
  /-- `LGR_NOTE` (R385). A write of LGR_CTRL.NOTE queues a NOTE or PIN entry. -/
  | lgrNote (ag : Agent)
  /-- `LGR_SEAL_REQUEST` (R374). A write of LGR_CTRL.SEAL requests a seal. -/
  | lgrSealRequest (ag : Agent)
  /-- `LEDGER_RECOVERY` (R377). At always-on power-up the engine verifies the chain and rebuilds the totals. -/
  | ledgerRecovery
  /-- `LEDGER_CONDENSE` (R382). When free slots run low, the oldest unacknowledged span is condensed. -/
  | ledgerCondense
  /-- `TAMPER_ASSERT` (R384). A tamper input asserts, counts and queues a TAMPER entry. -/
  | tamperAssert (j : Fin 4)
  /-- `PARKED_MOTION_SAMPLE` (R386). In Barn, the encoder pins are strobed and sampled for parked motion. -/
  | parkedMotionSample (a : Bool) (b : Bool)
  /-- `PROVISIONING_ITEM` (R389). The firmware stores a provisioning item received on MBX14 and answers it. -/
  | provisioningItem
  /-- `DEBUG_UNLOCK` (R390). The unlock word on MBX13 in an authorised session sets SEC_DBG.OPEN. -/
  | debugUnlock
  /-- `DEBUG_TRANSACTION` (R391). A debug transaction on MBX13 is carried out with the rights of MGT0. -/
  | debugTransaction
  /-- `APM_MODE_REQ` (R500). A write of APM_MODE.REQ requests a mode transition. -/
  | apmModeReq (ag : Agent) (req : BitVec 2)
  /-- `APM_VOTE_SET` (R507). A write of APM_VOTE_SET casts the writer's votes. -/
  | apmVoteSet (ag : Agent) (val : Word)
  /-- `APM_VOTE_CLR` (R507). A write of APM_VOTE_CLR withdraws votes and may begin a descent. -/
  | apmVoteClr (ag : Agent) (val : Word)
  /-- `DOMAIN_DESCENT_COMPLETE` (R508). The domain's blocks have stopped and it reaches its hold level. -/
  | domainDescentComplete (d : Dom)
  /-- `DOMAIN_RETURN_COMPLETE` (R512). A domain reaches H0 and releases its clamps. -/
  | domainReturnComplete (d : Dom)
  /-- `WAKE_SOURCE_FIRE` (R511). An enabled wake source sets STAT, starts BRC and may cast WAKE. -/
  | wakeSourceFire (i : Fin 11)
  /-- `LINK_WAKE_DETECT` (R513). The link wake detector sees the wake pattern or signal energy. -/
  | linkWakeDetect (port : PortId)
  /-- `LINK_WAKE_REPEAT` (R514). After a link wake, the device repeats the pattern and begins training. -/
  | linkWakeRepeat
  /-- `VSYS_FAIL` (R502). VSYS fails, the three domains go to H5 and the device enters Barn. -/
  | vsysFail
  /-- `VSYS_RETURN` (R527). VSYS returns and the power path changes over. -/
  | vsysReturn
  /-- `RAIL_OUT_OF_RANGE` (R609). A domain rail leaves its range and the domain goes to H5. -/
  | railOutOfRange (d : Dom)
  /-- `CPM_CLKEN_WRITE` (R525). A change of a clock enable stops or restarts a block. -/
  | cpmClkenWrite (ag : Agent) (val : Word)
  /-- `BLOCK_CLOCK_STOPPED` (R525). A block reaches its commit point, stops its clock and clears CLKRUN. -/
  | blockClockStopped (b : Fin 10)
  /-- `CLOCK_SWITCH_REQUEST` (R516). A write of CPM_CLK_CTRL.SRC requests a switch of the loop reference. -/
  | clockSwitchRequest (ag : Agent) (src : BitVec 2)
  /-- `CLOCK_SLEW_LOCK` (R517). PLL_LOOP completes its slew and declares LOCK. -/
  | clockSlewLock
  /-- `HOLDOVER_ENTRY` (R518). The selected recovered clock is lost and PLL_LOOP enters holdover. -/
  | holdoverEntry
  /-- `HOLDOVER_EXPIRY` (R519). After 100 ms of holdover, CPM switches to HRC itself. -/
  | holdoverExpiry
  /-- `HRC_READY` (R515). HRC becomes ready 8 µs after enable. -/
  | hrcReady
  /-- `XO32_READY` (R520). XO32 is declared ready after its start delay. -/
  | xo32Ready
  /-- `XO32_LOST` (R522). Four LRC periods pass without an XO32 edge and XO32 restarts. -/
  | xo32Lost
  /-- `BRC_READY` (R520). BRC becomes ready 3 µs after it starts. -/
  | brcReady
  /-- `AO_REGISTER_ACCESS_STALL` (R32). A fast-side access to an always-on register while BRC is stopped waits for BRC. -/
  | aoRegisterAccessStall (ag : Agent) (acc : RegAccess)
  /-- `VOC_SAMPLE` (R533). The harvester samples the open-circuit voltage and sets its regulation point. -/
  | vocSample (voc : Nat)
  /-- `PURSE_RECOMPUTE` (R535). The purse is recomputed from the store model. -/
  | purseRecompute (vin : Nat) (vstore : Nat)
  /-- `GRANT_REQUEST` (R539). A holder's request is granted against AVAIL or denied. -/
  | grantRequest (h : Fin 4) (amount : BitVec 24)
  /-- `GRANT_RETURN` (R541). A holder returns its grant and its reservation is released. -/
  | grantReturn (h : Fin 4)
  /-- `BROWN_OUT_WARNING` (R542). VSTORE falls through VWARN or the purse falls below the reserve, and a warning is raised. -/
  | brownOutWarning
  /-- `SEAL_THRESHOLD` (R543). The seal threshold is reached and the device is committed to Cellar. -/
  | sealThreshold
  /-- `FINAL_SEQUENCE_COMPLETE` (R547). The final seal completes and the device enters Cellar. -/
  | finalSequenceComplete
  /-- `CELLAR_EXIT` (R549). VSTORE reaches VEXIT or VSYS returns, and the device leaves Cellar. -/
  | cellarExit
  /-- `AO_POWER_UP` (R528). Without VSYS, VSTORE rises above 1.85 V and the always-on domain powers up. -/
  | aoPowerUp
  /-- `AO_POWER_LOSS` (R528). VSTORE falls below 1.70 V and the always-on domain loses power. -/
  | aoPowerLoss
  /-- `ALWAYS_ON_START` (R610). The always-on start latches the straps, loads the LK fields and starts the engine and the AOC. -/
  | alwaysOnStart
  /-- `UART_CHAR_RECEIVED` (R577). A received character is stored with its flags, or discarded. -/
  | uartCharReceived (n : UartId) (char : SerialChar)
  /-- `UART_TX_START` (R572). A queued character begins transmission when CTS permits. -/
  | uartTxStart (n : UartId)
  /-- `UART_DATA_WRITE` (R570). A write of Un_DATA pushes the transmit queue, or sets TOVR. -/
  | uartDataWrite (ag : Agent) (n : UartId) (val : BitVec 9)
  /-- `UART_DATA_READ` (R577). A read of Un_DATA pops the receive queue. -/
  | uartDataRead (ag : Agent) (n : UartId)
  /-- `RXFLUSH` (R570). A write of Un_CTRL.RXFLUSH empties the receive queue. -/
  | rxflush (ag : Agent) (n : UartId)
  /-- `TXFLUSH` (R570). A write of Un_CTRL.TXFLUSH empties the transmit queue. -/
  | txflush (ag : Agent) (n : UartId)
  /-- `UART_DEPTH_WRITE` (R569). A write that changes a DEPTH field empties that queue. -/
  | uartDepthWrite (ag : Agent) (n : UartId) (val : Word)
  /-- `UART_IDLE` (R573). Four frame times pass without a start bit and IDLE is set. -/
  | uartIdle (n : UartId)
  /-- `UART_DISABLE` (R581). Clearing RXEN, TXEN or the clock enable completes the characters in the shifters and stops the port. -/
  | uartDisable (ag : Agent) (n : UartId) (rx : Bool) (tx : Bool)
  /-- `TOUCH_SCAN` (R585). A scan measures every key and updates baselines, key states and reports. -/
  | touchScan (raws : List Nat)
  /-- `TOUCH_RECAL` (R591). A write of TCH_RECAL recalibrates keys at the end of the next scan. -/
  | touchRecal (ag : Agent) (hi : Bool) (keys : Word)
  /-- `TOUCH_REPORT_READ` (R596). A read of TCH_REPORT pops the oldest report. -/
  | touchReportRead (ag : Agent)
  /-- `TOUCH_ENTER_NOISE_TASK` (R595). Task 0xC8 sets the charger-noise latch. -/
  | touchEnterNoiseTask
  /-- `TOUCH_LEAVE_NOISE_TASK` (R595). Task 0xC9 clears the charger-noise latch. -/
  | touchLeaveNoiseTask
  /-- `TOUCH_DISABLE` (R597). Clearing EN or the clock enable completes the scan in progress and stops. -/
  | touchDisable (ag : Agent)
  /-- `LCD_UPD` (R602). A write of LCD_UPD copies regions of the back buffer to their pending copies. -/
  | lcdUpd (ag : Agent) (mask : BitVec 8)
  /-- `FRAME_PAIR_BOUNDARY` (R602). At each frame-pair boundary, pending regions, bands and trim maps take effect. -/
  | framePairBoundary
  /-- `LCD_TEMP_SAMPLE` (R606). The temperature is sampled once a second and a band is decided. -/
  | lcdTempSample (t : Int)
  /-- `LCD_TRIM_LOAD` (R605). A write of LCD_TRIM.LOAD starts the load of the trim map from MRAM. -/
  | lcdTrimLoad (ag : Agent) (val : Word)
  /-- `LCD_TRIM_LOAD_DONE` (R605). The trim map load completes, or is refused. -/
  | lcdTrimLoadDone
  /-- `LCD_PUMP_SETTLED` (R600). VLCD reaches its new level and PUMPOK is set. -/
  | lcdPumpSettled
  /-- `LCD_DISABLE` (R608). Clearing EN completes the frame pair and drives the display pins to VSS. -/
  | lcdDisable (ag : Agent)
  /-- `PORESET` (R613). PORESET_n low resets the fast, memory and link domains and restarts the always-on domain. -/
  | poreset
  /-- `APM_RSTREQ_AO` (R613). A write of APM_RSTREQ.AO restarts the always-on domain. -/
  | apmRstreqAo (ag : Agent)
  /-- `APM_RSTREQ_FAST` (R613). A write of APM_RSTREQ.FAST resets the fast domain. -/
  | apmRstreqFast (ag : Agent)
  /-- `APM_RSTREQ_LINK` (R613). A write of APM_RSTREQ.LINK resets the link domain. -/
  | apmRstreqLink (ag : Agent)
  /-- `TRST` (R613). TRST_n low resets the JTAG TAP. -/
  | trst
  /-- `WATCHDOG_EXPIRY` (R616). The watchdog reaches TIMEOUT, sets FWST 4 and may reset the fast domain. -/
  | watchdogExpiry
  /-- `WATCHDOG_KICK` (R616). A write of CPM_WDOG.KICK restarts the count. -/
  | watchdogKick (ag : Agent)
  /-- `WATCHDOG_ENABLE` (R616). A write that sets CPM_WDOG.EN starts the count. -/
  | watchdogEnable (ag : Agent) (val : Word)
  /-- `BOOT_ROM_DECISION` (R620). MGT0 verifies the image slots and hands over to a slot or to recovery. -/
  | bootRomDecision
  /-- `IMAGE_VERIFY_DONE` (R619). Verification of a slot completes as verified or failed. -/
  | imageVerifyDone (slot : Fin 2)
  /-- `AOC_BOOT_PATH` (R623). The AOC verifies and copies its section and enters it. -/
  | aocBootPath
  /-- `CONFIG_RESTORE` (R624). The firmware restores the newest valid persisted configuration in one switch cycle. -/
  | configRestore
  /-- `CPM_BOOT_WRITE` (R622). A write of CPM_BOOT takes effect only from boot ROM code. -/
  | cpmBootWrite (ag : Agent) (val : Word)
  /-- `CPM_PAIR_HOLD` (R494). A write of CPM_PAIRn_RST.HOLD holds or releases a control pair and ends its lockup. -/
  | cpmPairHold (ag : Agent) (n : Fin 2) (hold : Bool)
  /-- `CPM_PAIR_INJ` (R496). A write of CPM_PAIRn_RST.INJ injects a lockstep mismatch when nothing is armed. -/
  | cpmPairInj (ag : Agent) (n : Fin 2)
  /-- `LOCKSTEP_MISMATCH` (R495). The two cores of a pair disagree and the pair locks up. -/
  | lockstepMismatch (n : Fin 2)
  /-- `INTERRUPT_ENTRY` (R464). A sampled request fixes the boundary and enters its handler in 12 cycles. -/
  | interruptEntry (c : CoreId)
  /-- `TIMER_MATCH` (R477). CYCLE_LO reaches TMCMP and IPEND.TM is set. -/
  | timerMatch (c : CoreId)
  /-- `LONG_OPERATION_COMPLETE` (R443). A long operation writes its result L cycles after it began. -/
  | longOperationComplete (c : CoreId)
  /-- `HDT_LOAD` (R480). A write of HDT_CTL.LOAD loads the descriptor table into the core's copy. -/
  | hdtLoad (c : CoreId) (cap : CapIx)
  /-- `SSTK_DISCARD` (R487). A write of SSTK.DISCARD removes entries from the current shadow stack. -/
  | sstkDiscard (c : CoreId) (n : BitVec 9)
  /-- `SVC_WRITE` (R454). A write of SVC.STATE changes the service state and flushes the predictor. -/
  | svcWrite (c : CoreId) (val : Word)
  /-- `PRED_CTX_WRITE` (R455). A write of PRED_CTX selects the predictor context. -/
  | predCtxWrite (c : CoreId) (val : Word)
  /-- `SEALMASK_WRITE` (R437). A write of a SEALMASK register with KEY changes the seal-type mask. -/
  | sealmaskWrite (c : CoreId) (k : Fin 8) (val : Word)
  /-- `PAIRED_WORD` (R407). A pair of short operations issues and retires as one instruction. -/
  | pairedWord (c : CoreId) (slotA : BitVec 15) (slotB : BitVec 15) (low : Bool)
  /-- `ADD` (R409). Add, modulo 2^32. -/
  | add (c : CoreId) (rd : Reg) (rs1 : Reg) (rs2 : Reg)
  /-- `SUB` (R409). Subtract, modulo 2^32. -/
  | sub (c : CoreId) (rd : Reg) (rs1 : Reg) (rs2 : Reg)
  /-- `AND` (R409). Bitwise AND. -/
  | and (c : CoreId) (rd : Reg) (rs1 : Reg) (rs2 : Reg)
  /-- `OR` (R409). Bitwise OR. -/
  | or (c : CoreId) (rd : Reg) (rs1 : Reg) (rs2 : Reg)
  /-- `XOR` (R409). Bitwise XOR. -/
  | xor (c : CoreId) (rd : Reg) (rs1 : Reg) (rs2 : Reg)
  /-- `SLL` (R409). Shift left by register. -/
  | sll (c : CoreId) (rd : Reg) (rs1 : Reg) (rs2 : Reg)
  /-- `SRL` (R409). Logical shift right by register. -/
  | srl (c : CoreId) (rd : Reg) (rs1 : Reg) (rs2 : Reg)
  /-- `SRA` (R409). Arithmetic shift right by register. -/
  | sra (c : CoreId) (rd : Reg) (rs1 : Reg) (rs2 : Reg)
  /-- `SLT` (R409). Signed set-less-than. -/
  | slt (c : CoreId) (rd : Reg) (rs1 : Reg) (rs2 : Reg)
  /-- `SLTU` (R409). Unsigned set-less-than. -/
  | sltu (c : CoreId) (rd : Reg) (rs1 : Reg) (rs2 : Reg)
  /-- `MIN` (R409). Signed minimum. -/
  | min (c : CoreId) (rd : Reg) (rs1 : Reg) (rs2 : Reg)
  /-- `MAX` (R409). Signed maximum. -/
  | max (c : CoreId) (rd : Reg) (rs1 : Reg) (rs2 : Reg)
  /-- `MINU` (R409). Unsigned minimum. -/
  | minu (c : CoreId) (rd : Reg) (rs1 : Reg) (rs2 : Reg)
  /-- `MAXU` (R409). Unsigned maximum. -/
  | maxu (c : CoreId) (rd : Reg) (rs1 : Reg) (rs2 : Reg)
  /-- `SLLI` (R409). Shift left by the RS2 field. -/
  | slli (c : CoreId) (rd : Reg) (rs1 : Reg) (sh : Fin 32)
  /-- `SRLI` (R409). Logical shift right by the RS2 field. -/
  | srli (c : CoreId) (rd : Reg) (rs1 : Reg) (sh : Fin 32)
  /-- `SRAI` (R409). Arithmetic shift right by the RS2 field. -/
  | srai (c : CoreId) (rd : Reg) (rs1 : Reg) (sh : Fin 32)
  /-- `ADDS` (R409). Saturating signed add. -/
  | adds (c : CoreId) (rd : Reg) (rs1 : Reg) (rs2 : Reg)
  /-- `SUBS` (R409). Saturating signed subtract. -/
  | subs (c : CoreId) (rd : Reg) (rs1 : Reg) (rs2 : Reg)
  /-- `CLZ` (R409). Count of leading zeros. -/
  | clz (c : CoreId) (rd : Reg) (rs1 : Reg)
  /-- `SEXTB` (R409). Sign-extend from bit 7. -/
  | sextb (c : CoreId) (rd : Reg) (rs1 : Reg)
  /-- `SEXTH` (R409). Sign-extend from bit 15. -/
  | sexth (c : CoreId) (rd : Reg) (rs1 : Reg)
  /-- `ZEXTH` (R409). Zero-extend from bit 15. -/
  | zexth (c : CoreId) (rd : Reg) (rs1 : Reg)
  /-- `ADDI` (R408). Add of a sign-extended immediate. -/
  | addi (c : CoreId) (rd : Reg) (rs1 : Reg) (imm : BitVec 15)
  /-- `ANDI` (R408). AND with a zero-extended immediate. -/
  | andi (c : CoreId) (rd : Reg) (rs1 : Reg) (imm : BitVec 15)
  /-- `ORI` (R408). OR with a zero-extended immediate. -/
  | ori (c : CoreId) (rd : Reg) (rs1 : Reg) (imm : BitVec 15)
  /-- `XORI` (R408). XOR with a zero-extended immediate. -/
  | xori (c : CoreId) (rd : Reg) (rs1 : Reg) (imm : BitVec 15)
  /-- `SLTI` (R408). Signed set-less-than an immediate. -/
  | slti (c : CoreId) (rd : Reg) (rs1 : Reg) (imm : BitVec 15)
  /-- `SLTIU` (R408). Unsigned set-less-than an immediate. -/
  | sltiu (c : CoreId) (rd : Reg) (rs1 : Reg) (imm : BitVec 15)
  /-- `LUI` (R408). Load of an upper immediate. -/
  | lui (c : CoreId) (rd : Reg) (imm : BitVec 20)
  /-- `LB` (R416). Signed byte load through a capability. -/
  | lb (c : CoreId) (rd : Reg) (cap : CapIx) (rb : Reg) (imm : BitVec 12)
  /-- `LBU` (R416). Unsigned byte load. -/
  | lbu (c : CoreId) (rd : Reg) (cap : CapIx) (rb : Reg) (imm : BitVec 12)
  /-- `LH` (R416). Signed halfword load. -/
  | lh (c : CoreId) (rd : Reg) (cap : CapIx) (rb : Reg) (imm : BitVec 12)
  /-- `LHU` (R416). Unsigned halfword load. -/
  | lhu (c : CoreId) (rd : Reg) (cap : CapIx) (rb : Reg) (imm : BitVec 12)
  /-- `LW` (R416). Word load through a capability. -/
  | lw (c : CoreId) (rd : Reg) (cap : CapIx) (rb : Reg) (imm : BitVec 12)
  /-- `SB` (R416). Byte store through a capability. -/
  | sb (c : CoreId) (rd : Reg) (cap : CapIx) (rb : Reg) (imm : BitVec 12)
  /-- `SH` (R416). Halfword store. -/
  | sh (c : CoreId) (rd : Reg) (cap : CapIx) (rb : Reg) (imm : BitVec 12)
  /-- `SW` (R416). Word store. -/
  | sw (c : CoreId) (rd : Reg) (cap : CapIx) (rb : Reg) (imm : BitVec 12)
  /-- `CLD` (R420). Loads a capability register, with its tag when TAKE is held. -/
  | cld (c : CoreId) (cr : CapIx) (cap : CapIx) (rb : Reg) (imm : BitVec 12)
  /-- `CST` (R420). Stores a capability register with its tag. -/
  | cst (c : CoreId) (cr : CapIx) (cap : CapIx) (rb : Reg) (imm : BitVec 12)
  /-- `SWAP` (R433). Atomic word swap. -/
  | swap (c : CoreId) (rd : Reg) (cap : CapIx) (rb : Reg) (rs : Reg)
  /-- `AMO_ADD` (R433). Atomic word add. -/
  | amoAdd (c : CoreId) (rd : Reg) (cap : CapIx) (rb : Reg) (rs : Reg)
  /-- `CAS` (R433). Atomic compare-and-swap. -/
  | cas (c : CoreId) (rd : Reg) (cap : CapIx) (rb : Reg) (rs : Reg) (rc : Reg)
  /-- `CCOPY` (R421). Copies a capability with its tag. -/
  | ccopy (c : CoreId) (cd : CapIx) (cs : CapIx)
  /-- `CRAISE` (R422). Derives a capability with a raised BASE. -/
  | craise (c : CoreId) (cd : CapIx) (cs : CapIx) (rs : Reg)
  /-- `CTRIM` (R422). Derives a capability with a lowered LIMIT. -/
  | ctrim (c : CoreId) (cd : CapIx) (cs : CapIx) (rs : Reg)
  /-- `CMASKP` (R422). Derives a capability with masked permissions. -/
  | cmaskp (c : CoreId) (cd : CapIx) (cs : CapIx) (rs : Reg)
  /-- `CWRAP` (R423). Seals a capability with a permitted seal type. -/
  | cwrap (c : CoreId) (cd : CapIx) (cs : CapIx) (rs : Reg)
  /-- `CUNWRAP` (R423). Unseals a capability under the seal-type mask. -/
  | cunwrap (c : CoreId) (cd : CapIx) (cs : CapIx)
  /-- `CUNTAG` (R421). Copies a capability with its tag cleared. -/
  | cuntag (c : CoreId) (cd : CapIx) (cs : CapIx)
  /-- `CRDB` (R421). Reads BASE bits [31:0]. -/
  | crdb (c : CoreId) (rs : Reg) (cs : CapIx)
  /-- `CRDBH` (R421). Reads BASE bits [39:32]. -/
  | crdbh (c : CoreId) (rs : Reg) (cs : CapIx)
  /-- `CRDL` (R421). Reads LIMIT bits [31:0]. -/
  | crdl (c : CoreId) (rs : Reg) (cs : CapIx)
  /-- `CRDLH` (R421). Reads LIMIT bits [39:32]. -/
  | crdlh (c : CoreId) (rs : Reg) (cs : CapIx)
  /-- `CRDP` (R421). Reads PERM. -/
  | crdp (c : CoreId) (rs : Reg) (cs : CapIx)
  /-- `CRDS` (R421). Reads SEAL. -/
  | crds (c : CoreId) (rs : Reg) (cs : CapIx)
  /-- `CRDT` (R421). Reads TAG. -/
  | crdt (c : CoreId) (rs : Reg) (cs : CapIx)
  /-- `MUL` (R410). Low 32 bits of a product. -/
  | mul (c : CoreId) (rd : Reg) (rs1 : Reg) (rs2 : Reg)
  /-- `MULH` (R410). High bits of a signed product. -/
  | mulh (c : CoreId) (rd : Reg) (rs1 : Reg) (rs2 : Reg)
  /-- `MULHU` (R410). High bits of an unsigned product. -/
  | mulhu (c : CoreId) (rd : Reg) (rs1 : Reg) (rs2 : Reg)
  /-- `MULHSU` (R410). High bits of a signed-by-unsigned product. -/
  | mulhsu (c : CoreId) (rd : Reg) (rs1 : Reg) (rs2 : Reg)
  /-- `DIV` (R410). Long signed division. -/
  | div (c : CoreId) (rd : Reg) (rs1 : Reg) (rs2 : Reg)
  /-- `DIVU` (R410). Long unsigned division. -/
  | divu (c : CoreId) (rd : Reg) (rs1 : Reg) (rs2 : Reg)
  /-- `REM` (R410). Long signed remainder. -/
  | rem (c : CoreId) (rd : Reg) (rs1 : Reg) (rs2 : Reg)
  /-- `REMU` (R410). Long unsigned remainder. -/
  | remu (c : CoreId) (rd : Reg) (rs1 : Reg) (rs2 : Reg)
  /-- `SQRTU` (R410). Long unsigned integer square root. -/
  | sqrtu (c : CoreId) (rd : Reg) (rs1 : Reg)
  /-- `FADD` (R413). FP32 add. -/
  | fadd (c : CoreId) (rd : Reg) (rs1 : Reg) (rs2 : Reg)
  /-- `FSUB` (R413). FP32 subtract. -/
  | fsub (c : CoreId) (rd : Reg) (rs1 : Reg) (rs2 : Reg)
  /-- `FMUL` (R413). FP32 multiply. -/
  | fmul (c : CoreId) (rd : Reg) (rs1 : Reg) (rs2 : Reg)
  /-- `FDIV` (R413). FP32 divide. -/
  | fdiv (c : CoreId) (rd : Reg) (rs1 : Reg) (rs2 : Reg)
  /-- `FSQRT` (R413). FP32 square root. -/
  | fsqrt (c : CoreId) (rd : Reg) (rs1 : Reg)
  /-- `FMIN` (R413). FP32 minimum. -/
  | fmin (c : CoreId) (rd : Reg) (rs1 : Reg) (rs2 : Reg)
  /-- `FMAX` (R413). FP32 maximum. -/
  | fmax (c : CoreId) (rd : Reg) (rs1 : Reg) (rs2 : Reg)
  /-- `FEQ` (R413). FP32 compare equal. -/
  | feq (c : CoreId) (rd : Reg) (rs1 : Reg) (rs2 : Reg)
  /-- `FLT` (R413). FP32 compare less than. -/
  | flt (c : CoreId) (rd : Reg) (rs1 : Reg) (rs2 : Reg)
  /-- `FLE` (R413). FP32 compare less than or equal. -/
  | fle (c : CoreId) (rd : Reg) (rs1 : Reg) (rs2 : Reg)
  /-- `FCVTWS` (R413). FP32 to signed integer. -/
  | fcvtws (c : CoreId) (rd : Reg) (rs1 : Reg)
  /-- `FCVTWUS` (R413). FP32 to unsigned integer. -/
  | fcvtwus (c : CoreId) (rd : Reg) (rs1 : Reg)
  /-- `FCVTSW` (R413). Signed integer to FP32. -/
  | fcvtsw (c : CoreId) (rd : Reg) (rs1 : Reg)
  /-- `FCVTSWU` (R413). Unsigned integer to FP32. -/
  | fcvtswu (c : CoreId) (rd : Reg) (rs1 : Reg)
  /-- `FNEG` (R413). FP32 negate. -/
  | fneg (c : CoreId) (rd : Reg) (rs1 : Reg)
  /-- `FABS` (R413). FP32 absolute value. -/
  | fabs (c : CoreId) (rd : Reg) (rs1 : Reg)
  /-- `FMADD` (R413). Fused multiply-add. -/
  | fmadd (c : CoreId) (rd : Reg) (rs1 : Reg) (rs2 : Reg) (rs3 : Reg)
  /-- `FMSUB` (R413). Fused multiply-subtract. -/
  | fmsub (c : CoreId) (rd : Reg) (rs1 : Reg) (rs2 : Reg) (rs3 : Reg)
  /-- `FNMADD` (R413). Negated fused multiply-add. -/
  | fnmadd (c : CoreId) (rd : Reg) (rs1 : Reg) (rs2 : Reg) (rs3 : Reg)
  /-- `CSR` (R436). Reads and changes a system register. -/
  | csr (c : CoreId) (rd : Reg) (rs1 : Reg) (kind : Fin 4) (num : BitVec 12)
  /-- `FENCE` (R435). Orders memory accesses and refetches. -/
  | fence (c : CoreId)
  /-- `RETI` (R484). Returns from an interrupt level, with replay of an abandoned long operation. -/
  | reti (c : CoreId)
  /-- `WFE` (R466). Waits for an interrupt or a core event bit. -/
  | wfe (c : CoreId)
  /-- `ICINV` (R447). Invalidates an instruction-cache line and refetches. -/
  | icinv (c : CoreId) (cs : CapIx) (rs : Reg)
  /-- `BPFLUSH` (R435). Clears the branch predictor. -/
  | bpflush (c : CoreId)
  /-- `ECALL` (R435). Raises the service-call fault. -/
  | ecall (c : CoreId)
  /-- `BREAK` (R435). Raises the breakpoint fault. -/
  | breakpoint (c : CoreId)
  /-- `BEQ` (R424). Branch if equal, with a delay slot. -/
  | beq (c : CoreId) (rs1 : Reg) (rs2 : Reg) (an : Bool) (disp : BitVec 14)
  /-- `BNE` (R424). Branch if not equal. -/
  | bne (c : CoreId) (rs1 : Reg) (rs2 : Reg) (an : Bool) (disp : BitVec 14)
  /-- `BLT` (R424). Branch if less, signed. -/
  | blt (c : CoreId) (rs1 : Reg) (rs2 : Reg) (an : Bool) (disp : BitVec 14)
  /-- `BGE` (R424). Branch if greater or equal, signed. -/
  | bge (c : CoreId) (rs1 : Reg) (rs2 : Reg) (an : Bool) (disp : BitVec 14)
  /-- `BLTU` (R424). Branch if less, unsigned. -/
  | bltu (c : CoreId) (rs1 : Reg) (rs2 : Reg) (an : Bool) (disp : BitVec 14)
  /-- `BGEU` (R424). Branch if greater or equal, unsigned. -/
  | bgeu (c : CoreId) (rs1 : Reg) (rs2 : Reg) (an : Bool) (disp : BitVec 14)
  /-- `JMP` (R424). Relative jump. -/
  | jmp (c : CoreId) (disp : BitVec 25)
  /-- `CALL` (R426). Relative call that links g28 and pushes the shadow stack. -/
  | call (c : CoreId) (disp : BitVec 25)
  /-- `JUMPR` (R424). Register jump. -/
  | jumpr (c : CoreId) (rs1 : Reg) (imm : BitVec 15)
  /-- `CALLR` (R426). Register call. -/
  | callr (c : CoreId) (rs1 : Reg) (imm : BitVec 15)
  /-- `RET` (R486). Return checked against the shadow stack. -/
  | ret (c : CoreId)
  /-- `JC` (R427). Capability jump that installs a new c0. -/
  | jc (c : CoreId) (cs : CapIx) (rs : Reg)
  /-- `CALLC` (R426). Capability call that saves c0 to c6. -/
  | callc (c : CoreId) (cs : CapIx) (rs : Reg)
  /-- `RETC` (R486). Capability return checked against the shadow stack. -/
  | retc (c : CoreId)
  /-- `BRPT` (R432). Runs the following string instruction as an interruptible hardware loop. -/
  | brpt (c : CoreId) (follow : Word)
  /-- `REGISTER_WRITE` (R13). A write to a register without a row of its own acts as its fields' access codes state. -/
  | registerWrite (ag : Agent) (adr : BitVec 40) (val : Word)
  /-- `LINK_DOWN` (R307). A port's link goes down, its up bit and recovered clock are lost, and it may cause an upstream switch or end CLOSED. -/
  | linkDown (port : PortId)
  /-- `STOPS_HEARING_GRANDMASTER` (R307). Three Sync intervals pass on a port without a Sync from the grandmaster and the port stops hearing it. -/
  | stopsHearingGrandmaster (port : PortId)
  /-- `PREEMPTION_VERIFIED` (R40). The 802.3br verify procedure completes on a port, PAPRE or PBPRE is set and express frames are sent as such. -/
  | preemptionVerified (port : PortId)
  /-- `STORE_FULL` (R531). VSTORE reaches VMAX, harvesting and charging stop, HRV_STAT.FULL is set and a cell purse is set to its maximum. -/
  | storeFull
  /-- `SCRAMBLE_DRAW_COMPLETE` (R457). The draw of the sixteen predictor scrambles from the TRNG completes and prediction resumes. -/
  | scrambleDrawComplete (c : CoreId)
  /-- `JTAG_ACCESS` (R390). A JTAG scan through TCK, TMS and TDI accesses the device as the life-cycle state and SEC_DBG.OPEN permit. -/
  | jtagAccess (jop : JtagOp)
  /-- `RAIL_IN_RANGE` (R609). A domain rail returns into its recommended range and a domain with a vote held may leave H5. -/
  | railInRange (d : Dom)
  deriving DecidableEq, Repr

end Sys2Proof
end

