-- ==== Sys2Proof/Config.lean ====
section
/-!
DEFINITION. Config.lean: what one part is wired or fused with, and the values the spec leaves open, as
constants without a body. A claim about the model holds for every value they may have.
-/
namespace Sys2Proof

/-- `WIN_REV.CLASS`, the compatibility class wired into the silicon (R3, R70). -/
opaque Config.revClass : Byte

/-- `WIN_REV.STEP`, the silicon step (R70). -/
opaque Config.revStep : Byte

/-- `CPM_AVS.MV` and VALID, fused at test (20, R628). -/
opaque Config.avsMv : BitVec 10
opaque Config.avsValid : Bool

/-- The code of the JTAG IDCODE register (R390; the spec gives no value). -/
opaque Config.idcode : Word

/-- The maker session key that SEC holds (R57, R388). -/
opaque Config.makerSessionKey : BitVec 128

/-- The private device identity key (R388). -/
opaque Config.identityKey : BitVec 256

/-- The maker return key, public, x and y (R388, R392). -/
opaque Config.makerReturnKey : BitVec 512

/-- The maker image key, public, x and y (R388). -/
opaque Config.makerImageKey : BitVec 512

/-- The destination MAC address of device frames and of PTP messages the device originates (the spec
gives none). -/
opaque Config.deviceDst : BitVec 48

/-- The energy in µJ that the ledger engine asks a grant for before a slot, and before a seal (R372; the
spec gives no amounts). -/
opaque Config.slotEnergy : Nat
opaque Config.sealEnergy : Nat

/-- The contents of the boot ROM (the spec gives none). -/
opaque Config.bootRom : Nat → Byte

/-- The level of the management cores' Granary line by the state of the Granary (R474; the spec names no
condition that the block holds). -/
opaque Config.grnLine : Nat → Bool

/-- Whether a fused operation on an infinity, a zero and a quiet NaN sets NV (IEEE 754 leaves it open), by
its operands. -/
opaque Config.fmaInvalid : Word → Word → Word → Bool

/-- Draw number n of a session tag (R57). -/
opaque Config.sessionTag : Nat → Word

/-- Draw number n of a 16-byte device nonce (R57). -/
opaque Config.nonce : Nat → BitVec 128

/-- Draw number n of one predictor scramble from the TRNG (R457). -/
opaque Config.scramble : Nat → BitVec 64

/-- The CMAC of an authenticated frame of a session that this device does not hold, by header and parameters:
the key is another device's. -/
opaque Config.foreignCmac : List Byte → BitVec 128

/-- Use number n of a number whose value the spec leaves open. -/
opaque Config.freeNat : Nat → Nat

/-- The phase of BRC to the loop clock, by the cycle in which BRC became ready (R278; the spec gives none). -/
opaque Config.brcPhase : Nat → Nat

/-- The length of a refresh window of the SDRAM in lc (R342; the spec gives none). -/
opaque Config.refreshWindow : Nat

/-- The choice of `PARK` and `IPARK` within the 2^-26 of R210: a fixed function of the micro-op's
output (0 or 1), whether it is `IPARK`, and the operands A, B and the angle C. -/
opaque Config.cordic : Nat → Bool → Word → Word → Word → Nat

end Sys2Proof
end

