-- ==== Sys2Proof/Machine/Arith.lean ====
section
/-!
DEFINITION. Machine/Arith.lean: the exact integer arithmetic behind the datapaths: saturation, rounding
to nearest with ties upwards (R101, R209), circular functions in fixed point, square roots.
-/
namespace Sys2Proof.Machine

/-- Limit `x` to `lo` to `hi`. -/
def clampInt (lo hi x : Int) : Int := if x < lo then lo else if hi < x then hi else x

/-- Limit a count to `lo` to `hi`. -/
def clampNat (lo hi x : Nat) : Nat := if x < lo then lo else if hi < x then hi else x

/-- Quotient rounded to nearest, ties towards +∞ (R101, R209); `d` is positive. -/
def roundDiv (n d : Int) : Int := (2 * n + d) / (2 * d)

/-- The smallest and largest value of a signed field of `w` bits. -/
def sMin (w : Nat) : Int := -((2 : Int) ^ (w - 1))
def sMax (w : Nat) : Int := (2 : Int) ^ (w - 1) - 1

/-- Saturate to a signed field of `w` bits. -/
def satInt (w : Nat) (x : Int) : Int := clampInt (sMin w) (sMax w) x

/-- Saturation happened. -/
def satHit (w : Nat) (x : Int) : Bool := decide (x < sMin w) || decide (sMax w < x)

/-- Bits of a signed number in `w` bits, modulo 2^w. -/
def bitsOf (w : Nat) (x : Int) : BitVec w := BitVec.ofInt w x

/-- `wrap32`: the signed value of a difference modulo 2^32 (R101). -/
def wrap32 (x : Int) : Int := (BitVec.ofInt 32 x).toInt

/-- Signed value of the low `w` bits of `x`. -/
def signed (w x : Nat) : Int := (BitVec.ofNat w x).toInt

/-- π scaled by 2^64, rounded. -/
def piFix : Int := 57952155664616982739

/-- √3 scaled by 2^64, rounded. -/
def sqrt3Fix : Int := 31950697969885030203

/-- Tail of the series of sine or cosine: `t` is the term just added, `k` the next divisor's first
factor, `x2` the square of the argument, all scaled by 2^64. -/
def sinSeries : Nat → Int → Int → Int → Int → Int
  | 0, _, acc, _, _ => acc
  | f + 1, t, acc, k, x2 =>
    let t' := -((t * x2 / 2 ^ 64) / (k * (k + 1)))
    sinSeries f t' (acc + t') (k + 2) x2

/-- Sine of `x` (scaled by 2^64, from 0 to π/2), scaled by 2^64. -/
def sinFix (x : Int) : Int := sinSeries 20 x x 2 (x * x / 2 ^ 64)

/-- Cosine of `x` (scaled by 2^64, from 0 to π/2), scaled by 2^64. -/
def cosFix (x : Int) : Int := sinSeries 20 (2 ^ 64) (2 ^ 64) 1 (x * x / 2 ^ 64)

/-- Sine and cosine, scaled by 2^64, of `h` half-au from 0 to 2^31 (a quarter turn). -/
def sinCosQuarter (h : Nat) : Int × Int :=
  let x := (h : Int) * piFix / 2 ^ 32
  (sinFix x, cosFix x)

/-- Sine and cosine, scaled by 2^64, of an angle in au (2^32 au is one turn). -/
def sinCosAu (a : Nat) : Int × Int :=
  let q := a / 2 ^ 30 % 4
  let (s, c) := sinCosQuarter (2 * (a % 2 ^ 30))
  if q = 0 then (s, c) else if q = 1 then (c, -s) else if q = 2 then (-s, -c) else (-c, s)

/-- Bisection for the angle of (`c`, `s`), both at or above 0, in half-au: bits from `b` down. -/
def atanBits : Nat → Nat → Int → Int → Nat
  | 0, h, _, _ => h
  | b + 1, h, s, c =>
    let h' := h + 2 ^ b
    let (sn, cs) := sinCosQuarter h'
    atanBits b (if sn * c ≤ cs * s then h' else h) s c

/-- The angle of a first-quadrant vector in au, rounded to the nearest au. -/
def atanQuarter (s c : Int) : Nat :=
  if s ≤ 0 then 0 else if c ≤ 0 then 2 ^ 30 else (atanBits 31 0 s c + 1) / 2

/-- atan2(s, c) in au (R109), to the nearest au. -/
def atan2Au (s c : Int) : Nat :=
  (if 0 ≤ s ∧ 0 < c then atanQuarter s c
   else if 0 < s ∧ c ≤ 0 then 2 ^ 30 + atanQuarter (-c) s
   else if s ≤ 0 ∧ c < 0 then 2 ^ 31 + atanQuarter (-s) (-c)
   else if s < 0 then 3 * 2 ^ 30 + atanQuarter c (-s)
   else 0) % 2 ^ 32

/-- Integer square root by bits: the largest r below 2^b with r² ≤ n, starting from `r`. -/
def isqrtBits : Nat → Nat → Nat → Nat
  | 0, r, _ => r
  | b + 1, r, n => isqrtBits b (if (r + 2 ^ b) * (r + 2 ^ b) ≤ n then r + 2 ^ b else r) n

/-- ⌊√n⌋ for n below 2^128. -/
def isqrt (n : Nat) : Nat := isqrtBits 64 0 n

/-- √n rounded to nearest, for n below 2^128. -/
def roundSqrt (n : Nat) : Nat :=
  let r := isqrt n
  if n - r * r > r then r + 1 else r

/-- Insert into a list ordered by `lt`, after the elements that `a` does not precede. -/
def insertBy {α : Type} (lt : α → α → Bool) (a : α) : List α → List α
  | [] => [a]
  | b :: l => if lt a b then a :: b :: l else b :: insertBy lt a l

/-- Order a list by `lt`, keeping the order of equal elements. -/
def sortBy {α : Type} (lt : α → α → Bool) : List α → List α
  | [] => []
  | a :: l => insertBy (fun x y => !lt y x) a (sortBy lt l)

/-- The numbers of the bits set in `m`, below `w`. -/
def bitsSet (w m : Nat) : List Nat := (List.range w).filter (fun i => m.testBit i)

/-- Set or clear bit `i` of `m`. -/
def setBit (m i : Nat) (b : Bool) : Nat :=
  if m.testBit i then (if b then m else m - 2 ^ i) else (if b then m + 2 ^ i else m)

/-- Bytes of `x`, `n` of them, most significant first (R11, frames). -/
def beBytes : Nat → Nat → List Byte
  | 0, _ => []
  | n + 1, x => BitVec.ofNat 8 (x / 2 ^ (8 * n)) :: beBytes n x

/-- The number that bytes spell, most significant first (R11, frames). -/
def ofBeBytes (l : List Byte) : Nat := l.foldl (fun a b => a * 256 + b.toNat) 0

/-- The number that bytes spell, least significant first (R11, memory). -/
def ofLeBytes : List Byte → Nat
  | [] => 0
  | b :: l => b.toNat + 256 * ofLeBytes l

/-- Bytes of `x`, `n` of them, least significant first (R11, memory). -/
def leBytes : Nat → Nat → List Byte
  | 0, _ => []
  | n + 1, x => BitVec.ofNat 8 x :: leBytes n (x / 256)

end Sys2Proof.Machine
end

