-- ==== Sys2Proof/Machine/Regs.lean ====
section
/-!
DEFINITION. Machine/Regs.lean: the register map of the device, from the field tables of spec/ (the
files named beside each register): the address of every register, its fields with access code (R13)
and reset value, and a named accessor for each field. Reserved bits have no field (R12).
-/
namespace Sys2Proof.Machine

/-- The access codes of R13. -/
inductive Access
  | rw | ro | w1c | w1s | wo | st | cd | lk
  deriving DecidableEq, Repr

/-- One field of a register word: bits [msb:lsb], access code, reset value. -/
structure FieldSpec where
  msb : Nat
  lsb : Nat
  acc : Access
  reset : Nat
  deriving DecidableEq, Repr

/-- A register, repeated `n1` times at stride `s1` and inside that `n2` times at stride `s2` (R24). -/
structure RegRow where
  name : String
  base : Nat
  n1 : Nat
  s1 : Nat
  n2 : Nat
  s2 : Nat
  fields : List FieldSpec
  deriving DecidableEq, Repr

/-- A named field: the register's address and the bits [msb:lsb]. -/
structure Fld where
  adr : Nat
  msb : Nat
  lsb : Nat
  deriving DecidableEq, Repr

/-- Address of `ETH_ETYPE` (spec/02_host_link_and_commands.md). -/
def ETH_ETYPE.adr : Nat := 0x30900000
def ETH_ETYPE.VALUE : Fld := ⟨ETH_ETYPE.adr, 15, 0⟩
/-- Address of `ETH_GROUP` (spec/02_host_link_and_commands.md). -/
def ETH_GROUP.adr : Nat := 0x30900004
def ETH_GROUP.MEMBER : Fld := ⟨ETH_GROUP.adr, 15, 0⟩
/-- Address of `ETH_PORT_CTRL` (spec/02_host_link_and_commands.md). -/
def ETH_PORT_CTRL.adr (n : Nat) : Nat := 0x30900100 + 0x100 * n
def ETH_PORT_CTRL.MEDIUM (n : Nat) : Fld := ⟨ETH_PORT_CTRL.adr n, 3, 2⟩
def ETH_PORT_CTRL.AN (n : Nat) : Fld := ⟨ETH_PORT_CTRL.adr n, 1, 1⟩
def ETH_PORT_CTRL.PREEMPT (n : Nat) : Fld := ⟨ETH_PORT_CTRL.adr n, 0, 0⟩
/-- Address of `TRK_ANG` (spec/03_position_tracks.md). -/
def TRK_ANG.adr (n : Nat) : Nat := 0x30000000 + 0x100 * n
def TRK_ANG.ANG (n : Nat) : Fld := ⟨TRK_ANG.adr n, 31, 0⟩
/-- Address of `TRK_TURN` (spec/03_position_tracks.md). -/
def TRK_TURN.adr (n : Nat) : Nat := 0x30000004 + 0x100 * n
def TRK_TURN.TURN (n : Nat) : Fld := ⟨TRK_TURN.adr n, 15, 0⟩
/-- Address of `TRK_VEL_LO` (spec/03_position_tracks.md). -/
def TRK_VEL_LO.adr (n : Nat) : Nat := 0x30000008 + 0x100 * n
def TRK_VEL_LO.VELLO (n : Nat) : Fld := ⟨TRK_VEL_LO.adr n, 31, 0⟩
/-- Address of `TRK_VEL_HI` (spec/03_position_tracks.md). -/
def TRK_VEL_HI.adr (n : Nat) : Nat := 0x3000000c + 0x100 * n
def TRK_VEL_HI.VELHI (n : Nat) : Fld := ⟨TRK_VEL_HI.adr n, 15, 0⟩
/-- Address of `TRK_ACC` (spec/03_position_tracks.md). -/
def TRK_ACC.adr (n : Nat) : Nat := 0x30000010 + 0x100 * n
def TRK_ACC.ACC (n : Nat) : Fld := ⟨TRK_ACC.adr n, 31, 0⟩
/-- Address of `TRK_STAT` (spec/03_position_tracks.md). -/
def TRK_STAT.adr (n : Nat) : Nat := 0x30000014 + 0x100 * n
def TRK_STAT.LOCK (n : Nat) : Fld := ⟨TRK_STAT.adr n, 4, 4⟩
def TRK_STAT.LOST (n : Nat) : Fld := ⟨TRK_STAT.adr n, 3, 3⟩
def TRK_STAT.COAST (n : Nat) : Fld := ⟨TRK_STAT.adr n, 2, 2⟩
def TRK_STAT.DIR (n : Nat) : Fld := ⟨TRK_STAT.adr n, 1, 1⟩
def TRK_STAT.VALID (n : Nat) : Fld := ⟨TRK_STAT.adr n, 0, 0⟩
/-- Address of `TRK_FLAGS` (spec/03_position_tracks.md). -/
def TRK_FLAGS.adr (n : Nat) : Nat := 0x30000018 + 0x100 * n
def TRK_FLAGS.SAT (n : Nat) : Fld := ⟨TRK_FLAGS.adr n, 9, 9⟩
def TRK_FLAGS.OBSCOL (n : Nat) : Fld := ⟨TRK_FLAGS.adr n, 8, 8⟩
def TRK_FLAGS.SSIOVR (n : Nat) : Fld := ⟨TRK_FLAGS.adr n, 7, 7⟩
def TRK_FLAGS.RSKEW (n : Nat) : Fld := ⟨TRK_FLAGS.adr n, 6, 6⟩
def TRK_FLAGS.IDXERR (n : Nat) : Fld := ⟨TRK_FLAGS.adr n, 5, 5⟩
def TRK_FLAGS.IDX (n : Nat) : Fld := ⟨TRK_FLAGS.adr n, 4, 4⟩
def TRK_FLAGS.SRCF (n : Nat) : Fld := ⟨TRK_FLAGS.adr n, 3, 3⟩
def TRK_FLAGS.LOST (n : Nat) : Fld := ⟨TRK_FLAGS.adr n, 2, 2⟩
/-- Address of `TRK_CTRL` (spec/03_position_tracks.md). -/
def TRK_CTRL.adr (n : Nat) : Nat := 0x30000020 + 0x100 * n
def TRK_CTRL.MULT (n : Nat) : Fld := ⟨TRK_CTRL.adr n, 30, 24⟩
def TRK_CTRL.IFACE (n : Nat) : Fld := ⟨TRK_CTRL.adr n, 10, 8⟩
def TRK_CTRL.TYPE (n : Nat) : Fld := ⟨TRK_CTRL.adr n, 3, 1⟩
def TRK_CTRL.EN (n : Nat) : Fld := ⟨TRK_CTRL.adr n, 0, 0⟩
/-- Address of `TRK_FILT` (spec/03_position_tracks.md). -/
def TRK_FILT.adr (n : Nat) : Nat := 0x30000024 + 0x100 * n
def TRK_FILT.COAST (n : Nat) : Fld := ⟨TRK_FILT.adr n, 27, 18⟩
def TRK_FILT.BW (n : Nat) : Fld := ⟨TRK_FILT.adr n, 17, 0⟩
/-- Address of `TRK_HYST` (spec/03_position_tracks.md). -/
def TRK_HYST.adr (n : Nat) : Nat := 0x30000028 + 0x100 * n
def TRK_HYST.BAND (n : Nat) : Fld := ⟨TRK_HYST.adr n, 20, 0⟩
/-- Address of `TRK_OFFS` (spec/03_position_tracks.md). -/
def TRK_OFFS.adr (n : Nat) : Nat := 0x3000002c + 0x100 * n
def TRK_OFFS.VALUE (n : Nat) : Fld := ⟨TRK_OFFS.adr n, 31, 0⟩
/-- Address of `TRK_SRCA` (spec/03_position_tracks.md). -/
def TRK_SRCA.adr (n : Nat) : Nat := 0x30000030 + 0x100 * n
def TRK_SRCA.PEAKS (n : Nat) : Fld := ⟨TRK_SRCA.adr n, 20, 20⟩
def TRK_SRCA.EXC (n : Nat) : Fld := ⟨TRK_SRCA.adr n, 18, 16⟩
def TRK_SRCA.COSCH (n : Nat) : Fld := ⟨TRK_SRCA.adr n, 15, 13⟩
def TRK_SRCA.COSCV (n : Nat) : Fld := ⟨TRK_SRCA.adr n, 12, 8⟩
def TRK_SRCA.SINCH (n : Nat) : Fld := ⟨TRK_SRCA.adr n, 7, 5⟩
def TRK_SRCA.SINCV (n : Nat) : Fld := ⟨TRK_SRCA.adr n, 4, 0⟩
def TRK_SRCA.ZHOME (n : Nat) : Fld := ⟨TRK_SRCA.adr n, 25, 25⟩
def TRK_SRCA.ZEN (n : Nat) : Fld := ⟨TRK_SRCA.adr n, 24, 24⟩
def TRK_SRCA.CPT (n : Nat) : Fld := ⟨TRK_SRCA.adr n, 23, 0⟩
def TRK_SRCA.CLKPER (n : Nat) : Fld := ⟨TRK_SRCA.adr n, 27, 16⟩
def TRK_SRCA.GRAY (n : Nat) : Fld := ⟨TRK_SRCA.adr n, 5, 5⟩
def TRK_SRCA.BITS (n : Nat) : Fld := ⟨TRK_SRCA.adr n, 4, 0⟩
def TRK_SRCA.CHC (n : Nat) : Fld := ⟨TRK_SRCA.adr n, 23, 21⟩
def TRK_SRCA.CVC (n : Nat) : Fld := ⟨TRK_SRCA.adr n, 20, 16⟩
def TRK_SRCA.CHB (n : Nat) : Fld := ⟨TRK_SRCA.adr n, 15, 13⟩
def TRK_SRCA.CVB (n : Nat) : Fld := ⟨TRK_SRCA.adr n, 12, 8⟩
def TRK_SRCA.CHA (n : Nat) : Fld := ⟨TRK_SRCA.adr n, 7, 5⟩
def TRK_SRCA.CVA (n : Nat) : Fld := ⟨TRK_SRCA.adr n, 4, 0⟩
def TRK_SRCA.SLV (n : Nat) : Fld := ⟨TRK_SRCA.adr n, 4, 4⟩
def TRK_SRCA.SLN (n : Nat) : Fld := ⟨TRK_SRCA.adr n, 3, 0⟩
def TRK_SRCA.RTRK (n : Nat) : Fld := ⟨TRK_SRCA.adr n, 11, 8⟩
def TRK_SRCA.RDEV (n : Nat) : Fld := ⟨TRK_SRCA.adr n, 5, 0⟩
/-- Address of `TRK_SRCB` (spec/03_position_tracks.md). -/
def TRK_SRCB.adr (n : Nat) : Nat := 0x30000034 + 0x100 * n
def TRK_SRCB.AMPMAX (n : Nat) : Fld := ⟨TRK_SRCB.adr n, 31, 16⟩
def TRK_SRCB.AMPMIN (n : Nat) : Fld := ⟨TRK_SRCB.adr n, 15, 0⟩
def TRK_SRCB.IDXTOL (n : Nat) : Fld := ⟨TRK_SRCB.adr n, 31, 16⟩
def TRK_SRCB.GLITCH (n : Nat) : Fld := ⟨TRK_SRCB.adr n, 7, 0⟩
def TRK_SRCB.JUMP (n : Nat) : Fld := ⟨TRK_SRCB.adr n, 28, 24⟩
def TRK_SRCB.TM (n : Nat) : Fld := ⟨TRK_SRCB.adr n, 23, 16⟩
def TRK_SRCB.POLL (n : Nat) : Fld := ⟨TRK_SRCB.adr n, 15, 0⟩
def TRK_SRCB.AMPMINM (n : Nat) : Fld := ⟨TRK_SRCB.adr n, 31, 16⟩
def TRK_SRCB.LOCKTH (n : Nat) : Fld := ⟨TRK_SRCB.adr n, 15, 0⟩
/-- Address of `TRK_CLKINC_LO` (spec/03_position_tracks.md). -/
def TRK_CLKINC_LO.adr (n : Nat) : Nat := 0x30000038 + 0x100 * n
def TRK_CLKINC_LO.INCLO (n : Nat) : Fld := ⟨TRK_CLKINC_LO.adr n, 31, 0⟩
/-- Address of `TRK_CLKINC_HI` (spec/03_position_tracks.md). -/
def TRK_CLKINC_HI.adr (n : Nat) : Nat := 0x3000003c + 0x100 * n
def TRK_CLKINC_HI.INCHI (n : Nat) : Fld := ⟨TRK_CLKINC_HI.adr n, 15, 0⟩
/-- Address of `TRK_OBS_VEL_LO` (spec/03_position_tracks.md). -/
def TRK_OBS_VEL_LO.adr (n : Nat) : Nat := 0x30000040 + 0x100 * n
def TRK_OBS_VEL_LO.VLO (n : Nat) : Fld := ⟨TRK_OBS_VEL_LO.adr n, 31, 0⟩
/-- Address of `TRK_OBS_VEL_HI` (spec/03_position_tracks.md). -/
def TRK_OBS_VEL_HI.adr (n : Nat) : Nat := 0x30000044 + 0x100 * n
def TRK_OBS_VEL_HI.VHI (n : Nat) : Fld := ⟨TRK_OBS_VEL_HI.adr n, 15, 0⟩
/-- Address of `TRK_OBS_ACC` (spec/03_position_tracks.md). -/
def TRK_OBS_ACC.adr (n : Nat) : Nat := 0x30000048 + 0x100 * n
def TRK_OBS_ACC.ACC (n : Nat) : Fld := ⟨TRK_OBS_ACC.adr n, 31, 0⟩
/-- Address of `TRK_OBS_ANG` (spec/03_position_tracks.md). -/
def TRK_OBS_ANG.adr (n : Nat) : Nat := 0x3000004c + 0x100 * n
def TRK_OBS_ANG.ANG (n : Nat) : Fld := ⟨TRK_OBS_ANG.adr n, 31, 0⟩
/-- Address of `TRK_IDXCAP` (spec/03_position_tracks.md). -/
def TRK_IDXCAP.adr (n : Nat) : Nat := 0x30000050 + 0x100 * n
def TRK_IDXCAP.ANG (n : Nat) : Fld := ⟨TRK_IDXCAP.adr n, 31, 0⟩
/-- Address of `EXC_CTRL` (spec/03_position_tracks.md). -/
def EXC_CTRL.adr (n : Nat) : Nat := 0x30001000 + 0x10 * n
def EXC_CTRL.PHASE (n : Nat) : Fld := ⟨EXC_CTRL.adr n, 27, 16⟩
def EXC_CTRL.AMP (n : Nat) : Fld := ⟨EXC_CTRL.adr n, 15, 8⟩
def EXC_CTRL.TRACK (n : Nat) : Fld := ⟨EXC_CTRL.adr n, 7, 4⟩
def EXC_CTRL.RANGE (n : Nat) : Fld := ⟨EXC_CTRL.adr n, 1, 1⟩
def EXC_CTRL.EN (n : Nat) : Fld := ⟨EXC_CTRL.adr n, 0, 0⟩
/-- Address of `ALM_IDX` (spec/04_almanac.md). -/
def ALM_IDX.adr : Nat := 0x30100000
def ALM_IDX.AUTO : Fld := ⟨ALM_IDX.adr, 16, 16⟩
def ALM_IDX.IDX : Fld := ⟨ALM_IDX.adr, 9, 0⟩
/-- Address of `ALM_W` (spec/04_almanac.md). -/
def ALM_W.adr (n : Nat) : Nat := 0x30100004 + 0x4 * n
def ALM_W.WORD (n : Nat) : Fld := ⟨ALM_W.adr n, 31, 0⟩
/-- Address of `ALM_ARM` (spec/04_almanac.md). -/
def ALM_ARM.adr : Nat := 0x30100014
def ALM_ARM.SET : Fld := ⟨ALM_ARM.adr, 31, 31⟩
def ALM_ARM.IDX : Fld := ⟨ALM_ARM.adr, 9, 0⟩
/-- Address of `ALM_STAT` (spec/04_almanac.md). -/
def ALM_STAT.adr : Nat := 0x30100018
def ALM_STAT.QFULL : Fld := ⟨ALM_STAT.adr, 2, 2⟩
def ALM_STAT.SHORT : Fld := ⟨ALM_STAT.adr, 1, 1⟩
def ALM_STAT.LATE : Fld := ⟨ALM_STAT.adr, 0, 0⟩
/-- Address of `ALM_LATEIDX` (spec/04_almanac.md). -/
def ALM_LATEIDX.adr : Nat := 0x3010001c
def ALM_LATEIDX.SIDX : Fld := ⟨ALM_LATEIDX.adr, 25, 16⟩
def ALM_LATEIDX.LIDX : Fld := ⟨ALM_LATEIDX.adr, 9, 0⟩
/-- Address of `ALM_FIRED` (spec/04_almanac.md). -/
def ALM_FIRED.adr : Nat := 0x30100020
def ALM_FIRED.COUNT : Fld := ⟨ALM_FIRED.adr, 31, 0⟩
/-- Address of `ALM_TRK_CFG` (spec/04_almanac.md). -/
def ALM_TRK_CFG.adr (n : Nat) : Nat := 0x30100100 + 0x4 * n
def ALM_TRK_CFG.COASTFIRE (n : Nat) : Fld := ⟨ALM_TRK_CFG.adr n, 1, 1⟩
def ALM_TRK_CFG.HOLD (n : Nat) : Fld := ⟨ALM_TRK_CFG.adr n, 0, 0⟩
/-- Address of `ALM_TRK_NEXT` (spec/04_almanac.md). -/
def ALM_TRK_NEXT.adr (n : Nat) : Nat := 0x30100200 + 0x4 * n
def ALM_TRK_NEXT.FV (n : Nat) : Fld := ⟨ALM_TRK_NEXT.adr n, 31, 31⟩
def ALM_TRK_NEXT.FIDX (n : Nat) : Fld := ⟨ALM_TRK_NEXT.adr n, 25, 16⟩
def ALM_TRK_NEXT.RV (n : Nat) : Fld := ⟨ALM_TRK_NEXT.adr n, 15, 15⟩
def ALM_TRK_NEXT.QNE (n : Nat) : Fld := ⟨ALM_TRK_NEXT.adr n, 10, 10⟩
def ALM_TRK_NEXT.RIDX (n : Nat) : Fld := ⟨ALM_TRK_NEXT.adr n, 9, 0⟩
/-- Address of `CV_DATA` (spec/05_converters_and_comparators.md). -/
def CV_DATA.adr (n : Nat) : Nat := 0x30200000 + 0x100 * n
def CV_DATA.OVR (n : Nat) : Fld := ⟨CV_DATA.adr n, 31, 31⟩
def CV_DATA.AVG (n : Nat) : Fld := ⟨CV_DATA.adr n, 30, 30⟩
def CV_DATA.TAIL (n : Nat) : Fld := ⟨CV_DATA.adr n, 29, 29⟩
def CV_DATA.NEW (n : Nat) : Fld := ⟨CV_DATA.adr n, 28, 28⟩
def CV_DATA.TAG (n : Nat) : Fld := ⟨CV_DATA.adr n, 18, 16⟩
def CV_DATA.RESULT (n : Nat) : Fld := ⟨CV_DATA.adr n, 15, 0⟩
/-- Address of `CV_SEL` (spec/05_converters_and_comparators.md). -/
def CV_SEL.adr (n : Nat) : Nat := 0x30200004 + 0x100 * n
def CV_SEL.CH (n : Nat) : Fld := ⟨CV_SEL.adr n, 2, 0⟩
/-- Address of `CV_CFG` (spec/05_converters_and_comparators.md). -/
def CV_CFG.adr (n : Nat) : Nat := 0x30200008 + 0x100 * n
def CV_CFG.BURST (n : Nat) : Fld := ⟨CV_CFG.adr n, 18, 16⟩
def CV_CFG.GAIN (n : Nat) : Fld := ⟨CV_CFG.adr n, 5, 4⟩
def CV_CFG.MODE (n : Nat) : Fld := ⟨CV_CFG.adr n, 1, 1⟩
def CV_CFG.EN (n : Nat) : Fld := ⟨CV_CFG.adr n, 0, 0⟩
/-- Address of `CV_TRIM` (spec/05_converters_and_comparators.md). -/
def CV_TRIM.adr (n : Nat) : Nat := 0x3020000c + 0x100 * n
def CV_TRIM.OFFS (n : Nat) : Fld := ⟨CV_TRIM.adr n, 7, 0⟩
/-- Address of `CV_AVG` (spec/05_converters_and_comparators.md). -/
def CV_AVG.adr (n : Nat) : Nat := 0x30200010 + 0x100 * n
def CV_AVG.SHIFT (n : Nat) : Fld := ⟨CV_AVG.adr n, 7, 4⟩
def CV_AVG.K (n : Nat) : Fld := ⟨CV_AVG.adr n, 3, 0⟩
/-- Address of `CV_SEQ` (spec/05_converters_and_comparators.md). -/
def CV_SEQ.adr (n : Nat) : Nat := 0x30200014 + 0x100 * n
def CV_SEQ.AUTO (n : Nat) : Fld := ⟨CV_SEQ.adr n, 27, 27⟩
def CV_SEQ.LEN (n : Nat) : Fld := ⟨CV_SEQ.adr n, 26, 24⟩
def CV_SEQ.ENTRY (n : Nat) : Fld := ⟨CV_SEQ.adr n, 23, 0⟩
/-- Address of `CV_STAT` (spec/05_converters_and_comparators.md). -/
def CV_STAT.adr (n : Nat) : Nat := 0x30200018 + 0x100 * n
def CV_STAT.POS (n : Nat) : Fld := ⟨CV_STAT.adr n, 18, 16⟩
def CV_STAT.LATE (n : Nat) : Fld := ⟨CV_STAT.adr n, 7, 7⟩
def CV_STAT.SELCOL (n : Nat) : Fld := ⟨CV_STAT.adr n, 6, 6⟩
def CV_STAT.AVGBRK (n : Nat) : Fld := ⟨CV_STAT.adr n, 5, 5⟩
def CV_STAT.TASKOFF (n : Nat) : Fld := ⟨CV_STAT.adr n, 4, 4⟩
def CV_STAT.TASKOVR (n : Nat) : Fld := ⟨CV_STAT.adr n, 3, 3⟩
def CV_STAT.AOVR (n : Nat) : Fld := ⟨CV_STAT.adr n, 2, 2⟩
def CV_STAT.ROVR (n : Nat) : Fld := ⟨CV_STAT.adr n, 1, 1⟩
def CV_STAT.RUN (n : Nat) : Fld := ⟨CV_STAT.adr n, 0, 0⟩
/-- Address of `CVPAIR_CFG` (spec/05_converters_and_comparators.md). -/
def CVPAIR_CFG.adr (n : Nat) : Nat := 0x30202000 + 0x10 * n
def CVPAIR_CFG.CNT (n : Nat) : Fld := ⟨CVPAIR_CFG.adr n, 11, 8⟩
def CVPAIR_CFG.EN (n : Nat) : Fld := ⟨CVPAIR_CFG.adr n, 0, 0⟩
/-- Address of `CVPAIR_WIN` (spec/05_converters_and_comparators.md). -/
def CVPAIR_WIN.adr (n : Nat) : Nat := 0x30202004 + 0x10 * n
def CVPAIR_WIN.WIN (n : Nat) : Fld := ⟨CVPAIR_WIN.adr n, 11, 0⟩
/-- Address of `CVPAIR_STAT` (spec/05_converters_and_comparators.md). -/
def CVPAIR_STAT.adr (n : Nat) : Nat := 0x30202008 + 0x10 * n
def CVPAIR_STAT.FAULT (n : Nat) : Fld := ⟨CVPAIR_STAT.adr n, 31, 31⟩
def CVPAIR_STAT.GAINMM (n : Nat) : Fld := ⟨CVPAIR_STAT.adr n, 30, 30⟩
def CVPAIR_STAT.RUN (n : Nat) : Fld := ⟨CVPAIR_STAT.adr n, 19, 16⟩
def CVPAIR_STAT.DIFF (n : Nat) : Fld := ⟨CVPAIR_STAT.adr n, 15, 0⟩
/-- Address of `CVPAIR_CNT` (spec/05_converters_and_comparators.md). -/
def CVPAIR_CNT.adr (n : Nat) : Nat := 0x3020200c + 0x10 * n
def CVPAIR_CNT.COUNT (n : Nat) : Fld := ⟨CVPAIR_CNT.adr n, 31, 0⟩
/-- Address of `CMP_CFG` (spec/05_converters_and_comparators.md). -/
def CMP_CFG.adr (n : Nat) : Nat := 0x30203000 + 0x10 * n
def CMP_CFG.HYST (n : Nat) : Fld := ⟨CMP_CFG.adr n, 14, 12⟩
def CMP_CFG.FILT (n : Nat) : Fld := ⟨CMP_CFG.adr n, 11, 8⟩
def CMP_CFG.TRIPSEL (n : Nat) : Fld := ⟨CMP_CFG.adr n, 5, 4⟩
def CMP_CFG.INSEL (n : Nat) : Fld := ⟨CMP_CFG.adr n, 1, 1⟩
def CMP_CFG.EN (n : Nat) : Fld := ⟨CMP_CFG.adr n, 0, 0⟩
/-- Address of `CMP_THR` (spec/05_converters_and_comparators.md). -/
def CMP_THR.adr (n : Nat) : Nat := 0x30203004 + 0x10 * n
def CMP_THR.HI (n : Nat) : Fld := ⟨CMP_THR.adr n, 25, 16⟩
def CMP_THR.LO (n : Nat) : Fld := ⟨CMP_THR.adr n, 9, 0⟩
/-- Address of `CMP_STAT` (spec/05_converters_and_comparators.md). -/
def CMP_STAT.adr (n : Nat) : Nat := 0x30203008 + 0x10 * n
def CMP_STAT.BLANK (n : Nat) : Fld := ⟨CMP_STAT.adr n, 4, 4⟩
def CMP_STAT.BELOWSEEN (n : Nat) : Fld := ⟨CMP_STAT.adr n, 3, 3⟩
def CMP_STAT.ABOVESEEN (n : Nat) : Fld := ⟨CMP_STAT.adr n, 2, 2⟩
def CMP_STAT.BELOW (n : Nat) : Fld := ⟨CMP_STAT.adr n, 1, 1⟩
def CMP_STAT.ABOVE (n : Nat) : Fld := ⟨CMP_STAT.adr n, 0, 0⟩
/-- Address of `SLC_CTRL` (spec/06_loop_slices.md). -/
def SLC_CTRL.adr (n : Nat) : Nat := 0x30300000 + 0x400 * n
def SLC_CTRL.PROG (n : Nat) : Fld := ⟨SLC_CTRL.adr n, 18, 16⟩
def SLC_CTRL.EN (n : Nat) : Fld := ⟨SLC_CTRL.adr n, 0, 0⟩
/-- Address of `SLC_STAT` (spec/06_loop_slices.md). -/
def SLC_STAT.adr (n : Nat) : Nat := 0x30300004 + 0x400 * n
def SLC_STAT.APROG (n : Nat) : Fld := ⟨SLC_STAT.adr n, 18, 16⟩
def SLC_STAT.TWIN (n : Nat) : Fld := ⟨SLC_STAT.adr n, 15, 15⟩
def SLC_STAT.TRGOVR (n : Nat) : Fld := ⟨SLC_STAT.adr n, 14, 14⟩
def SLC_STAT.SKEW (n : Nat) : Fld := ⟨SLC_STAT.adr n, 13, 13⟩
def SLC_STAT.SAT (n : Nat) : Fld := ⟨SLC_STAT.adr n, 12, 12⟩
def SLC_STAT.LIM (n : Nat) : Fld := ⟨SLC_STAT.adr n, 11, 11⟩
def SLC_STAT.NOCOMMIT (n : Nat) : Fld := ⟨SLC_STAT.adr n, 10, 10⟩
def SLC_STAT.BADOP (n : Nat) : Fld := ⟨SLC_STAT.adr n, 9, 9⟩
def SLC_STAT.REFCOL (n : Nat) : Fld := ⟨SLC_STAT.adr n, 8, 8⟩
def SLC_STAT.PAIRCOL (n : Nat) : Fld := ⟨SLC_STAT.adr n, 7, 7⟩
def SLC_STAT.CDREF (n : Nat) : Fld := ⟨SLC_STAT.adr n, 6, 6⟩
def SLC_STAT.OFFSAFE (n : Nat) : Fld := ⟨SLC_STAT.adr n, 5, 5⟩
def SLC_STAT.RUN (n : Nat) : Fld := ⟨SLC_STAT.adr n, 0, 0⟩
/-- Address of `SLC_TRIG` (spec/06_loop_slices.md). -/
def SLC_TRIG.adr (n : Nat) : Nat := 0x30300008 + 0x400 * n
def SLC_TRIG.MODE (n : Nat) : Fld := ⟨SLC_TRIG.adr n, 1, 0⟩
/-- Address of `SLC_PER` (spec/06_loop_slices.md). -/
def SLC_PER.adr (n : Nat) : Nat := 0x3030000c + 0x400 * n
def SLC_PER.PER (n : Nat) : Fld := ⟨SLC_PER.adr n, 23, 0⟩
/-- Address of `SLC_TRK` (spec/06_loop_slices.md). -/
def SLC_TRK.adr (n : Nat) : Nat := 0x30300020 + 0x400 * n
def SLC_TRK.VSH (n : Nat) : Fld := ⟨SLC_TRK.adr n, 12, 8⟩
def SLC_TRK.TEN (n : Nat) : Fld := ⟨SLC_TRK.adr n, 4, 4⟩
def SLC_TRK.TRACK (n : Nat) : Fld := ⟨SLC_TRK.adr n, 3, 0⟩
/-- Address of `SLC_PAIRS` (spec/06_loop_slices.md). -/
def SLC_PAIRS.adr (n : Nat) : Nat := 0x30300024 + 0x400 * n
def SLC_PAIRS.V3 (n : Nat) : Fld := ⟨SLC_PAIRS.adr n, 31, 31⟩
def SLC_PAIRS.PAIR3 (n : Nat) : Fld := ⟨SLC_PAIRS.adr n, 28, 24⟩
def SLC_PAIRS.V2 (n : Nat) : Fld := ⟨SLC_PAIRS.adr n, 23, 23⟩
def SLC_PAIRS.PAIR2 (n : Nat) : Fld := ⟨SLC_PAIRS.adr n, 20, 16⟩
def SLC_PAIRS.V1 (n : Nat) : Fld := ⟨SLC_PAIRS.adr n, 15, 15⟩
def SLC_PAIRS.PAIR1 (n : Nat) : Fld := ⟨SLC_PAIRS.adr n, 12, 8⟩
def SLC_PAIRS.V0 (n : Nat) : Fld := ⟨SLC_PAIRS.adr n, 7, 7⟩
def SLC_PAIRS.PAIR0 (n : Nat) : Fld := ⟨SLC_PAIRS.adr n, 4, 0⟩
/-- Address of `SLC_CMD` (spec/06_loop_slices.md). -/
def SLC_CMD.adr (n : Nat) : Nat := 0x30300028 + 0x400 * n
def SLC_CMD.INJ (n : Nat) : Fld := ⟨SLC_CMD.adr n, 8, 8⟩
def SLC_CMD.IZERO (n : Nat) : Fld := ⟨SLC_CMD.adr n, 7, 0⟩
/-- Address of `SLC_RUNS` (spec/06_loop_slices.md). -/
def SLC_RUNS.adr (n : Nat) : Nat := 0x3030002c + 0x400 * n
def SLC_RUNS.COUNT (n : Nat) : Fld := ⟨SLC_RUNS.adr n, 31, 0⟩
/-- Address of `SLC_ADV` (spec/06_loop_slices.md). -/
def SLC_ADV.adr (n : Nat) : Nat := 0x30300030 + 0x400 * n
def SLC_ADV.ADV (n : Nat) : Fld := ⟨SLC_ADV.adr n, 31, 0⟩
/-- Address of `SLC_IN` (spec/06_loop_slices.md). -/
def SLC_IN.adr (n : Nat) (k : Nat) : Nat := 0x30300010 + 0x400 * n + 0x4 * k
def SLC_IN.EN (n : Nat) (k : Nat) : Fld := ⟨SLC_IN.adr n k, 31, 31⟩
def SLC_IN.SHIFT (n : Nat) (k : Nat) : Fld := ⟨SLC_IN.adr n k, 28, 24⟩
def SLC_IN.TAGANY (n : Nat) (k : Nat) : Fld := ⟨SLC_IN.adr n k, 20, 20⟩
def SLC_IN.TAG (n : Nat) (k : Nat) : Fld := ⟨SLC_IN.adr n k, 18, 16⟩
def SLC_IN.SLOT (n : Nat) (k : Nat) : Fld := ⟨SLC_IN.adr n k, 8, 8⟩
def SLC_IN.CV (n : Nat) (k : Nat) : Fld := ⟨SLC_IN.adr n k, 4, 0⟩
/-- Address of `SLC_PAR` (spec/06_loop_slices.md). -/
def SLC_PAR.adr (n : Nat) (k : Nat) : Nat := 0x30300100 + 0x400 * n + 0x4 * k
def SLC_PAR.VALUE (n : Nat) (k : Nat) : Fld := ⟨SLC_PAR.adr n k, 31, 0⟩
/-- Address of `SLC_REF` (spec/06_loop_slices.md). -/
def SLC_REF.adr (n : Nat) (k : Nat) : Nat := 0x30300180 + 0x400 * n + 0x4 * k
def SLC_REF.VALUE (n : Nat) (k : Nat) : Fld := ⟨SLC_REF.adr n k, 31, 0⟩
/-- Address of `SLC_INT` (spec/06_loop_slices.md). -/
def SLC_INT.adr (n : Nat) (k : Nat) : Nat := 0x30300200 + 0x400 * n + 0x4 * k
def SLC_INT.VALUE (n : Nat) (k : Nat) : Fld := ⟨SLC_INT.adr n k, 31, 0⟩
/-- Address of `SLC_OUT` (spec/06_loop_slices.md). -/
def SLC_OUT.adr (n : Nat) (k : Nat) : Nat := 0x30300220 + 0x400 * n + 0x4 * k
def SLC_OUT.VALUE (n : Nat) (k : Nat) : Fld := ⟨SLC_OUT.adr n k, 31, 0⟩
/-- Address of `SLC_ENERGY_LO` (spec/06_loop_slices.md). -/
def SLC_ENERGY_LO.adr (n : Nat) : Nat := 0x30300230 + 0x400 * n
def SLC_ENERGY_LO.ELO (n : Nat) : Fld := ⟨SLC_ENERGY_LO.adr n, 31, 0⟩
/-- Address of `SLC_ENERGY_HI` (spec/06_loop_slices.md). -/
def SLC_ENERGY_HI.adr (n : Nat) : Nat := 0x30300234 + 0x400 * n
def SLC_ENERGY_HI.EHI (n : Nat) : Fld := ⟨SLC_ENERGY_HI.adr n, 31, 0⟩
/-- Address of `GOU_PAIR_CFG` (spec/07_gate_outputs_and_trip.md). -/
def GOU_PAIR_CFG.adr (n : Nat) : Nat := 0x30400000 + 0x40 * n
def GOU_PAIR_CFG.GRP (n : Nat) : Fld := ⟨GOU_PAIR_CFG.adr n, 31, 24⟩
def GOU_PAIR_CFG.TRACK (n : Nat) : Fld := ⟨GOU_PAIR_CFG.adr n, 23, 20⟩
def GOU_PAIR_CFG.SAFE (n : Nat) : Fld := ⟨GOU_PAIR_CFG.adr n, 19, 18⟩
def GOU_PAIR_CFG.LSMODE (n : Nat) : Fld := ⟨GOU_PAIR_CFG.adr n, 17, 17⟩
def GOU_PAIR_CFG.TCONS (n : Nat) : Fld := ⟨GOU_PAIR_CFG.adr n, 16, 16⟩
def GOU_PAIR_CFG.UPD (n : Nat) : Fld := ⟨GOU_PAIR_CFG.adr n, 15, 14⟩
def GOU_PAIR_CFG.ALIGN (n : Nat) : Fld := ⟨GOU_PAIR_CFG.adr n, 13, 13⟩
def GOU_PAIR_CFG.CSTART (n : Nat) : Fld := ⟨GOU_PAIR_CFG.adr n, 12, 12⟩
def GOU_PAIR_CFG.MODE (n : Nat) : Fld := ⟨GOU_PAIR_CFG.adr n, 9, 8⟩
def GOU_PAIR_CFG.LEAD (n : Nat) : Fld := ⟨GOU_PAIR_CFG.adr n, 7, 0⟩
/-- Address of `GOU_PAIR_PHASE` (spec/07_gate_outputs_and_trip.md). -/
def GOU_PAIR_PHASE.adr (n : Nat) : Nat := 0x30400004 + 0x40 * n
def GOU_PAIR_PHASE.PHASE (n : Nat) : Fld := ⟨GOU_PAIR_PHASE.adr n, 31, 0⟩
/-- Address of `GOU_PAIR_PAT` (spec/07_gate_outputs_and_trip.md). -/
def GOU_PAIR_PAT.adr (n : Nat) : Nat := 0x30400014 + 0x40 * n
def GOU_PAIR_PAT.LEN (n : Nat) : Fld := ⟨GOU_PAIR_PAT.adr n, 28, 16⟩
def GOU_PAIR_PAT.BASE (n : Nat) : Fld := ⟨GOU_PAIR_PAT.adr n, 11, 0⟩
/-- Address of `GOU_PAIR_STAT` (spec/07_gate_outputs_and_trip.md). -/
def GOU_PAIR_STAT.adr (n : Nat) : Nat := 0x30400020 + 0x40 * n
def GOU_PAIR_STAT.CAUSE (n : Nat) : Fld := ⟨GOU_PAIR_STAT.adr n, 31, 24⟩
def GOU_PAIR_STAT.MINSTR (n : Nat) : Fld := ⟨GOU_PAIR_STAT.adr n, 15, 15⟩
def GOU_PAIR_STAT.WORDMM (n : Nat) : Fld := ⟨GOU_PAIR_STAT.adr n, 14, 14⟩
def GOU_PAIR_STAT.TASKIGN (n : Nat) : Fld := ⟨GOU_PAIR_STAT.adr n, 13, 13⟩
def GOU_PAIR_STAT.STARTOVR (n : Nat) : Fld := ⟨GOU_PAIR_STAT.adr n, 12, 12⟩
def GOU_PAIR_STAT.TRIMLIM (n : Nat) : Fld := ⟨GOU_PAIR_STAT.adr n, 11, 11⟩
def GOU_PAIR_STAT.CARERR (n : Nat) : Fld := ⟨GOU_PAIR_STAT.adr n, 10, 10⟩
def GOU_PAIR_STAT.HCMD (n : Nat) : Fld := ⟨GOU_PAIR_STAT.adr n, 5, 5⟩
def GOU_PAIR_STAT.TRIP (n : Nat) : Fld := ⟨GOU_PAIR_STAT.adr n, 4, 4⟩
def GOU_PAIR_STAT.STATE (n : Nat) : Fld := ⟨GOU_PAIR_STAT.adr n, 1, 0⟩
/-- Address of `GOU_PAIR_DEAD` (spec/07_gate_outputs_and_trip.md). -/
def GOU_PAIR_DEAD.adr (n : Nat) : Nat := 0x30400008 + 0x40 * n
def GOU_PAIR_DEAD.TIME (n : Nat) : Fld := ⟨GOU_PAIR_DEAD.adr n, 16, 0⟩
/-- Address of `GOU_PAIR_MINON` (spec/07_gate_outputs_and_trip.md). -/
def GOU_PAIR_MINON.adr (n : Nat) : Nat := 0x3040000c + 0x40 * n
def GOU_PAIR_MINON.TIME (n : Nat) : Fld := ⟨GOU_PAIR_MINON.adr n, 16, 0⟩
/-- Address of `GOU_PAIR_MINOFF` (spec/07_gate_outputs_and_trip.md). -/
def GOU_PAIR_MINOFF.adr (n : Nat) : Nat := 0x30400010 + 0x40 * n
def GOU_PAIR_MINOFF.TIME (n : Nat) : Fld := ⟨GOU_PAIR_MINOFF.adr n, 16, 0⟩
/-- Address of `GOU_PAIR_WORD` (spec/07_gate_outputs_and_trip.md). -/
def GOU_PAIR_WORD.adr (n : Nat) : Nat := 0x30400018 + 0x40 * n
def GOU_PAIR_WORD.WORD (n : Nat) : Fld := ⟨GOU_PAIR_WORD.adr n, 31, 0⟩
/-- Address of `GOU_PAIR_TRIM` (spec/07_gate_outputs_and_trip.md). -/
def GOU_PAIR_TRIM.adr (n : Nat) : Nat := 0x3040001c + 0x40 * n
def GOU_PAIR_TRIM.TRIM (n : Nat) : Fld := ⟨GOU_PAIR_TRIM.adr n, 31, 0⟩
/-- Address of `GOU_ARMED` (spec/07_gate_outputs_and_trip.md). -/
def GOU_ARMED.adr : Nat := 0x30401000
def GOU_ARMED.MASK : Fld := ⟨GOU_ARMED.adr, 31, 0⟩
/-- Address of `GOU_ARMREQ` (spec/07_gate_outputs_and_trip.md). -/
def GOU_ARMREQ.adr : Nat := 0x30401004
def GOU_ARMREQ.MASK : Fld := ⟨GOU_ARMREQ.adr, 31, 0⟩
/-- Address of `GOU_DISARM` (spec/07_gate_outputs_and_trip.md). -/
def GOU_DISARM.adr : Nat := 0x30401008
def GOU_DISARM.MASK : Fld := ⟨GOU_DISARM.adr, 31, 0⟩
/-- Address of `GOU_TRIPCLR` (spec/07_gate_outputs_and_trip.md). -/
def GOU_TRIPCLR.adr : Nat := 0x3040100c
def GOU_TRIPCLR.MASK : Fld := ⟨GOU_TRIPCLR.adr, 31, 0⟩
/-- Address of `GOU_TRIPPED` (spec/07_gate_outputs_and_trip.md). -/
def GOU_TRIPPED.adr : Nat := 0x30401010
def GOU_TRIPPED.MASK : Fld := ⟨GOU_TRIPPED.adr, 31, 0⟩
/-- Address of `GOU_GEN` (spec/07_gate_outputs_and_trip.md). -/
def GOU_GEN.adr : Nat := 0x30401014
def GOU_GEN.ARMREF : Fld := ⟨GOU_GEN.adr, 2, 2⟩
def GOU_GEN.GEN : Fld := ⟨GOU_GEN.adr, 1, 1⟩
def GOU_GEN.EN : Fld := ⟨GOU_GEN.adr, 0, 0⟩
/-- Address of `GOU_POL_LO` (spec/07_gate_outputs_and_trip.md). -/
def GOU_POL_LO.adr : Nat := 0x30401018
def GOU_POL_LO.POL : Fld := ⟨GOU_POL_LO.adr, 31, 0⟩
/-- Address of `GOU_POL_HI` (spec/07_gate_outputs_and_trip.md). -/
def GOU_POL_HI.adr : Nat := 0x3040101c
def GOU_POL_HI.POL : Fld := ⟨GOU_POL_HI.adr, 31, 0⟩
/-- Address of `GOU_TRIN_CFG` (spec/07_gate_outputs_and_trip.md). -/
def GOU_TRIN_CFG.adr : Nat := 0x30401020
def GOU_TRIN_CFG.PINS : Fld := ⟨GOU_TRIN_CFG.adr, 31, 0⟩
/-- Address of `GOU_RTRIP` (spec/07_gate_outputs_and_trip.md). -/
def GOU_RTRIP.adr : Nat := 0x30401024
def GOU_RTRIP.SEND : Fld := ⟨GOU_RTRIP.adr, 15, 8⟩
def GOU_RTRIP.RX : Fld := ⟨GOU_RTRIP.adr, 0, 0⟩
/-- Address of `GOU_ROUTE` (spec/07_gate_outputs_and_trip.md). -/
def GOU_ROUTE.adr (n : Nat) : Nat := 0x30401040 + 0x4 * n
def GOU_ROUTE.GROUPS (n : Nat) : Fld := ⟨GOU_ROUTE.adr n, 31, 0⟩
/-- Address of `GOU_INLVL` (spec/07_gate_outputs_and_trip.md). -/
def GOU_INLVL.adr (n : Nat) : Nat := 0x30401090 + 0x4 * n
def GOU_INLVL.LEVEL (n : Nat) : Fld := ⟨GOU_INLVL.adr n, 31, 0⟩
/-- Address of `EVF_SRC_CFG` (spec/08_event_fabric_and_mailboxes.md). -/
def EVF_SRC_CFG.adr (n : Nat) : Nat := 0x30500000 + 0x10 * n
def EVF_SRC_CFG.EN (n : Nat) : Fld := ⟨EVF_SRC_CFG.adr n, 31, 31⟩
def EVF_SRC_CFG.TCNT (n : Nat) : Fld := ⟨EVF_SRC_CFG.adr n, 19, 16⟩
def EVF_SRC_CFG.SIG (n : Nat) : Fld := ⟨EVF_SRC_CFG.adr n, 8, 0⟩
/-- Address of `EVF_SRC_TA` (spec/08_event_fabric_and_mailboxes.md). -/
def EVF_SRC_TA.adr (n : Nat) : Nat := 0x30500004 + 0x10 * n
def EVF_SRC_TA.TASKS (n : Nat) : Fld := ⟨EVF_SRC_TA.adr n, 31, 0⟩
/-- Address of `EVF_SRC_TB` (spec/08_event_fabric_and_mailboxes.md). -/
def EVF_SRC_TB.adr (n : Nat) : Nat := 0x30500008 + 0x10 * n
def EVF_SRC_TB.TASKS (n : Nat) : Fld := ⟨EVF_SRC_TB.adr n, 31, 0⟩
/-- Address of `EVF_SRC_CNT` (spec/08_event_fabric_and_mailboxes.md). -/
def EVF_SRC_CNT.adr (n : Nat) : Nat := 0x3050000c + 0x10 * n
def EVF_SRC_CNT.COUNT (n : Nat) : Fld := ⟨EVF_SRC_CNT.adr n, 31, 0⟩
/-- Address of `EVF_TLOST` (spec/08_event_fabric_and_mailboxes.md). -/
def EVF_TLOST.adr (n : Nat) : Nat := 0x30501000 + 0x4 * n
def EVF_TLOST.LOST (n : Nat) : Fld := ⟨EVF_TLOST.adr n, 31, 0⟩
/-- Address of `EVF_STAT` (spec/08_event_fabric_and_mailboxes.md). -/
def EVF_STAT.adr : Nat := 0x30501020
def EVF_STAT.BADTASK : Fld := ⟨EVF_STAT.adr, 0, 0⟩
/-- Address of `EVF_SWEV` (spec/08_event_fabric_and_mailboxes.md). -/
def EVF_SWEV.adr : Nat := 0x30501040
def EVF_SWEV.RAISE : Fld := ⟨EVF_SWEV.adr, 15, 0⟩
/-- Address of `EVF_CORE_PEND` (spec/08_event_fabric_and_mailboxes.md). -/
def EVF_CORE_PEND.adr (n : Nat) : Nat := 0x30501080 + 0x4 * n
def EVF_CORE_PEND.OVR (n : Nat) : Fld := ⟨EVF_CORE_PEND.adr n, 15, 8⟩
def EVF_CORE_PEND.PEND (n : Nat) : Fld := ⟨EVF_CORE_PEND.adr n, 7, 0⟩
/-- Address of `EVF_AO_PEND` (spec/08_event_fabric_and_mailboxes.md). -/
def EVF_AO_PEND.adr : Nat := 0x40068000
def EVF_AO_PEND.OVR : Fld := ⟨EVF_AO_PEND.adr, 15, 8⟩
def EVF_AO_PEND.PEND : Fld := ⟨EVF_AO_PEND.adr, 7, 0⟩
/-- Address of `EVF_AO_SWEV` (spec/08_event_fabric_and_mailboxes.md). -/
def EVF_AO_SWEV.adr : Nat := 0x40068004
def EVF_AO_SWEV.RAISE : Fld := ⟨EVF_AO_SWEV.adr, 7, 0⟩
/-- Address of `EVF_AO_STAT` (spec/08_event_fabric_and_mailboxes.md). -/
def EVF_AO_STAT.adr : Nat := 0x40068008
def EVF_AO_STAT.LOSTEV : Fld := ⟨EVF_AO_STAT.adr, 0, 0⟩
/-- Address of `MBX_DPUSH` (spec/08_event_fabric_and_mailboxes.md). -/
def MBX_DPUSH.adr (n : Nat) : Nat := 0x30600000 + 0x20 * n
def MBX_DPUSH.DATA (n : Nat) : Fld := ⟨MBX_DPUSH.adr n, 31, 0⟩
/-- Address of `MBX_HPUSH` (spec/08_event_fabric_and_mailboxes.md). -/
def MBX_HPUSH.adr (n : Nat) : Nat := 0x30600008 + 0x20 * n
def MBX_HPUSH.DATA (n : Nat) : Fld := ⟨MBX_HPUSH.adr n, 31, 0⟩
/-- Address of `MBX_DPOP` (spec/08_event_fabric_and_mailboxes.md). -/
def MBX_DPOP.adr (n : Nat) : Nat := 0x30600004 + 0x20 * n
def MBX_DPOP.DATA (n : Nat) : Fld := ⟨MBX_DPOP.adr n, 31, 0⟩
/-- Address of `MBX_HPOP` (spec/08_event_fabric_and_mailboxes.md). -/
def MBX_HPOP.adr (n : Nat) : Nat := 0x3060000c + 0x20 * n
def MBX_HPOP.DATA (n : Nat) : Fld := ⟨MBX_HPOP.adr n, 31, 0⟩
/-- Address of `MBX_STAT` (spec/08_event_fabric_and_mailboxes.md). -/
def MBX_STAT.adr (n : Nat) : Nat := 0x30600010 + 0x20 * n
def MBX_STAT.HCNT (n : Nat) : Fld := ⟨MBX_STAT.adr n, 27, 24⟩
def MBX_STAT.DCNT (n : Nat) : Fld := ⟨MBX_STAT.adr n, 19, 16⟩
def MBX_STAT.HUNDER (n : Nat) : Fld := ⟨MBX_STAT.adr n, 3, 3⟩
def MBX_STAT.DUNDER (n : Nat) : Fld := ⟨MBX_STAT.adr n, 2, 2⟩
def MBX_STAT.HCOLL (n : Nat) : Fld := ⟨MBX_STAT.adr n, 1, 1⟩
def MBX_STAT.DCOLL (n : Nat) : Fld := ⟨MBX_STAT.adr n, 0, 0⟩
/-- Address of `MBX_CFG` (spec/08_event_fabric_and_mailboxes.md). -/
def MBX_CFG.adr (n : Nat) : Nat := 0x30600014 + 0x20 * n
def MBX_CFG.HLVL (n : Nat) : Fld := ⟨MBX_CFG.adr n, 11, 8⟩
def MBX_CFG.DLVL (n : Nat) : Fld := ⟨MBX_CFG.adr n, 3, 0⟩
/-- Address of `MBX_BELL` (spec/08_event_fabric_and_mailboxes.md). -/
def MBX_BELL.adr : Nat := 0x30601000
def MBX_BELL.BELL : Fld := ⟨MBX_BELL.adr, 31, 0⟩
/-- Address of `MBX_BELL_SET` (spec/08_event_fabric_and_mailboxes.md). -/
def MBX_BELL_SET.adr : Nat := 0x30601004
def MBX_BELL_SET.BELL : Fld := ⟨MBX_BELL_SET.adr, 31, 0⟩
/-- Address of `MBX_BELL_OVR` (spec/08_event_fabric_and_mailboxes.md). -/
def MBX_BELL_OVR.adr : Nat := 0x30601008
def MBX_BELL_OVR.OVR : Fld := ⟨MBX_BELL_OVR.adr, 31, 0⟩
/-- Address of `RING_CFG` (spec/09_device_rings.md). -/
def RING_CFG.adr : Nat := 0x30900400
def RING_CFG.ROOT : Fld := ⟨RING_CFG.adr, 31, 31⟩
def RING_CFG.SPLITTRIP : Fld := ⟨RING_CFG.adr, 24, 24⟩
def RING_CFG.TRIPACC : Fld := ⟨RING_CFG.adr, 23, 16⟩
def RING_CFG.PTPDOM : Fld := ⟨RING_CFG.adr, 7, 0⟩
/-- Address of `RING_SHARE` (spec/09_device_rings.md). -/
def RING_SHARE.adr : Nat := 0x30900404
def RING_SHARE.TRACKS : Fld := ⟨RING_SHARE.adr, 15, 0⟩
/-- Address of `RING_STAT` (spec/09_device_rings.md). -/
def RING_STAT.adr : Nat := 0x30900408
def RING_STAT.UPSW : Fld := ⟨RING_STAT.adr, 7, 7⟩
def RING_STAT.MEMBLOST : Fld := ⟨RING_STAT.adr, 6, 6⟩
def RING_STAT.DUPADDR : Fld := ⟨RING_STAT.adr, 5, 5⟩
def RING_STAT.EPSPLIT : Fld := ⟨RING_STAT.adr, 4, 4⟩
def RING_STAT.VERHOLD : Fld := ⟨RING_STAT.adr, 2, 2⟩
def RING_STAT.STALE : Fld := ⟨RING_STAT.adr, 1, 1⟩
def RING_STAT.CLOSED : Fld := ⟨RING_STAT.adr, 0, 0⟩
/-- Address of `RING_PTPOFF` (spec/09_device_rings.md). -/
def RING_PTPOFF.adr : Nat := 0x3090040c
def RING_PTPOFF.OFFS : Fld := ⟨RING_PTPOFF.adr, 31, 0⟩
/-- Address of `RING_FWDERR` (spec/09_device_rings.md). -/
def RING_FWDERR.adr : Nat := 0x30900418
def RING_FWDERR.COUNT : Fld := ⟨RING_FWDERR.adr, 31, 0⟩
/-- Address of `RING_HBMAP_LO` (spec/09_device_rings.md). -/
def RING_HBMAP_LO.adr : Nat := 0x30900410
def RING_HBMAP_LO.MAP : Fld := ⟨RING_HBMAP_LO.adr, 31, 0⟩
/-- Address of `RING_HBMAP_HI` (spec/09_device_rings.md). -/
def RING_HBMAP_HI.adr : Nat := 0x30900414
def RING_HBMAP_HI.MAP : Fld := ⟨RING_HBMAP_HI.adr, 31, 0⟩
/-- Address of `RING_INJ` (spec/09_device_rings.md). -/
def RING_INJ.adr (n : Nat) : Nat := 0x30900420 + 0x4 * n
def RING_INJ.ACTIVE (n : Nat) : Fld := ⟨RING_INJ.adr n, 31, 31⟩
def RING_INJ.DONE (n : Nat) : Fld := ⟨RING_INJ.adr n, 30, 30⟩
def RING_INJ.KIND (n : Nat) : Fld := ⟨RING_INJ.adr n, 26, 24⟩
def RING_INJ.LEFT (n : Nat) : Fld := ⟨RING_INJ.adr n, 15, 0⟩
/-- Address of `GRN_CMD` (spec/10_granary_and_memory.md). -/
def GRN_CMD.adr : Nat := 0x30700000
def GRN_CMD.FRZAT : Fld := ⟨GRN_CMD.adr, 3, 3⟩
def GRN_CMD.FREEZE : Fld := ⟨GRN_CMD.adr, 2, 2⟩
def GRN_CMD.TRIG : Fld := ⟨GRN_CMD.adr, 1, 1⟩
def GRN_CMD.START : Fld := ⟨GRN_CMD.adr, 0, 0⟩
/-- Address of `GRN_STAT` (spec/10_granary_and_memory.md). -/
def GRN_STAT.adr : Nat := 0x30700004
def GRN_STAT.FCAUSE : Fld := ⟨GRN_STAT.adr, 11, 8⟩
def GRN_STAT.MARKFULL : Fld := ⟨GRN_STAT.adr, 6, 6⟩
def GRN_STAT.STARTREF : Fld := ⟨GRN_STAT.adr, 5, 5⟩
def GRN_STAT.TRIGIGN : Fld := ⟨GRN_STAT.adr, 4, 4⟩
def GRN_STAT.GAP : Fld := ⟨GRN_STAT.adr, 3, 3⟩
def GRN_STAT.STATE : Fld := ⟨GRN_STAT.adr, 1, 0⟩
/-- Address of `GRN_POST` (spec/10_granary_and_memory.md). -/
def GRN_POST.adr : Nat := 0x30700010
def GRN_POST.KB : Fld := ⟨GRN_POST.adr, 31, 0⟩
/-- Address of `GRN_BASE` (spec/10_granary_and_memory.md). -/
def GRN_BASE.adr : Nat := 0x30700008
def GRN_BASE.BASE : Fld := ⟨GRN_BASE.adr, 23, 0⟩
/-- Address of `GRN_SIZE` (spec/10_granary_and_memory.md). -/
def GRN_SIZE.adr : Nat := 0x3070000c
def GRN_SIZE.SIZE : Fld := ⟨GRN_SIZE.adr, 23, 0⟩
/-- Address of `GRN_FRZTIME_LO` (spec/10_granary_and_memory.md). -/
def GRN_FRZTIME_LO.adr : Nat := 0x30700018
def GRN_FRZTIME_LO.TIME : Fld := ⟨GRN_FRZTIME_LO.adr, 31, 0⟩
/-- Address of `GRN_FRZTIME_HI` (spec/10_granary_and_memory.md). -/
def GRN_FRZTIME_HI.adr : Nat := 0x3070001c
def GRN_FRZTIME_HI.TIME : Fld := ⟨GRN_FRZTIME_HI.adr, 31, 0⟩
/-- Address of `GRN_TRIGTIME_LO` (spec/10_granary_and_memory.md). -/
def GRN_TRIGTIME_LO.adr : Nat := 0x30700020
def GRN_TRIGTIME_LO.TRIG : Fld := ⟨GRN_TRIGTIME_LO.adr, 31, 0⟩
/-- Address of `GRN_TRIGTIME_HI` (spec/10_granary_and_memory.md). -/
def GRN_TRIGTIME_HI.adr : Nat := 0x30700024
def GRN_TRIGTIME_HI.TRIG : Fld := ⟨GRN_TRIGTIME_HI.adr, 31, 0⟩
/-- Address of `GRN_RECLEN_LO` (spec/10_granary_and_memory.md). -/
def GRN_RECLEN_LO.adr : Nat := 0x30700028
def GRN_RECLEN_LO.LEN : Fld := ⟨GRN_RECLEN_LO.adr, 31, 0⟩
/-- Address of `GRN_RECLEN_HI` (spec/10_granary_and_memory.md). -/
def GRN_RECLEN_HI.adr : Nat := 0x3070002c
def GRN_RECLEN_HI.LEN : Fld := ⟨GRN_RECLEN_HI.adr, 31, 0⟩
/-- Address of `GRN_GAPS` (spec/10_granary_and_memory.md). -/
def GRN_GAPS.adr : Nat := 0x30700030
def GRN_GAPS.GAPS : Fld := ⟨GRN_GAPS.adr, 31, 0⟩
/-- Address of `GRN_STR_CFG` (spec/10_granary_and_memory.md). -/
def GRN_STR_CFG.adr (n : Nat) : Nat := 0x30700100 + 0x4 * n
def GRN_STR_CFG.GLEAN (n : Nat) : Fld := ⟨GRN_STR_CFG.adr n, 30, 30⟩
def GRN_STR_CFG.KIND (n : Nat) : Fld := ⟨GRN_STR_CFG.adr n, 26, 24⟩
def GRN_STR_CFG.TAGANY (n : Nat) : Fld := ⟨GRN_STR_CFG.adr n, 20, 20⟩
def GRN_STR_CFG.TAG (n : Nat) : Fld := ⟨GRN_STR_CFG.adr n, 18, 16⟩
def GRN_STR_CFG.DEC (n : Nat) : Fld := ⟨GRN_STR_CFG.adr n, 12, 8⟩
def GRN_STR_CFG.INDEX (n : Nat) : Fld := ⟨GRN_STR_CFG.adr n, 4, 0⟩
/-- Address of `CPM_ECC_STAT` (spec/10_granary_and_memory.md). -/
def CPM_ECC_STAT.adr : Nat := 0x30a00800
def CPM_ECC_STAT.UE : Fld := ⟨CPM_ECC_STAT.adr, 0, 0⟩
/-- Address of `CPM_ECC_ADDR_LO` (spec/10_granary_and_memory.md). -/
def CPM_ECC_ADDR_LO.adr : Nat := 0x30a00804
def CPM_ECC_ADDR_LO.ADDR : Fld := ⟨CPM_ECC_ADDR_LO.adr, 31, 0⟩
/-- Address of `CPM_ECC_ADDR_HI` (spec/10_granary_and_memory.md). -/
def CPM_ECC_ADDR_HI.adr : Nat := 0x30a00808
def CPM_ECC_ADDR_HI.ADDR : Fld := ⟨CPM_ECC_ADDR_HI.adr, 7, 0⟩
/-- Address of `CPM_ECC_CE` (spec/10_granary_and_memory.md). -/
def CPM_ECC_CE.adr : Nat := 0x30a0080c
def CPM_ECC_CE.COUNT : Fld := ⟨CPM_ECC_CE.adr, 31, 0⟩
/-- Address of `MEMC_CFG` (spec/10_granary_and_memory.md). -/
def MEMC_CFG.adr : Nat := 0x30800000
def MEMC_CFG.CHEN : Fld := ⟨MEMC_CFG.adr, 1, 0⟩
def MEMC_CFG.DENS : Fld := ⟨MEMC_CFG.adr, 5, 4⟩
/-- Address of `MEMC_ECC_STAT` (spec/10_granary_and_memory.md). -/
def MEMC_ECC_STAT.adr : Nat := 0x30800100
def MEMC_ECC_STAT.UE : Fld := ⟨MEMC_ECC_STAT.adr, 0, 0⟩
/-- Address of `MEMC_ECC_ADDR_LO` (spec/10_granary_and_memory.md). -/
def MEMC_ECC_ADDR_LO.adr : Nat := 0x30800104
def MEMC_ECC_ADDR_LO.ADDR : Fld := ⟨MEMC_ECC_ADDR_LO.adr, 31, 0⟩
/-- Address of `MEMC_ECC_ADDR_HI` (spec/10_granary_and_memory.md). -/
def MEMC_ECC_ADDR_HI.adr : Nat := 0x30800108
def MEMC_ECC_ADDR_HI.ADDR : Fld := ⟨MEMC_ECC_ADDR_HI.adr, 7, 0⟩
/-- Address of `MEMC_ECC_CE` (spec/10_granary_and_memory.md). -/
def MEMC_ECC_CE.adr : Nat := 0x3080010c
def MEMC_ECC_CE.COUNT : Fld := ⟨MEMC_ECC_CE.adr, 31, 0⟩
/-- Address of `LGR_CTRL` (spec/11_hour_ledger_and_lifecycle.md). -/
def LGR_CTRL.adr : Nat := 0x40050000
def LGR_CTRL.TYPE : Fld := ⟨LGR_CTRL.adr, 31, 24⟩
def LGR_CTRL.CODE : Fld := ⟨LGR_CTRL.adr, 23, 8⟩
def LGR_CTRL.NOTE : Fld := ⟨LGR_CTRL.adr, 1, 1⟩
def LGR_CTRL.SEAL : Fld := ⟨LGR_CTRL.adr, 0, 0⟩
/-- Address of `LGR_STAT` (spec/11_hour_ledger_and_lifecycle.md). -/
def LGR_STAT.adr : Nat := 0x40050004
def LGR_STAT.FIELDSEEN : Fld := ⟨LGR_STAT.adr, 8, 8⟩
def LGR_STAT.FULL : Fld := ⟨LGR_STAT.adr, 7, 7⟩
def LGR_STAT.CONDENSING : Fld := ⟨LGR_STAT.adr, 6, 6⟩
def LGR_STAT.SEALING : Fld := ⟨LGR_STAT.adr, 5, 5⟩
def LGR_STAT.SEALPEND : Fld := ⟨LGR_STAT.adr, 4, 4⟩
def LGR_STAT.EVLOST : Fld := ⟨LGR_STAT.adr, 3, 3⟩
def LGR_STAT.ECC : Fld := ⟨LGR_STAT.adr, 2, 2⟩
def LGR_STAT.TRUNC : Fld := ⟨LGR_STAT.adr, 1, 1⟩
def LGR_STAT.LIVE : Fld := ⟨LGR_STAT.adr, 0, 0⟩
/-- Address of `LGR_NEWEST` (spec/11_hour_ledger_and_lifecycle.md). -/
def LGR_NEWEST.adr : Nat := 0x40050008
def LGR_NEWEST.INDEX : Fld := ⟨LGR_NEWEST.adr, 31, 0⟩
/-- Address of `LGR_OLDUNACK` (spec/11_hour_ledger_and_lifecycle.md). -/
def LGR_OLDUNACK.adr : Nat := 0x4005000c
def LGR_OLDUNACK.INDEX : Fld := ⟨LGR_OLDUNACK.adr, 31, 0⟩
/-- Address of `LGR_ACKED` (spec/11_hour_ledger_and_lifecycle.md). -/
def LGR_ACKED.adr : Nat := 0x40050010
def LGR_ACKED.INDEX : Fld := ⟨LGR_ACKED.adr, 31, 0⟩
/-- Address of `LGR_WATCH_CFG` (spec/11_hour_ledger_and_lifecycle.md). -/
def LGR_WATCH_CFG.adr : Nat := 0x40050110
def LGR_WATCH_CFG.WAKE : Fld := ⟨LGR_WATCH_CFG.adr, 5, 3⟩
def LGR_WATCH_CFG.EN : Fld := ⟨LGR_WATCH_CFG.adr, 2, 0⟩
/-- Address of `LGR_TAMP_STAT` (spec/11_hour_ledger_and_lifecycle.md). -/
def LGR_TAMP_STAT.adr : Nat := 0x40050114
def LGR_TAMP_STAT.SEEN : Fld := ⟨LGR_TAMP_STAT.adr, 7, 4⟩
def LGR_TAMP_STAT.LVL : Fld := ⟨LGR_TAMP_STAT.adr, 3, 0⟩
/-- Address of `LGR_PM_CFG` (spec/11_hour_ledger_and_lifecycle.md). -/
def LGR_PM_CFG.adr : Nat := 0x40050118
def LGR_PM_CFG.EN : Fld := ⟨LGR_PM_CFG.adr, 31, 31⟩
def LGR_PM_CFG.IFACE : Fld := ⟨LGR_PM_CFG.adr, 30, 28⟩
def LGR_PM_CFG.RATE : Fld := ⟨LGR_PM_CFG.adr, 27, 24⟩
def LGR_PM_CFG.STRB : Fld := ⟨LGR_PM_CFG.adr, 23, 20⟩
def LGR_PM_CFG.THR : Fld := ⟨LGR_PM_CFG.adr, 15, 0⟩
/-- Address of `LGR_PM_CNT` (spec/11_hour_ledger_and_lifecycle.md). -/
def LGR_PM_CNT.adr : Nat := 0x4005011c
def LGR_PM_CNT.COUNT : Fld := ⟨LGR_PM_CNT.adr, 31, 0⟩
/-- Address of `LGR_NOTE` (spec/11_hour_ledger_and_lifecycle.md). -/
def LGR_NOTE.adr (n : Nat) : Nat := 0x40050020 + 0x4 * n
def LGR_NOTE.DATA (n : Nat) : Fld := ⟨LGR_NOTE.adr n, 31, 0⟩
/-- Address of `LGR_MTR_CFG` (spec/11_hour_ledger_and_lifecycle.md). -/
def LGR_MTR_CFG.adr (n : Nat) : Nat := 0x40050040 + 0x4 * n
def LGR_MTR_CFG.EN (n : Nat) : Fld := ⟨LGR_MTR_CFG.adr n, 31, 31⟩
def LGR_MTR_CFG.SRC (n : Nat) : Fld := ⟨LGR_MTR_CFG.adr n, 27, 24⟩
def LGR_MTR_CFG.SHIFT (n : Nat) : Fld := ⟨LGR_MTR_CFG.adr n, 21, 16⟩
def LGR_MTR_CFG.PAR (n : Nat) : Fld := ⟨LGR_MTR_CFG.adr n, 15, 0⟩
/-- Address of `LGR_MTR_LO` (spec/11_hour_ledger_and_lifecycle.md). -/
def LGR_MTR_LO.adr (n : Nat) : Nat := 0x40050080 + 0x8 * n
def LGR_MTR_LO.TOTLO (n : Nat) : Fld := ⟨LGR_MTR_LO.adr n, 31, 0⟩
/-- Address of `LGR_MTR_HI` (spec/11_hour_ledger_and_lifecycle.md). -/
def LGR_MTR_HI.adr (n : Nat) : Nat := 0x40050084 + 0x8 * n
def LGR_MTR_HI.TOTHI (n : Nat) : Fld := ⟨LGR_MTR_HI.adr n, 31, 0⟩
/-- Address of `LGR_TAMP_CFG` (spec/11_hour_ledger_and_lifecycle.md). -/
def LGR_TAMP_CFG.adr (n : Nat) : Nat := 0x40050100 + 0x4 * n
def LGR_TAMP_CFG.EN (n : Nat) : Fld := ⟨LGR_TAMP_CFG.adr n, 15, 15⟩
def LGR_TAMP_CFG.POL (n : Nat) : Fld := ⟨LGR_TAMP_CFG.adr n, 14, 14⟩
def LGR_TAMP_CFG.WAKE (n : Nat) : Fld := ⟨LGR_TAMP_CFG.adr n, 13, 13⟩
def LGR_TAMP_CFG.FILT (n : Nat) : Fld := ⟨LGR_TAMP_CFG.adr n, 3, 0⟩
/-- Address of `SEC_DBG` (spec/11_hour_ledger_and_lifecycle.md). -/
def SEC_DBG.adr : Nat := 0x30b00010
def SEC_DBG.BERR : Fld := ⟨SEC_DBG.adr, 2, 2⟩
def SEC_DBG.CHAN : Fld := ⟨SEC_DBG.adr, 1, 1⟩
def SEC_DBG.OPEN : Fld := ⟨SEC_DBG.adr, 0, 0⟩
/-- Address of `CPM_PAIR_RST` (spec/14_authority_and_exceptions.md). -/
def CPM_PAIR_RST.adr (n : Nat) : Nat := 0x30a00840 + 0x4 * n
def CPM_PAIR_RST.WHY (n : Nat) : Fld := ⟨CPM_PAIR_RST.adr n, 11, 8⟩
def CPM_PAIR_RST.INJREF (n : Nat) : Fld := ⟨CPM_PAIR_RST.adr n, 4, 4⟩
def CPM_PAIR_RST.INJ (n : Nat) : Fld := ⟨CPM_PAIR_RST.adr n, 3, 3⟩
def CPM_PAIR_RST.LOCKED (n : Nat) : Fld := ⟨CPM_PAIR_RST.adr n, 2, 2⟩
def CPM_PAIR_RST.HOLD (n : Nat) : Fld := ⟨CPM_PAIR_RST.adr n, 0, 0⟩
/-- Address of `CPM_CLK_CTRL` (spec/15_power_and_clocks.md). -/
def CPM_CLK_CTRL.adr : Nat := 0x30a00000
def CPM_CLK_CTRL.HRCEN : Fld := ⟨CPM_CLK_CTRL.adr, 8, 8⟩
def CPM_CLK_CTRL.SRC : Fld := ⟨CPM_CLK_CTRL.adr, 1, 0⟩
/-- Address of `CPM_CLK_STAT` (spec/15_power_and_clocks.md). -/
def CPM_CLK_STAT.adr : Nat := 0x30a00004
def CPM_CLK_STAT.HOLDEXP : Fld := ⟨CPM_CLK_STAT.adr, 12, 12⟩
def CPM_CLK_STAT.SWREF : Fld := ⟨CPM_CLK_STAT.adr, 11, 11⟩
def CPM_CLK_STAT.SLEW : Fld := ⟨CPM_CLK_STAT.adr, 10, 10⟩
def CPM_CLK_STAT.HOLD : Fld := ⟨CPM_CLK_STAT.adr, 9, 9⟩
def CPM_CLK_STAT.LOCK : Fld := ⟨CPM_CLK_STAT.adr, 8, 8⟩
def CPM_CLK_STAT.HRCRDY : Fld := ⟨CPM_CLK_STAT.adr, 6, 6⟩
def CPM_CLK_STAT.LREFBRDY : Fld := ⟨CPM_CLK_STAT.adr, 5, 5⟩
def CPM_CLK_STAT.LREFARDY : Fld := ⟨CPM_CLK_STAT.adr, 4, 4⟩
def CPM_CLK_STAT.CUR : Fld := ⟨CPM_CLK_STAT.adr, 1, 0⟩
/-- Address of `CPM_CLKEN` (spec/15_power_and_clocks.md). -/
def CPM_CLKEN.adr : Nat := 0x30a00010
def CPM_CLKEN.BLOCKS : Fld := ⟨CPM_CLKEN.adr, 9, 0⟩
/-- Address of `CPM_CLKRUN` (spec/15_power_and_clocks.md). -/
def CPM_CLKRUN.adr : Nat := 0x30a00014
def CPM_CLKRUN.BLOCKS : Fld := ⟨CPM_CLKRUN.adr, 9, 0⟩
/-- Address of `APM_MODE` (spec/15_power_and_clocks.md). -/
def APM_MODE.adr : Nat := 0x40060000
def APM_MODE.VSYS : Fld := ⟨APM_MODE.adr, 12, 12⟩
def APM_MODE.REQREF : Fld := ⟨APM_MODE.adr, 8, 8⟩
def APM_MODE.REQ : Fld := ⟨APM_MODE.adr, 5, 4⟩
def APM_MODE.MODE : Fld := ⟨APM_MODE.adr, 1, 0⟩
/-- Address of `APM_VOTE` (spec/15_power_and_clocks.md). -/
def APM_VOTE.adr (n : Nat) : Nat := 0x40060010 + 0x4 * n
def APM_VOTE.WAKE (n : Nat) : Fld := ⟨APM_VOTE.adr n, 9, 9⟩
def APM_VOTE.FIELD (n : Nat) : Fld := ⟨APM_VOTE.adr n, 8, 8⟩
def APM_VOTE.AGENTS (n : Nat) : Fld := ⟨APM_VOTE.adr n, 5, 1⟩
def APM_VOTE.HOST (n : Nat) : Fld := ⟨APM_VOTE.adr n, 0, 0⟩
/-- Address of `APM_VOTE_SET` (spec/15_power_and_clocks.md). -/
def APM_VOTE_SET.adr : Nat := 0x40060020
def APM_VOTE_SET.WAKE : Fld := ⟨APM_VOTE_SET.adr, 10, 8⟩
def APM_VOTE_SET.HOST : Fld := ⟨APM_VOTE_SET.adr, 6, 4⟩
def APM_VOTE_SET.OWN : Fld := ⟨APM_VOTE_SET.adr, 2, 0⟩
/-- Address of `APM_VOTE_CLR` (spec/15_power_and_clocks.md). -/
def APM_VOTE_CLR.adr : Nat := 0x40060024
def APM_VOTE_CLR.WAKE : Fld := ⟨APM_VOTE_CLR.adr, 10, 8⟩
def APM_VOTE_CLR.HOST : Fld := ⟨APM_VOTE_CLR.adr, 6, 4⟩
def APM_VOTE_CLR.OWN : Fld := ⟨APM_VOTE_CLR.adr, 2, 0⟩
/-- Address of `APM_HOLD` (spec/15_power_and_clocks.md). -/
def APM_HOLD.adr : Nat := 0x40060030
def APM_HOLD.LINK : Fld := ⟨APM_HOLD.adr, 10, 8⟩
def APM_HOLD.MEM : Fld := ⟨APM_HOLD.adr, 6, 4⟩
def APM_HOLD.FAST : Fld := ⟨APM_HOLD.adr, 2, 0⟩
/-- Address of `APM_DSTAT` (spec/15_power_and_clocks.md). -/
def APM_DSTAT.adr : Nat := 0x40060034
def APM_DSTAT.BUSY : Fld := ⟨APM_DSTAT.adr, 15, 15⟩
def APM_DSTAT.LINK : Fld := ⟨APM_DSTAT.adr, 10, 8⟩
def APM_DSTAT.MEM : Fld := ⟨APM_DSTAT.adr, 6, 4⟩
def APM_DSTAT.FAST : Fld := ⟨APM_DSTAT.adr, 2, 0⟩
/-- Address of `APM_WAKE_EN` (spec/15_power_and_clocks.md). -/
def APM_WAKE_EN.adr : Nat := 0x40060040
def APM_WAKE_EN.SRC : Fld := ⟨APM_WAKE_EN.adr, 10, 0⟩
/-- Address of `APM_WAKE_UP` (spec/15_power_and_clocks.md). -/
def APM_WAKE_UP.adr : Nat := 0x40060044
def APM_WAKE_UP.SRC : Fld := ⟨APM_WAKE_UP.adr, 10, 0⟩
/-- Address of `APM_WAKE_STAT` (spec/15_power_and_clocks.md). -/
def APM_WAKE_STAT.adr : Nat := 0x40060048
def APM_WAKE_STAT.SRC : Fld := ⟨APM_WAKE_STAT.adr, 10, 0⟩
/-- Address of `APM_LWAKE` (spec/15_power_and_clocks.md). -/
def APM_LWAKE.adr : Nat := 0x4006004c
def APM_LWAKE.LEN : Fld := ⟨APM_LWAKE.adr, 15, 8⟩
def APM_LWAKE.REPEAT : Fld := ⟨APM_LWAKE.adr, 1, 1⟩
def APM_LWAKE.LWSEL : Fld := ⟨APM_LWAKE.adr, 0, 0⟩
/-- Address of `APM_CLK` (spec/15_power_and_clocks.md). -/
def APM_CLK.adr : Nat := 0x40060050
def APM_CLK.BRCF : Fld := ⟨APM_CLK.adr, 8, 8⟩
def APM_CLK.XOSTART : Fld := ⟨APM_CLK.adr, 6, 4⟩
def APM_CLK.XOEN : Fld := ⟨APM_CLK.adr, 0, 0⟩
/-- Address of `APM_CLKSTAT` (spec/15_power_and_clocks.md). -/
def APM_CLKSTAT.adr : Nat := 0x40060054
def APM_CLKSTAT.BRCRUN : Fld := ⟨APM_CLKSTAT.adr, 3, 3⟩
def APM_CLKSTAT.XOLOST : Fld := ⟨APM_CLKSTAT.adr, 2, 2⟩
def APM_CLKSTAT.XORDY : Fld := ⟨APM_CLKSTAT.adr, 0, 0⟩
/-- Address of `APM_CLKEN` (spec/15_power_and_clocks.md). -/
def APM_CLKEN.adr : Nat := 0x40060058
def APM_CLKEN.BLOCKS : Fld := ⟨APM_CLKEN.adr, 3, 0⟩
/-- Address of `APM_CLKRUN` (spec/15_power_and_clocks.md). -/
def APM_CLKRUN.adr : Nat := 0x4006005c
def APM_CLKRUN.BLOCKS : Fld := ⟨APM_CLKRUN.adr, 3, 0⟩
/-- Address of `HRV_CTRL` (spec/16_harvest_and_backup.md). -/
def HRV_CTRL.adr : Nat := 0x40040000
def HRV_CTRL.CHGI : Fld := ⟨HRV_CTRL.adr, 11, 8⟩
def HRV_CTRL.HEN : Fld := ⟨HRV_CTRL.adr, 0, 0⟩
/-- Address of `HRV_MPPT` (spec/16_harvest_and_backup.md). -/
def HRV_MPPT.adr : Nat := 0x40040004
def HRV_MPPT.PER : Fld := ⟨HRV_MPPT.adr, 19, 16⟩
def HRV_MPPT.FRAC : Fld := ⟨HRV_MPPT.adr, 13, 8⟩
/-- Address of `HRV_VOC` (spec/16_harvest_and_backup.md). -/
def HRV_VOC.adr : Nat := 0x40040008
def HRV_VOC.MV : Fld := ⟨HRV_VOC.adr, 15, 0⟩
/-- Address of `HRV_VIN` (spec/16_harvest_and_backup.md). -/
def HRV_VIN.adr : Nat := 0x4004000c
def HRV_VIN.MV : Fld := ⟨HRV_VIN.adr, 15, 0⟩
/-- Address of `HRV_VSTORE` (spec/16_harvest_and_backup.md). -/
def HRV_VSTORE.adr : Nat := 0x40040010
def HRV_VSTORE.MV : Fld := ⟨HRV_VSTORE.adr, 15, 0⟩
/-- Address of `HRV_MODEL` (spec/16_harvest_and_backup.md). -/
def HRV_MODEL.adr : Nat := 0x40040014
def HRV_MODEL.TYPE : Fld := ⟨HRV_MODEL.adr, 31, 30⟩
def HRV_MODEL.CAP : Fld := ⟨HRV_MODEL.adr, 23, 0⟩
/-- Address of `HRV_VTH` (spec/16_harvest_and_backup.md). -/
def HRV_VTH.adr : Nat := 0x40040018
def HRV_VTH.VWARN : Fld := ⟨HRV_VTH.adr, 31, 24⟩
def HRV_VTH.VSEAL : Fld := ⟨HRV_VTH.adr, 23, 16⟩
def HRV_VTH.VEXIT : Fld := ⟨HRV_VTH.adr, 15, 8⟩
def HRV_VTH.VMAX : Fld := ⟨HRV_VTH.adr, 7, 0⟩
/-- Address of `HRV_TITHE` (spec/16_harvest_and_backup.md). -/
def HRV_TITHE.adr : Nat := 0x4004001c
def HRV_TITHE.VFLOOR : Fld := ⟨HRV_TITHE.adr, 31, 24⟩
def HRV_TITHE.TITHE : Fld := ⟨HRV_TITHE.adr, 23, 0⟩
/-- Address of `HRV_STAT` (spec/16_harvest_and_backup.md). -/
def HRV_STAT.adr : Nat := 0x40040028
def HRV_STAT.SEALING : Fld := ⟨HRV_STAT.adr, 6, 6⟩
def HRV_STAT.FULL : Fld := ⟨HRV_STAT.adr, 5, 5⟩
def HRV_STAT.COLD : Fld := ⟨HRV_STAT.adr, 4, 4⟩
def HRV_STAT.BOWARN : Fld := ⟨HRV_STAT.adr, 3, 3⟩
def HRV_STAT.THRX : Fld := ⟨HRV_STAT.adr, 2, 2⟩
def HRV_STAT.VSYS : Fld := ⟨HRV_STAT.adr, 1, 1⟩
def HRV_STAT.SRC : Fld := ⟨HRV_STAT.adr, 0, 0⟩
/-- Address of `HRV_WAKETH` (spec/16_harvest_and_backup.md). -/
def HRV_WAKETH.adr : Nat := 0x4004002c
def HRV_WAKETH.DIR : Fld := ⟨HRV_WAKETH.adr, 31, 31⟩
def HRV_WAKETH.LEVEL : Fld := ⟨HRV_WAKETH.adr, 23, 0⟩
/-- Address of `HRV_PURSE` (spec/16_harvest_and_backup.md). -/
def HRV_PURSE.adr : Nat := 0x40040020
def HRV_PURSE.UJ : Fld := ⟨HRV_PURSE.adr, 23, 0⟩
/-- Address of `HRV_AVAIL` (spec/16_harvest_and_backup.md). -/
def HRV_AVAIL.adr : Nat := 0x40040024
def HRV_AVAIL.UJ : Fld := ⟨HRV_AVAIL.adr, 23, 0⟩
/-- Address of `HRV_GRANT` (spec/16_harvest_and_backup.md). -/
def HRV_GRANT.adr (n : Nat) : Nat := 0x40040040 + 0x4 * n
def HRV_GRANT.REQ (n : Nat) : Fld := ⟨HRV_GRANT.adr n, 31, 31⟩
def HRV_GRANT.RET (n : Nat) : Fld := ⟨HRV_GRANT.adr n, 30, 30⟩
def HRV_GRANT.GRANTED (n : Nat) : Fld := ⟨HRV_GRANT.adr n, 29, 29⟩
def HRV_GRANT.DENIED (n : Nat) : Fld := ⟨HRV_GRANT.adr n, 28, 28⟩
def HRV_GRANT.WARN (n : Nat) : Fld := ⟨HRV_GRANT.adr n, 27, 27⟩
def HRV_GRANT.REVOKED (n : Nat) : Fld := ⟨HRV_GRANT.adr n, 26, 26⟩
def HRV_GRANT.AMOUNT (n : Nat) : Fld := ⟨HRV_GRANT.adr n, 23, 0⟩
/-- Address of `RTC_TIME` (spec/17_clock_calendar_and_serial.md). -/
def RTC_TIME.adr : Nat := 0x40000000
def RTC_TIME.HOUR : Fld := ⟨RTC_TIME.adr, 23, 16⟩
def RTC_TIME.MIN : Fld := ⟨RTC_TIME.adr, 15, 8⟩
def RTC_TIME.SEC : Fld := ⟨RTC_TIME.adr, 7, 0⟩
/-- Address of `RTC_DATE` (spec/17_clock_calendar_and_serial.md). -/
def RTC_DATE.adr : Nat := 0x40000004
def RTC_DATE.YEAR : Fld := ⟨RTC_DATE.adr, 31, 16⟩
def RTC_DATE.MONTH : Fld := ⟨RTC_DATE.adr, 11, 8⟩
def RTC_DATE.DAY : Fld := ⟨RTC_DATE.adr, 4, 0⟩
/-- Address of `RTC_SUBSEC` (spec/17_clock_calendar_and_serial.md). -/
def RTC_SUBSEC.adr : Nat := 0x40000008
def RTC_SUBSEC.SUB : Fld := ⟨RTC_SUBSEC.adr, 14, 0⟩
/-- Address of `RTC_WDAY` (spec/17_clock_calendar_and_serial.md). -/
def RTC_WDAY.adr : Nat := 0x4000000c
def RTC_WDAY.WDAY : Fld := ⟨RTC_WDAY.adr, 2, 0⟩
/-- Address of `RTC_RELEASE` (spec/17_clock_calendar_and_serial.md). -/
def RTC_RELEASE.adr : Nat := 0x40000010
def RTC_RELEASE.REL : Fld := ⟨RTC_RELEASE.adr, 0, 0⟩
/-- Address of `RTC_SET_TIME` (spec/17_clock_calendar_and_serial.md). -/
def RTC_SET_TIME.adr : Nat := 0x40000014
def RTC_SET_TIME.TIME : Fld := ⟨RTC_SET_TIME.adr, 23, 0⟩
/-- Address of `RTC_SET_DATE` (spec/17_clock_calendar_and_serial.md). -/
def RTC_SET_DATE.adr : Nat := 0x40000018
def RTC_SET_DATE.DATE : Fld := ⟨RTC_SET_DATE.adr, 31, 0⟩
/-- Address of `RTC_APPLY` (spec/17_clock_calendar_and_serial.md). -/
def RTC_APPLY.adr : Nat := 0x4000001c
def RTC_APPLY.GO : Fld := ⟨RTC_APPLY.adr, 31, 31⟩
def RTC_APPLY.SETWD : Fld := ⟨RTC_APPLY.adr, 30, 30⟩
def RTC_APPLY.WDAY : Fld := ⟨RTC_APPLY.adr, 18, 16⟩
def RTC_APPLY.SUB : Fld := ⟨RTC_APPLY.adr, 14, 0⟩
/-- Address of `RTC_STAT` (spec/17_clock_calendar_and_serial.md). -/
def RTC_STAT.adr : Nat := 0x40000020
def RTC_STAT.WRAP : Fld := ⟨RTC_STAT.adr, 6, 6⟩
def RTC_STAT.PWK : Fld := ⟨RTC_STAT.adr, 5, 5⟩
def RTC_STAT.ALM : Fld := ⟨RTC_STAT.adr, 4, 4⟩
def RTC_STAT.BADSET : Fld := ⟨RTC_STAT.adr, 3, 3⟩
def RTC_STAT.FROZEN : Fld := ⟨RTC_STAT.adr, 2, 2⟩
def RTC_STAT.LRC : Fld := ⟨RTC_STAT.adr, 1, 1⟩
def RTC_STAT.SET : Fld := ⟨RTC_STAT.adr, 0, 0⟩
/-- Address of `RTC_ALM_TIME` (spec/17_clock_calendar_and_serial.md). -/
def RTC_ALM_TIME.adr : Nat := 0x40000024
def RTC_ALM_TIME.TIME : Fld := ⟨RTC_ALM_TIME.adr, 23, 0⟩
/-- Address of `RTC_ALM_DATE` (spec/17_clock_calendar_and_serial.md). -/
def RTC_ALM_DATE.adr : Nat := 0x40000028
def RTC_ALM_DATE.DATE : Fld := ⟨RTC_ALM_DATE.adr, 31, 0⟩
/-- Address of `RTC_ALM_CTRL` (spec/17_clock_calendar_and_serial.md). -/
def RTC_ALM_CTRL.adr : Nat := 0x4000002c
def RTC_ALM_CTRL.MASK : Fld := ⟨RTC_ALM_CTRL.adr, 6, 1⟩
def RTC_ALM_CTRL.EN : Fld := ⟨RTC_ALM_CTRL.adr, 0, 0⟩
/-- Address of `RTC_PWAKE` (spec/17_clock_calendar_and_serial.md). -/
def RTC_PWAKE.adr : Nat := 0x40000030
def RTC_PWAKE.EN : Fld := ⟨RTC_PWAKE.adr, 31, 31⟩
def RTC_PWAKE.X64 : Fld := ⟨RTC_PWAKE.adr, 30, 30⟩
def RTC_PWAKE.COUNT : Fld := ⟨RTC_PWAKE.adr, 23, 0⟩
/-- Address of `RTC_TRIM` (spec/17_clock_calendar_and_serial.md). -/
def RTC_TRIM.adr : Nat := 0x40000034
def RTC_TRIM.TRIM : Fld := ⟨RTC_TRIM.adr, 7, 0⟩
/-- Address of `U_DATA` (spec/17_clock_calendar_and_serial.md). -/
def U_DATA.adr (n : Nat) : Nat := 0x40010000 + 0x100 * n
def U_DATA.VALID (n : Nat) : Fld := ⟨U_DATA.adr n, 31, 31⟩
def U_DATA.BRK (n : Nat) : Fld := ⟨U_DATA.adr n, 12, 12⟩
def U_DATA.FE (n : Nat) : Fld := ⟨U_DATA.adr n, 11, 11⟩
def U_DATA.PE (n : Nat) : Fld := ⟨U_DATA.adr n, 10, 10⟩
def U_DATA.DATA (n : Nat) : Fld := ⟨U_DATA.adr n, 8, 0⟩
/-- Address of `U_CTRL` (spec/17_clock_calendar_and_serial.md). -/
def U_CTRL.adr (n : Nat) : Nat := 0x40010004 + 0x100 * n
def U_CTRL.ABEN (n : Nat) : Fld := ⟨U_CTRL.adr n, 15, 15⟩
def U_CTRL.ABCH (n : Nat) : Fld := ⟨U_CTRL.adr n, 14, 14⟩
def U_CTRL.RXFLUSH (n : Nat) : Fld := ⟨U_CTRL.adr n, 13, 13⟩
def U_CTRL.TXFLUSH (n : Nat) : Fld := ⟨U_CTRL.adr n, 12, 12⟩
def U_CTRL.CLKSEL (n : Nat) : Fld := ⟨U_CTRL.adr n, 11, 11⟩
def U_CTRL.ADDR9 (n : Nat) : Fld := ⟨U_CTRL.adr n, 10, 10⟩
def U_CTRL.CTSEN (n : Nat) : Fld := ⟨U_CTRL.adr n, 9, 9⟩
def U_CTRL.RTSEN (n : Nat) : Fld := ⟨U_CTRL.adr n, 8, 8⟩
def U_CTRL.PAR (n : Nat) : Fld := ⟨U_CTRL.adr n, 7, 6⟩
def U_CTRL.STOP2 (n : Nat) : Fld := ⟨U_CTRL.adr n, 5, 5⟩
def U_CTRL.DATA9 (n : Nat) : Fld := ⟨U_CTRL.adr n, 4, 4⟩
def U_CTRL.SH210 (n : Nat) : Fld := ⟨U_CTRL.adr n, 3, 3⟩
def U_CTRL.TXEN (n : Nat) : Fld := ⟨U_CTRL.adr n, 1, 1⟩
def U_CTRL.RXEN (n : Nat) : Fld := ⟨U_CTRL.adr n, 0, 0⟩
/-- Address of `U_BAUD` (spec/17_clock_calendar_and_serial.md). -/
def U_BAUD.adr (n : Nat) : Nat := 0x40010008 + 0x100 * n
def U_BAUD.DIV (n : Nat) : Fld := ⟨U_BAUD.adr n, 27, 0⟩
/-- Address of `U_XBAUD` (spec/17_clock_calendar_and_serial.md). -/
def U_XBAUD.adr (n : Nat) : Nat := 0x4001000c + 0x100 * n
def U_XBAUD.DIV (n : Nat) : Fld := ⟨U_XBAUD.adr n, 15, 0⟩
/-- Address of `U_QCFG` (spec/17_clock_calendar_and_serial.md). -/
def U_QCFG.adr (n : Nat) : Nat := 0x40010010 + 0x100 * n
def U_QCFG.TXDEPTH (n : Nat) : Fld := ⟨U_QCFG.adr n, 26, 24⟩
def U_QCFG.RXDEPTH (n : Nat) : Fld := ⟨U_QCFG.adr n, 18, 16⟩
def U_QCFG.TXTRIG (n : Nat) : Fld := ⟨U_QCFG.adr n, 14, 8⟩
def U_QCFG.RXTRIG (n : Nat) : Fld := ⟨U_QCFG.adr n, 6, 0⟩
/-- Address of `U_STAT` (spec/17_clock_calendar_and_serial.md). -/
def U_STAT.adr (n : Nat) : Nat := 0x40010014 + 0x100 * n
def U_STAT.TXCNT (n : Nat) : Fld := ⟨U_STAT.adr n, 31, 24⟩
def U_STAT.RXCNT (n : Nat) : Fld := ⟨U_STAT.adr n, 23, 16⟩
def U_STAT.SLOW (n : Nat) : Fld := ⟨U_STAT.adr n, 9, 9⟩
def U_STAT.ABFAIL (n : Nat) : Fld := ⟨U_STAT.adr n, 8, 8⟩
def U_STAT.ABDONE (n : Nat) : Fld := ⟨U_STAT.adr n, 7, 7⟩
def U_STAT.MATCH (n : Nat) : Fld := ⟨U_STAT.adr n, 6, 6⟩
def U_STAT.IDLE (n : Nat) : Fld := ⟨U_STAT.adr n, 5, 5⟩
def U_STAT.GLITCH (n : Nat) : Fld := ⟨U_STAT.adr n, 4, 4⟩
def U_STAT.ERR (n : Nat) : Fld := ⟨U_STAT.adr n, 3, 3⟩
def U_STAT.TOVR (n : Nat) : Fld := ⟨U_STAT.adr n, 2, 2⟩
def U_STAT.ROVR (n : Nat) : Fld := ⟨U_STAT.adr n, 1, 1⟩
/-- Address of `U_IEN` (spec/17_clock_calendar_and_serial.md). -/
def U_IEN.adr (n : Nat) : Nat := 0x40010018 + 0x100 * n
def U_IEN.EN (n : Nat) : Fld := ⟨U_IEN.adr n, 6, 0⟩
/-- Address of `U_ADDR` (spec/17_clock_calendar_and_serial.md). -/
def U_ADDR.adr (n : Nat) : Nat := 0x4001001c + 0x100 * n
def U_ADDR.MASK1 (n : Nat) : Fld := ⟨U_ADDR.adr n, 31, 24⟩
def U_ADDR.ADDR1 (n : Nat) : Fld := ⟨U_ADDR.adr n, 23, 16⟩
def U_ADDR.MASK0 (n : Nat) : Fld := ⟨U_ADDR.adr n, 15, 8⟩
def U_ADDR.ADDR0 (n : Nat) : Fld := ⟨U_ADDR.adr n, 7, 0⟩
/-- Address of `U_FLOW` (spec/17_clock_calendar_and_serial.md). -/
def U_FLOW.adr (n : Nat) : Nat := 0x40010020 + 0x100 * n
def U_FLOW.HIMARK (n : Nat) : Fld := ⟨U_FLOW.adr n, 14, 8⟩
def U_FLOW.LOMARK (n : Nat) : Fld := ⟨U_FLOW.adr n, 6, 0⟩
/-- Address of `TCH_CTRL` (spec/18_touch_and_segment_display.md). -/
def TCH_CTRL.adr : Nat := 0x40020000
def TCH_CTRL.KEYEN : Fld := ⟨TCH_CTRL.adr, 31, 16⟩
def TCH_CTRL.WETKEY : Fld := ⟨TCH_CTRL.adr, 15, 12⟩
def TCH_CTRL.WETEN : Fld := ⟨TCH_CTRL.adr, 11, 11⟩
def TCH_CTRL.NY : Fld := ⟨TCH_CTRL.adr, 10, 8⟩
def TCH_CTRL.NX : Fld := ⟨TCH_CTRL.adr, 7, 5⟩
def TCH_CTRL.MXFULL : Fld := ⟨TCH_CTRL.adr, 4, 4⟩
def TCH_CTRL.CNSW : Fld := ⟨TCH_CTRL.adr, 3, 3⟩
def TCH_CTRL.GUARD : Fld := ⟨TCH_CTRL.adr, 2, 2⟩
def TCH_CTRL.MODE : Fld := ⟨TCH_CTRL.adr, 1, 1⟩
def TCH_CTRL.EN : Fld := ⟨TCH_CTRL.adr, 0, 0⟩
/-- Address of `TCH_FREQ` (spec/18_touch_and_segment_display.md). -/
def TCH_FREQ.adr : Nat := 0x40020004
def TCH_FREQ.NP : Fld := ⟨TCH_FREQ.adr, 26, 24⟩
def TCH_FREQ.F2 : Fld := ⟨TCH_FREQ.adr, 21, 16⟩
def TCH_FREQ.F1 : Fld := ⟨TCH_FREQ.adr, 13, 8⟩
def TCH_FREQ.F0 : Fld := ⟨TCH_FREQ.adr, 5, 0⟩
/-- Address of `TCH_THR` (spec/18_touch_and_segment_display.md). -/
def TCH_THR.adr : Nat := 0x40020008
def TCH_THR.RTH : Fld := ⟨TCH_THR.adr, 27, 16⟩
def TCH_THR.TTH : Fld := ⟨TCH_THR.adr, 11, 0⟩
/-- Address of `TCH_CAL` (spec/18_touch_and_segment_display.md). -/
def TCH_CAL.adr : Nat := 0x4002000c
def TCH_CAL.MAXON : Fld := ⟨TCH_CAL.adr, 31, 24⟩
def TCH_CAL.NTH : Fld := ⟨TCH_CAL.adr, 23, 12⟩
def TCH_CAL.DEB : Fld := ⟨TCH_CAL.adr, 11, 8⟩
def TCH_CAL.BTRK : Fld := ⟨TCH_CAL.adr, 7, 0⟩
/-- Address of `TCH_NOISE` (spec/18_touch_and_segment_display.md). -/
def TCH_NOISE.adr : Nat := 0x40020010
def TCH_NOISE.NF : Fld := ⟨TCH_NOISE.adr, 1, 0⟩
/-- Address of `TCH_WET` (spec/18_touch_and_segment_display.md). -/
def TCH_WET.adr : Nat := 0x40020014
def TCH_WET.WETREL : Fld := ⟨TCH_WET.adr, 27, 16⟩
def TCH_WET.WETTH : Fld := ⟨TCH_WET.adr, 11, 0⟩
/-- Address of `TCH_STAT` (spec/18_touch_and_segment_display.md). -/
def TCH_STAT.adr : Nat := 0x40020030
def TCH_STAT.CNTASK : Fld := ⟨TCH_STAT.adr, 10, 10⟩
def TCH_STAT.CN : Fld := ⟨TCH_STAT.adr, 9, 9⟩
def TCH_STAT.WET : Fld := ⟨TCH_STAT.adr, 8, 8⟩
def TCH_STAT.LEVEL : Fld := ⟨TCH_STAT.adr, 7, 6⟩
def TCH_STAT.CAL : Fld := ⟨TCH_STAT.adr, 5, 5⟩
def TCH_STAT.ROVR : Fld := ⟨TCH_STAT.adr, 2, 2⟩
def TCH_STAT.STUCK : Fld := ⟨TCH_STAT.adr, 1, 1⟩
def TCH_STAT.NEGCAL : Fld := ⟨TCH_STAT.adr, 0, 0⟩
/-- Address of `TCH_REPORT` (spec/18_touch_and_segment_display.md). -/
def TCH_REPORT.adr : Nat := 0x40020034
def TCH_REPORT.VALID : Fld := ⟨TCH_REPORT.adr, 31, 31⟩
def TCH_REPORT.KIND : Fld := ⟨TCH_REPORT.adr, 10, 8⟩
def TCH_REPORT.KEY : Fld := ⟨TCH_REPORT.adr, 5, 0⟩
/-- Address of `TCH_LEVEL` (spec/18_touch_and_segment_display.md). -/
def TCH_LEVEL.adr (n : Nat) : Nat := 0x40020020 + 0x4 * n
def TCH_LEVEL.IDLE (n : Nat) : Fld := ⟨TCH_LEVEL.adr n, 23, 16⟩
def TCH_LEVEL.PERIOD (n : Nat) : Fld := ⟨TCH_LEVEL.adr n, 15, 0⟩
/-- Address of `TCH_KEY` (spec/18_touch_and_segment_display.md). -/
def TCH_KEY.adr (n : Nat) : Nat := 0x40020100 + 0x4 * n
def TCH_KEY.RAW (n : Nat) : Fld := ⟨TCH_KEY.adr n, 31, 16⟩
def TCH_KEY.BASE (n : Nat) : Fld := ⟨TCH_KEY.adr n, 15, 0⟩
/-- Address of `TCH_STATE_LO` (spec/18_touch_and_segment_display.md). -/
def TCH_STATE_LO.adr : Nat := 0x40020038
def TCH_STATE_LO.PRESSED : Fld := ⟨TCH_STATE_LO.adr, 31, 0⟩
/-- Address of `TCH_STATE_HI` (spec/18_touch_and_segment_display.md). -/
def TCH_STATE_HI.adr : Nat := 0x4002003c
def TCH_STATE_HI.PRESSED : Fld := ⟨TCH_STATE_HI.adr, 31, 0⟩
/-- Address of `TCH_RECAL_LO` (spec/18_touch_and_segment_display.md). -/
def TCH_RECAL_LO.adr : Nat := 0x40020040
def TCH_RECAL_LO.KEYS : Fld := ⟨TCH_RECAL_LO.adr, 31, 0⟩
/-- Address of `TCH_RECAL_HI` (spec/18_touch_and_segment_display.md). -/
def TCH_RECAL_HI.adr : Nat := 0x40020044
def TCH_RECAL_HI.KEYS : Fld := ⟨TCH_RECAL_HI.adr, 31, 0⟩
/-- Address of `LCD_CTRL` (spec/18_touch_and_segment_display.md). -/
def LCD_CTRL.adr : Nat := 0x40030000
def LCD_CTRL.TRIMEN : Fld := ⟨LCD_CTRL.adr, 3, 3⟩
def LCD_CTRL.BIAS : Fld := ⟨LCD_CTRL.adr, 2, 2⟩
def LCD_CTRL.MUX : Fld := ⟨LCD_CTRL.adr, 1, 1⟩
def LCD_CTRL.EN : Fld := ⟨LCD_CTRL.adr, 0, 0⟩
/-- Address of `LCD_UPD` (spec/18_touch_and_segment_display.md). -/
def LCD_UPD.adr : Nat := 0x40030004
def LCD_UPD.REQ : Fld := ⟨LCD_UPD.adr, 7, 0⟩
/-- Address of `LCD_STAT` (spec/18_touch_and_segment_display.md). -/
def LCD_STAT.adr : Nat := 0x40030008
def LCD_STAT.BAND : Fld := ⟨LCD_STAT.adr, 27, 24⟩
def LCD_STAT.SUPERSEDED : Fld := ⟨LCD_STAT.adr, 23, 16⟩
def LCD_STAT.PEND : Fld := ⟨LCD_STAT.adr, 15, 8⟩
def LCD_STAT.PUMPOK : Fld := ⟨LCD_STAT.adr, 2, 2⟩
def LCD_STAT.TRIMBUSY : Fld := ⟨LCD_STAT.adr, 1, 1⟩
def LCD_STAT.TRIMERR : Fld := ⟨LCD_STAT.adr, 0, 0⟩
/-- Address of `LCD_TEMP` (spec/18_touch_and_segment_display.md). -/
def LCD_TEMP.adr : Nat := 0x4003000c
def LCD_TEMP.TEMP : Fld := ⟨LCD_TEMP.adr, 7, 0⟩
/-- Address of `LCD_TRIM` (spec/18_touch_and_segment_display.md). -/
def LCD_TRIM.adr : Nat := 0x40030010
def LCD_TRIM.LOAD : Fld := ⟨LCD_TRIM.adr, 31, 31⟩
def LCD_TRIM.OFFS : Fld := ⟨LCD_TRIM.adr, 17, 0⟩
/-- Address of `LCD_BAND` (spec/18_touch_and_segment_display.md). -/
def LCD_BAND.adr (n : Nat) : Nat := 0x40030020 + 0x4 * n
def LCD_BAND.LIM (n : Nat) : Fld := ⟨LCD_BAND.adr n, 31, 24⟩
def LCD_BAND.RATE (n : Nat) : Fld := ⟨LCD_BAND.adr n, 10, 8⟩
def LCD_BAND.CODE (n : Nat) : Fld := ⟨LCD_BAND.adr n, 5, 0⟩
/-- Address of `LCD_FRAME` (spec/18_touch_and_segment_display.md). -/
def LCD_FRAME.adr (n : Nat) : Nat := 0x40030100 + 0x4 * n
def LCD_FRAME.SEG (n : Nat) : Fld := ⟨LCD_FRAME.adr n, 31, 0⟩
/-- Address of `APM_RSTCAUSE` (spec/19_startup_and_reset.md). -/
def APM_RSTCAUSE.adr : Nat := 0x40060060
def APM_RSTCAUSE.CORE : Fld := ⟨APM_RSTCAUSE.adr, 15, 12⟩
def APM_RSTCAUSE.RETURN : Fld := ⟨APM_RSTCAUSE.adr, 10, 10⟩
def APM_RSTCAUSE.WDOG : Fld := ⟨APM_RSTCAUSE.adr, 9, 9⟩
def APM_RSTCAUSE.REQLINK : Fld := ⟨APM_RSTCAUSE.adr, 8, 8⟩
def APM_RSTCAUSE.REQFAST : Fld := ⟨APM_RSTCAUSE.adr, 7, 7⟩
def APM_RSTCAUSE.REQAO : Fld := ⟨APM_RSTCAUSE.adr, 6, 6⟩
def APM_RSTCAUSE.MGTDF : Fld := ⟨APM_RSTCAUSE.adr, 5, 5⟩
def APM_RSTCAUSE.AODF : Fld := ⟨APM_RSTCAUSE.adr, 4, 4⟩
def APM_RSTCAUSE.VSYSF : Fld := ⟨APM_RSTCAUSE.adr, 3, 3⟩
def APM_RSTCAUSE.CELLAR : Fld := ⟨APM_RSTCAUSE.adr, 2, 2⟩
def APM_RSTCAUSE.PIN : Fld := ⟨APM_RSTCAUSE.adr, 1, 1⟩
def APM_RSTCAUSE.POR : Fld := ⟨APM_RSTCAUSE.adr, 0, 0⟩
/-- Address of `APM_RSTREQ` (spec/19_startup_and_reset.md). -/
def APM_RSTREQ.adr : Nat := 0x40060064
def APM_RSTREQ.LINK : Fld := ⟨APM_RSTREQ.adr, 2, 2⟩
def APM_RSTREQ.FAST : Fld := ⟨APM_RSTREQ.adr, 1, 1⟩
def APM_RSTREQ.AO : Fld := ⟨APM_RSTREQ.adr, 0, 0⟩
/-- Address of `APM_STRAP` (spec/19_startup_and_reset.md). -/
def APM_STRAP.adr : Nat := 0x40060068
def APM_STRAP.GPOL : Fld := ⟨APM_STRAP.adr, 2, 2⟩
def APM_STRAP.BOOT : Fld := ⟨APM_STRAP.adr, 1, 0⟩
/-- Address of `CPM_WDOG` (spec/19_startup_and_reset.md). -/
def CPM_WDOG.adr : Nat := 0x30a00020
def CPM_WDOG.EN : Fld := ⟨CPM_WDOG.adr, 31, 31⟩
def CPM_WDOG.RSTEN : Fld := ⟨CPM_WDOG.adr, 30, 30⟩
def CPM_WDOG.KICK : Fld := ⟨CPM_WDOG.adr, 29, 29⟩
def CPM_WDOG.TIMEOUT : Fld := ⟨CPM_WDOG.adr, 15, 0⟩
/-- Address of `CPM_BOOT` (spec/19_startup_and_reset.md). -/
def CPM_BOOT.adr : Nat := 0x30a00024
def CPM_BOOT.FWMAJ : Fld := ⟨CPM_BOOT.adr, 31, 24⟩
def CPM_BOOT.FWMIN : Fld := ⟨CPM_BOOT.adr, 23, 16⟩
def CPM_BOOT.FB : Fld := ⟨CPM_BOOT.adr, 12, 12⟩
def CPM_BOOT.FWST : Fld := ⟨CPM_BOOT.adr, 11, 8⟩
def CPM_BOOT.SLOT : Fld := ⟨CPM_BOOT.adr, 0, 0⟩
/-- Address of `CPM_AVS` (spec/20_electrical_and_package.md). -/
def CPM_AVS.adr : Nat := 0x30a00030
def CPM_AVS.VALID : Fld := ⟨CPM_AVS.adr, 16, 16⟩
def CPM_AVS.MV : Fld := ⟨CPM_AVS.adr, 9, 0⟩

/-- The registers of the TRK region. -/
def regRowsTRK : List RegRow := [⟨"TRK_ANG", 0x30000000, 16, 0x100, 1, 0x4, [⟨31, 0, .ro, 0⟩]⟩,
  ⟨"TRK_TURN", 0x30000004, 16, 0x100, 1, 0x4, [⟨15, 0, .ro, 0⟩]⟩,
  ⟨"TRK_VEL_LO", 0x30000008, 16, 0x100, 1, 0x4, [⟨31, 0, .ro, 0⟩]⟩,
  ⟨"TRK_VEL_HI", 0x3000000c, 16, 0x100, 1, 0x4, [⟨15, 0, .ro, 0⟩]⟩,
  ⟨"TRK_ACC", 0x30000010, 16, 0x100, 1, 0x4, [⟨31, 0, .ro, 0⟩]⟩,
  ⟨"TRK_STAT", 0x30000014, 16, 0x100, 1, 0x4, [⟨4, 4, .ro, 0⟩, ⟨3, 3, .ro, 0⟩, ⟨2, 2, .ro, 0⟩, ⟨1, 1, .ro, 0⟩, ⟨0, 0, .ro, 0⟩]⟩,
  ⟨"TRK_FLAGS", 0x30000018, 16, 0x100, 1, 0x4, [⟨9, 9, .w1c, 0⟩, ⟨8, 8, .w1c, 0⟩, ⟨7, 7, .w1c, 0⟩, ⟨6, 6, .w1c, 0⟩, ⟨5, 5, .w1c, 0⟩, ⟨4, 4, .w1c, 0⟩, ⟨3, 3, .w1c, 0⟩, ⟨2, 2, .w1c, 0⟩]⟩,
  ⟨"TRK_CTRL", 0x30000020, 16, 0x100, 1, 0x4, [⟨30, 24, .cd, 1⟩, ⟨10, 8, .cd, 0⟩, ⟨3, 1, .cd, 0⟩, ⟨0, 0, .cd, 0⟩]⟩,
  ⟨"TRK_FILT", 0x30000024, 16, 0x100, 1, 0x4, [⟨27, 18, .st, 0x64⟩, ⟨17, 0, .st, 0x3e8⟩]⟩,
  ⟨"TRK_HYST", 0x30000028, 16, 0x100, 1, 0x4, [⟨20, 0, .st, 0⟩]⟩,
  ⟨"TRK_OFFS", 0x3000002c, 16, 0x100, 1, 0x4, [⟨31, 0, .st, 0⟩]⟩,
  ⟨"TRK_SRCA", 0x30000030, 16, 0x100, 1, 0x4, [⟨20, 20, .cd, 0⟩, ⟨18, 16, .cd, 0⟩, ⟨15, 13, .cd, 0⟩, ⟨12, 8, .cd, 0⟩, ⟨7, 5, .cd, 0⟩, ⟨4, 0, .cd, 0⟩, ⟨25, 25, .cd, 0⟩, ⟨24, 24, .cd, 0⟩, ⟨23, 0, .cd, 0⟩, ⟨27, 16, .cd, 0⟩, ⟨5, 5, .cd, 0⟩, ⟨4, 0, .cd, 0⟩, ⟨23, 21, .cd, 0⟩, ⟨20, 16, .cd, 0⟩, ⟨15, 13, .cd, 0⟩, ⟨12, 8, .cd, 0⟩, ⟨7, 5, .cd, 0⟩, ⟨4, 0, .cd, 0⟩, ⟨4, 4, .cd, 0⟩, ⟨3, 0, .cd, 0⟩, ⟨11, 8, .cd, 0⟩, ⟨5, 0, .cd, 0⟩]⟩,
  ⟨"TRK_SRCB", 0x30000034, 16, 0x100, 1, 0x4, [⟨31, 16, .st, 0⟩, ⟨15, 0, .st, 0⟩, ⟨31, 16, .st, 0⟩, ⟨7, 0, .st, 0⟩, ⟨28, 24, .st, 0⟩, ⟨23, 16, .st, 0⟩, ⟨15, 0, .st, 0⟩, ⟨31, 16, .st, 0⟩, ⟨15, 0, .st, 0⟩]⟩,
  ⟨"TRK_CLKINC_LO", 0x30000038, 16, 0x100, 1, 0x4, [⟨31, 0, .st, 0⟩]⟩,
  ⟨"TRK_CLKINC_HI", 0x3000003c, 16, 0x100, 1, 0x4, [⟨15, 0, .st, 0⟩]⟩,
  ⟨"TRK_OBS_VEL_LO", 0x30000040, 16, 0x100, 1, 0x4, [⟨31, 0, .rw, 0⟩]⟩,
  ⟨"TRK_OBS_VEL_HI", 0x30000044, 16, 0x100, 1, 0x4, [⟨15, 0, .rw, 0⟩]⟩,
  ⟨"TRK_OBS_ACC", 0x30000048, 16, 0x100, 1, 0x4, [⟨31, 0, .rw, 0⟩]⟩,
  ⟨"TRK_OBS_ANG", 0x3000004c, 16, 0x100, 1, 0x4, [⟨31, 0, .rw, 0⟩]⟩,
  ⟨"TRK_IDXCAP", 0x30000050, 16, 0x100, 1, 0x4, [⟨31, 0, .ro, 0⟩]⟩,
  ⟨"EXC_CTRL", 0x30001000, 8, 0x10, 1, 0x4, [⟨27, 16, .st, 0⟩, ⟨15, 8, .st, 0⟩, ⟨7, 4, .cd, 0⟩, ⟨1, 1, .ro, 0⟩, ⟨0, 0, .cd, 0⟩]⟩]

/-- The registers of the ALM region. -/
def regRowsALM : List RegRow := [⟨"ALM_IDX", 0x30100000, 1, 0x4, 1, 0x4, [⟨16, 16, .rw, 0⟩, ⟨9, 0, .rw, 0⟩]⟩,
  ⟨"ALM_W", 0x30100004, 4, 0x4, 1, 0x4, [⟨31, 0, .st, 0⟩]⟩,
  ⟨"ALM_ARM", 0x30100014, 1, 0x4, 1, 0x4, [⟨31, 31, .wo, 0⟩, ⟨9, 0, .wo, 0⟩]⟩,
  ⟨"ALM_STAT", 0x30100018, 1, 0x4, 1, 0x4, [⟨2, 2, .w1c, 0⟩, ⟨1, 1, .w1c, 0⟩, ⟨0, 0, .w1c, 0⟩]⟩,
  ⟨"ALM_LATEIDX", 0x3010001c, 1, 0x4, 1, 0x4, [⟨25, 16, .ro, 0⟩, ⟨9, 0, .ro, 0⟩]⟩,
  ⟨"ALM_FIRED", 0x30100020, 1, 0x4, 1, 0x4, [⟨31, 0, .ro, 0⟩]⟩,
  ⟨"ALM_TRK_CFG", 0x30100100, 16, 0x4, 1, 0x4, [⟨1, 1, .st, 1⟩, ⟨0, 0, .st, 0⟩]⟩,
  ⟨"ALM_TRK_NEXT", 0x30100200, 16, 0x4, 1, 0x4, [⟨31, 31, .ro, 0⟩, ⟨25, 16, .ro, 0⟩, ⟨15, 15, .ro, 0⟩, ⟨10, 10, .ro, 0⟩, ⟨9, 0, .ro, 0⟩]⟩]

/-- The registers of the CNV region. -/
def regRowsCNV : List RegRow := [⟨"CV_DATA", 0x30200000, 24, 0x100, 1, 0x4, [⟨31, 31, .ro, 0⟩, ⟨30, 30, .ro, 0⟩, ⟨29, 29, .ro, 0⟩, ⟨28, 28, .ro, 0⟩, ⟨18, 16, .ro, 0⟩, ⟨15, 0, .ro, 0⟩]⟩,
  ⟨"CV_SEL", 0x30200004, 24, 0x100, 1, 0x4, [⟨2, 0, .rw, 0⟩]⟩,
  ⟨"CV_CFG", 0x30200008, 24, 0x100, 1, 0x4, [⟨18, 16, .st, 0⟩, ⟨5, 4, .cd, 0⟩, ⟨1, 1, .cd, 0⟩, ⟨0, 0, .cd, 0⟩]⟩,
  ⟨"CV_TRIM", 0x3020000c, 24, 0x100, 1, 0x4, [⟨7, 0, .st, 0⟩]⟩,
  ⟨"CV_AVG", 0x30200010, 24, 0x100, 1, 0x4, [⟨7, 4, .st, 0⟩, ⟨3, 0, .st, 0⟩]⟩,
  ⟨"CV_SEQ", 0x30200014, 24, 0x100, 1, 0x4, [⟨27, 27, .st, 0⟩, ⟨26, 24, .st, 0⟩, ⟨23, 0, .st, 0⟩]⟩,
  ⟨"CV_STAT", 0x30200018, 24, 0x100, 1, 0x4, [⟨18, 16, .ro, 0⟩, ⟨7, 7, .w1c, 0⟩, ⟨6, 6, .w1c, 0⟩, ⟨5, 5, .w1c, 0⟩, ⟨4, 4, .w1c, 0⟩, ⟨3, 3, .w1c, 0⟩, ⟨2, 2, .w1c, 0⟩, ⟨1, 1, .w1c, 0⟩, ⟨0, 0, .ro, 0⟩]⟩,
  ⟨"CVPAIR_CFG", 0x30202000, 12, 0x10, 1, 0x4, [⟨11, 8, .st, 0⟩, ⟨0, 0, .cd, 0⟩]⟩,
  ⟨"CVPAIR_WIN", 0x30202004, 12, 0x10, 1, 0x4, [⟨11, 0, .st, 0x40⟩]⟩,
  ⟨"CVPAIR_STAT", 0x30202008, 12, 0x10, 1, 0x4, [⟨31, 31, .w1c, 0⟩, ⟨30, 30, .ro, 0⟩, ⟨19, 16, .ro, 0⟩, ⟨15, 0, .ro, 0⟩]⟩,
  ⟨"CVPAIR_CNT", 0x3020200c, 12, 0x10, 1, 0x4, [⟨31, 0, .ro, 0⟩]⟩,
  ⟨"CMP_CFG", 0x30203000, 32, 0x10, 1, 0x4, [⟨14, 12, .st, 0⟩, ⟨11, 8, .cd, 0⟩, ⟨5, 4, .cd, 3⟩, ⟨1, 1, .cd, 0⟩, ⟨0, 0, .cd, 0⟩]⟩,
  ⟨"CMP_THR", 0x30203004, 32, 0x10, 1, 0x4, [⟨25, 16, .st, 0x3ff⟩, ⟨9, 0, .st, 0⟩]⟩,
  ⟨"CMP_STAT", 0x30203008, 32, 0x10, 1, 0x4, [⟨4, 4, .ro, 0⟩, ⟨3, 3, .w1c, 0⟩, ⟨2, 2, .w1c, 0⟩, ⟨1, 1, .ro, 0⟩, ⟨0, 0, .ro, 0⟩]⟩]

/-- The registers of the SLC region. -/
def regRowsSLC : List RegRow := [⟨"SLC_CTRL", 0x30300000, 16, 0x400, 1, 0x4, [⟨18, 16, .st, 0⟩, ⟨0, 0, .rw, 0⟩]⟩,
  ⟨"SLC_STAT", 0x30300004, 16, 0x400, 1, 0x4, [⟨18, 16, .ro, 0⟩, ⟨15, 15, .w1c, 0⟩, ⟨14, 14, .w1c, 0⟩, ⟨13, 13, .w1c, 0⟩, ⟨12, 12, .w1c, 0⟩, ⟨11, 11, .w1c, 0⟩, ⟨10, 10, .w1c, 0⟩, ⟨9, 9, .w1c, 0⟩, ⟨8, 8, .w1c, 0⟩, ⟨7, 7, .w1c, 0⟩, ⟨6, 6, .w1c, 0⟩, ⟨5, 5, .w1c, 0⟩, ⟨0, 0, .ro, 0⟩]⟩,
  ⟨"SLC_TRIG", 0x30300008, 16, 0x400, 1, 0x4, [⟨1, 0, .cd, 0⟩]⟩,
  ⟨"SLC_PER", 0x3030000c, 16, 0x400, 1, 0x4, [⟨23, 0, .st, 0x271⟩]⟩,
  ⟨"SLC_TRK", 0x30300020, 16, 0x400, 1, 0x4, [⟨12, 8, .st, 0⟩, ⟨4, 4, .cd, 0⟩, ⟨3, 0, .cd, 0⟩]⟩,
  ⟨"SLC_PAIRS", 0x30300024, 16, 0x400, 1, 0x4, [⟨31, 31, .cd, 0⟩, ⟨28, 24, .cd, 0⟩, ⟨23, 23, .cd, 0⟩, ⟨20, 16, .cd, 0⟩, ⟨15, 15, .cd, 0⟩, ⟨12, 8, .cd, 0⟩, ⟨7, 7, .cd, 0⟩, ⟨4, 0, .cd, 0⟩]⟩,
  ⟨"SLC_CMD", 0x30300028, 16, 0x400, 1, 0x4, [⟨8, 8, .wo, 0⟩, ⟨7, 0, .wo, 0⟩]⟩,
  ⟨"SLC_RUNS", 0x3030002c, 16, 0x400, 1, 0x4, [⟨31, 0, .ro, 0⟩]⟩,
  ⟨"SLC_ADV", 0x30300030, 16, 0x400, 1, 0x4, [⟨31, 0, .st, 0⟩]⟩,
  ⟨"SLC_IN", 0x30300010, 16, 0x400, 4, 0x4, [⟨31, 31, .cd, 0⟩, ⟨28, 24, .st, 0x13⟩, ⟨20, 20, .cd, 0⟩, ⟨18, 16, .cd, 0⟩, ⟨8, 8, .cd, 0⟩, ⟨4, 0, .cd, 0⟩]⟩,
  ⟨"SLC_PAR", 0x30300100, 16, 0x400, 32, 0x4, [⟨31, 0, .st, 0⟩]⟩,
  ⟨"SLC_REF", 0x30300180, 16, 0x400, 32, 0x4, [⟨31, 0, .wo, 0⟩]⟩,
  ⟨"SLC_INT", 0x30300200, 16, 0x400, 8, 0x4, [⟨31, 0, .ro, 0⟩]⟩,
  ⟨"SLC_OUT", 0x30300220, 16, 0x400, 4, 0x4, [⟨31, 0, .ro, 0⟩]⟩,
  ⟨"SLC_ENERGY_LO", 0x30300230, 16, 0x400, 1, 0x4, [⟨31, 0, .ro, 0⟩]⟩,
  ⟨"SLC_ENERGY_HI", 0x30300234, 16, 0x400, 1, 0x4, [⟨31, 0, .ro, 0⟩]⟩]

/-- The registers of the GOU region. -/
def regRowsGOU : List RegRow := [⟨"GOU_PAIR_CFG", 0x30400000, 32, 0x40, 1, 0x4, [⟨31, 24, .cd, 0⟩, ⟨23, 20, .cd, 0⟩, ⟨19, 18, .cd, 0⟩, ⟨17, 17, .cd, 0⟩, ⟨16, 16, .st, 0⟩, ⟨15, 14, .st, 1⟩, ⟨13, 13, .st, 0⟩, ⟨12, 12, .st, 0⟩, ⟨9, 8, .cd, 0⟩, ⟨7, 0, .st, 0⟩]⟩,
  ⟨"GOU_PAIR_PHASE", 0x30400004, 32, 0x40, 1, 0x4, [⟨31, 0, .st, 0⟩]⟩,
  ⟨"GOU_PAIR_PAT", 0x30400014, 32, 0x40, 1, 0x4, [⟨28, 16, .st, 0⟩, ⟨11, 0, .st, 0⟩]⟩,
  ⟨"GOU_PAIR_STAT", 0x30400020, 32, 0x40, 1, 0x4, [⟨31, 24, .ro, 0xff⟩, ⟨15, 15, .w1c, 0⟩, ⟨14, 14, .w1c, 0⟩, ⟨13, 13, .w1c, 0⟩, ⟨12, 12, .w1c, 0⟩, ⟨11, 11, .w1c, 0⟩, ⟨10, 10, .w1c, 0⟩, ⟨5, 5, .ro, 0⟩, ⟨4, 4, .ro, 0⟩, ⟨1, 0, .ro, 0⟩]⟩,
  ⟨"GOU_PAIR_DEAD", 0x30400008, 32, 0x40, 1, 0x4, [⟨16, 0, .st, 0⟩]⟩,
  ⟨"GOU_PAIR_MINON", 0x3040000c, 32, 0x40, 1, 0x4, [⟨16, 0, .st, 0⟩]⟩,
  ⟨"GOU_PAIR_MINOFF", 0x30400010, 32, 0x40, 1, 0x4, [⟨16, 0, .st, 0⟩]⟩,
  ⟨"GOU_PAIR_WORD", 0x30400018, 32, 0x40, 1, 0x4, [⟨31, 0, .ro, 0⟩]⟩,
  ⟨"GOU_PAIR_TRIM", 0x3040001c, 32, 0x40, 1, 0x4, [⟨31, 0, .ro, 0⟩]⟩,
  ⟨"GOU_ARMED", 0x30401000, 1, 0x4, 1, 0x4, [⟨31, 0, .ro, 0⟩]⟩,
  ⟨"GOU_ARMREQ", 0x30401004, 1, 0x4, 1, 0x4, [⟨31, 0, .wo, 0⟩]⟩,
  ⟨"GOU_DISARM", 0x30401008, 1, 0x4, 1, 0x4, [⟨31, 0, .wo, 0⟩]⟩,
  ⟨"GOU_TRIPCLR", 0x3040100c, 1, 0x4, 1, 0x4, [⟨31, 0, .wo, 0⟩]⟩,
  ⟨"GOU_TRIPPED", 0x30401010, 1, 0x4, 1, 0x4, [⟨31, 0, .ro, 0⟩]⟩,
  ⟨"GOU_GEN", 0x30401014, 1, 0x4, 1, 0x4, [⟨2, 2, .w1c, 0⟩, ⟨1, 1, .ro, 0⟩, ⟨0, 0, .rw, 0⟩]⟩,
  ⟨"GOU_POL_LO", 0x30401018, 1, 0x4, 1, 0x4, [⟨31, 0, .cd, 0⟩]⟩,
  ⟨"GOU_POL_HI", 0x3040101c, 1, 0x4, 1, 0x4, [⟨31, 0, .cd, 0⟩]⟩,
  ⟨"GOU_TRIN_CFG", 0x30401020, 1, 0x4, 1, 0x4, [⟨31, 0, .cd, 0⟩]⟩,
  ⟨"GOU_RTRIP", 0x30401024, 1, 0x4, 1, 0x4, [⟨15, 8, .cd, 0⟩, ⟨0, 0, .w1c, 0⟩]⟩,
  ⟨"GOU_ROUTE", 0x30401040, 16, 0x4, 1, 0x4, [⟨31, 0, .cd, 0⟩]⟩,
  ⟨"GOU_ROUTE16", 0x30401080, 1, 0x4, 1, 0x4, [⟨23, 0, .cd, 0⟩]⟩,
  ⟨"GOU_INLVL", 0x30401090, 3, 0x4, 1, 0x4, [⟨31, 0, .ro, 0⟩]⟩]

/-- The registers of the EVF region. -/
def regRowsEVF : List RegRow := [⟨"EVF_SRC_CFG", 0x30500000, 256, 0x10, 1, 0x4, [⟨31, 31, .st, 0⟩, ⟨19, 16, .st, 0⟩, ⟨8, 0, .st, 0x1ff⟩]⟩,
  ⟨"EVF_SRC_TA", 0x30500004, 256, 0x10, 1, 0x4, [⟨31, 0, .st, 0⟩]⟩,
  ⟨"EVF_SRC_TB", 0x30500008, 256, 0x10, 1, 0x4, [⟨31, 0, .st, 0⟩]⟩,
  ⟨"EVF_SRC_CNT", 0x3050000c, 256, 0x10, 1, 0x4, [⟨31, 0, .ro, 0⟩]⟩,
  ⟨"EVF_TLOST", 0x30501000, 8, 0x4, 1, 0x4, [⟨31, 0, .w1c, 0⟩]⟩,
  ⟨"EVF_STAT", 0x30501020, 1, 0x4, 1, 0x4, [⟨0, 0, .w1c, 0⟩]⟩,
  ⟨"EVF_SWEV", 0x30501040, 1, 0x4, 1, 0x4, [⟨15, 0, .wo, 0⟩]⟩,
  ⟨"EVF_CORE_PEND", 0x30501080, 4, 0x4, 1, 0x4, [⟨15, 8, .w1c, 0⟩, ⟨7, 0, .w1c, 0⟩]⟩]

/-- The registers of the MBX region. -/
def regRowsMBX : List RegRow := [⟨"MBX_DPUSH", 0x30600000, 16, 0x20, 1, 0x4, [⟨31, 0, .wo, 0⟩]⟩,
  ⟨"MBX_HPUSH", 0x30600008, 16, 0x20, 1, 0x4, [⟨31, 0, .wo, 0⟩]⟩,
  ⟨"MBX_DPOP", 0x30600004, 16, 0x20, 1, 0x4, [⟨31, 0, .ro, 0⟩]⟩,
  ⟨"MBX_HPOP", 0x3060000c, 16, 0x20, 1, 0x4, [⟨31, 0, .ro, 0⟩]⟩,
  ⟨"MBX_STAT", 0x30600010, 16, 0x20, 1, 0x4, [⟨27, 24, .ro, 0⟩, ⟨19, 16, .ro, 0⟩, ⟨3, 3, .w1c, 0⟩, ⟨2, 2, .w1c, 0⟩, ⟨1, 1, .w1c, 0⟩, ⟨0, 0, .w1c, 0⟩]⟩,
  ⟨"MBX_CFG", 0x30600014, 16, 0x20, 1, 0x4, [⟨11, 8, .rw, 1⟩, ⟨3, 0, .rw, 1⟩]⟩,
  ⟨"MBX_BELL", 0x30601000, 1, 0x4, 1, 0x4, [⟨31, 0, .w1c, 0⟩]⟩,
  ⟨"MBX_BELL_SET", 0x30601004, 1, 0x4, 1, 0x4, [⟨31, 0, .w1s, 0⟩]⟩,
  ⟨"MBX_BELL_OVR", 0x30601008, 1, 0x4, 1, 0x4, [⟨31, 0, .w1c, 0⟩]⟩]

/-- The registers of the GRN region. -/
def regRowsGRN : List RegRow := [⟨"GRN_CMD", 0x30700000, 1, 0x4, 1, 0x4, [⟨3, 3, .wo, 0⟩, ⟨2, 2, .wo, 0⟩, ⟨1, 1, .wo, 0⟩, ⟨0, 0, .wo, 0⟩]⟩,
  ⟨"GRN_STAT", 0x30700004, 1, 0x4, 1, 0x4, [⟨11, 8, .ro, 0⟩, ⟨6, 6, .w1c, 0⟩, ⟨5, 5, .w1c, 0⟩, ⟨4, 4, .w1c, 0⟩, ⟨3, 3, .w1c, 0⟩, ⟨1, 0, .ro, 0⟩]⟩,
  ⟨"GRN_POST", 0x30700010, 1, 0x4, 1, 0x4, [⟨31, 0, .rw, 0⟩]⟩,
  ⟨"GRN_BASE", 0x30700008, 1, 0x4, 1, 0x4, [⟨23, 0, .st, 0x124000⟩]⟩,
  ⟨"GRN_SIZE", 0x3070000c, 1, 0x4, 1, 0x4, [⟨23, 0, .st, 0x1dc000⟩]⟩,
  ⟨"GRN_FRZTIME_LO", 0x30700018, 1, 0x4, 1, 0x4, [⟨31, 0, .rw, 0⟩]⟩,
  ⟨"GRN_FRZTIME_HI", 0x3070001c, 1, 0x4, 1, 0x4, [⟨31, 0, .rw, 0⟩]⟩,
  ⟨"GRN_TRIGTIME_LO", 0x30700020, 1, 0x4, 1, 0x4, [⟨31, 0, .ro, 0⟩]⟩,
  ⟨"GRN_TRIGTIME_HI", 0x30700024, 1, 0x4, 1, 0x4, [⟨31, 0, .ro, 0⟩]⟩,
  ⟨"GRN_RECLEN_LO", 0x30700028, 1, 0x4, 1, 0x4, [⟨31, 0, .ro, 0⟩]⟩,
  ⟨"GRN_RECLEN_HI", 0x3070002c, 1, 0x4, 1, 0x4, [⟨31, 0, .ro, 0⟩]⟩,
  ⟨"GRN_GAPS", 0x30700030, 1, 0x4, 1, 0x4, [⟨31, 0, .ro, 0⟩]⟩,
  ⟨"GRN_STR_CFG", 0x30700100, 32, 0x4, 1, 0x4, [⟨30, 30, .st, 0⟩, ⟨26, 24, .st, 0⟩, ⟨20, 20, .st, 1⟩, ⟨18, 16, .st, 0⟩, ⟨12, 8, .st, 0⟩, ⟨4, 0, .st, 0⟩]⟩]

/-- The registers of the MEMC region. -/
def regRowsMEMC : List RegRow := [⟨"MEMC_CFG", 0x30800000, 1, 0x4, 1, 0x4, [⟨1, 0, .cd, 3⟩, ⟨5, 4, .cd, 3⟩]⟩,
  ⟨"MEMC_ECC_STAT", 0x30800100, 1, 0x4, 1, 0x4, [⟨0, 0, .w1c, 0⟩]⟩,
  ⟨"MEMC_ECC_ADDR_LO", 0x30800104, 1, 0x4, 1, 0x4, [⟨31, 0, .ro, 0⟩]⟩,
  ⟨"MEMC_ECC_ADDR_HI", 0x30800108, 1, 0x4, 1, 0x4, [⟨7, 0, .ro, 0⟩]⟩,
  ⟨"MEMC_ECC_CE", 0x3080010c, 1, 0x4, 1, 0x4, [⟨31, 0, .ro, 0⟩]⟩]

/-- The registers of the ETH region. -/
def regRowsETH : List RegRow := [⟨"ETH_ETYPE", 0x30900000, 1, 0x4, 1, 0x4, [⟨15, 0, .lk, 0x88b5⟩]⟩,
  ⟨"ETH_GROUP", 0x30900004, 1, 0x4, 1, 0x4, [⟨15, 0, .st, 0⟩]⟩,
  ⟨"ETH_PORT_CTRL", 0x30900100, 2, 0x100, 1, 0x4, [⟨3, 2, .cd, 0⟩, ⟨1, 1, .cd, 1⟩, ⟨0, 0, .cd, 1⟩]⟩,
  ⟨"RING_CFG", 0x30900400, 1, 0x4, 1, 0x4, [⟨31, 31, .cd, 0⟩, ⟨24, 24, .st, 0⟩, ⟨23, 16, .st, 0xff⟩, ⟨7, 0, .cd, 0⟩]⟩,
  ⟨"RING_SHARE", 0x30900404, 1, 0x4, 1, 0x4, [⟨15, 0, .st, 0⟩]⟩,
  ⟨"RING_STAT", 0x30900408, 1, 0x4, 1, 0x4, [⟨7, 7, .w1c, 0⟩, ⟨6, 6, .w1c, 0⟩, ⟨5, 5, .ro, 0⟩, ⟨4, 4, .w1c, 0⟩, ⟨2, 2, .ro, 0⟩, ⟨1, 1, .ro, 0⟩, ⟨0, 0, .ro, 0⟩]⟩,
  ⟨"RING_PTPOFF", 0x3090040c, 1, 0x4, 1, 0x4, [⟨31, 0, .ro, 0⟩]⟩,
  ⟨"RING_FWDERR", 0x30900418, 1, 0x4, 1, 0x4, [⟨31, 0, .ro, 0⟩]⟩,
  ⟨"RING_HBMAP_LO", 0x30900410, 1, 0x4, 1, 0x4, [⟨31, 0, .ro, 0⟩]⟩,
  ⟨"RING_HBMAP_HI", 0x30900414, 1, 0x4, 1, 0x4, [⟨31, 0, .ro, 0⟩]⟩,
  ⟨"RING_INJ", 0x30900420, 2, 0x4, 1, 0x4, [⟨31, 31, .ro, 0⟩, ⟨30, 30, .w1c, 0⟩, ⟨26, 24, .ro, 0⟩, ⟨15, 0, .ro, 0⟩]⟩]

/-- The registers of the CPM region. -/
def regRowsCPM : List RegRow := [⟨"CPM_ECC_STAT", 0x30a00800, 1, 0x4, 1, 0x4, [⟨0, 0, .w1c, 0⟩]⟩,
  ⟨"CPM_ECC_ADDR_LO", 0x30a00804, 1, 0x4, 1, 0x4, [⟨31, 0, .ro, 0⟩]⟩,
  ⟨"CPM_ECC_ADDR_HI", 0x30a00808, 1, 0x4, 1, 0x4, [⟨7, 0, .ro, 0⟩]⟩,
  ⟨"CPM_ECC_CE", 0x30a0080c, 1, 0x4, 1, 0x4, [⟨31, 0, .ro, 0⟩]⟩,
  ⟨"CPM_PAIR_RST", 0x30a00840, 2, 0x4, 1, 0x4, [⟨11, 8, .ro, 0⟩, ⟨4, 4, .w1c, 0⟩, ⟨3, 3, .wo, 0⟩, ⟨2, 2, .ro, 0⟩, ⟨0, 0, .rw, 1⟩]⟩,
  ⟨"CPM_CLK_CTRL", 0x30a00000, 1, 0x4, 1, 0x4, [⟨8, 8, .rw, 1⟩, ⟨1, 0, .rw, 2⟩]⟩,
  ⟨"CPM_CLK_STAT", 0x30a00004, 1, 0x4, 1, 0x4, [⟨12, 12, .w1c, 0⟩, ⟨11, 11, .w1c, 0⟩, ⟨10, 10, .ro, 0⟩, ⟨9, 9, .ro, 0⟩, ⟨8, 8, .ro, 0⟩, ⟨6, 6, .ro, 0⟩, ⟨5, 5, .ro, 0⟩, ⟨4, 4, .ro, 0⟩, ⟨1, 0, .ro, 2⟩]⟩,
  ⟨"CPM_CLKEN", 0x30a00010, 1, 0x4, 1, 0x4, [⟨9, 0, .rw, 0⟩]⟩,
  ⟨"CPM_CLKRUN", 0x30a00014, 1, 0x4, 1, 0x4, [⟨9, 0, .ro, 0⟩]⟩,
  ⟨"CPM_WDOG", 0x30a00020, 1, 0x4, 1, 0x4, [⟨31, 31, .rw, 0⟩, ⟨30, 30, .rw, 1⟩, ⟨29, 29, .wo, 0⟩, ⟨15, 0, .rw, 0x3e8⟩]⟩,
  ⟨"CPM_BOOT", 0x30a00024, 1, 0x4, 1, 0x4, [⟨31, 24, .rw, 0⟩, ⟨23, 16, .rw, 0⟩, ⟨12, 12, .rw, 0⟩, ⟨11, 8, .rw, 1⟩, ⟨0, 0, .rw, 0⟩]⟩,
  ⟨"CPM_AVS", 0x30a00030, 1, 0x4, 1, 0x4, [⟨16, 16, .ro, 0⟩, ⟨9, 0, .ro, 0⟩]⟩]

/-- The registers of the SEC region. -/
def regRowsSEC : List RegRow := [⟨"SEC_DBG", 0x30b00010, 1, 0x4, 1, 0x4, [⟨2, 2, .w1c, 0⟩, ⟨1, 1, .ro, 0⟩, ⟨0, 0, .ro, 0⟩]⟩]

/-- The registers of the RTC region. -/
def regRowsRTC : List RegRow := [⟨"RTC_TIME", 0x40000000, 1, 0x4, 1, 0x4, [⟨23, 16, .ro, 0⟩, ⟨15, 8, .ro, 0⟩, ⟨7, 0, .ro, 0⟩]⟩,
  ⟨"RTC_DATE", 0x40000004, 1, 0x4, 1, 0x4, [⟨31, 16, .ro, 0x7d0⟩, ⟨11, 8, .ro, 1⟩, ⟨4, 0, .ro, 1⟩]⟩,
  ⟨"RTC_SUBSEC", 0x40000008, 1, 0x4, 1, 0x4, [⟨14, 0, .ro, 0⟩]⟩,
  ⟨"RTC_WDAY", 0x4000000c, 1, 0x4, 1, 0x4, [⟨2, 0, .ro, 0⟩]⟩,
  ⟨"RTC_RELEASE", 0x40000010, 1, 0x4, 1, 0x4, [⟨0, 0, .wo, 0⟩]⟩,
  ⟨"RTC_SET_TIME", 0x40000014, 1, 0x4, 1, 0x4, [⟨23, 0, .rw, 0⟩]⟩,
  ⟨"RTC_SET_DATE", 0x40000018, 1, 0x4, 1, 0x4, [⟨31, 16, .rw, 2000⟩, ⟨11, 8, .rw, 1⟩, ⟨4, 0, .rw, 1⟩]⟩,
  ⟨"RTC_APPLY", 0x4000001c, 1, 0x4, 1, 0x4, [⟨31, 31, .wo, 0⟩, ⟨30, 30, .wo, 0⟩, ⟨18, 16, .wo, 0⟩, ⟨14, 0, .wo, 0⟩]⟩,
  ⟨"RTC_STAT", 0x40000020, 1, 0x4, 1, 0x4, [⟨6, 6, .w1c, 0⟩, ⟨5, 5, .w1c, 0⟩, ⟨4, 4, .w1c, 0⟩, ⟨3, 3, .w1c, 0⟩, ⟨2, 2, .ro, 0⟩, ⟨1, 1, .ro, 1⟩, ⟨0, 0, .ro, 0⟩]⟩,
  ⟨"RTC_ALM_TIME", 0x40000024, 1, 0x4, 1, 0x4, [⟨23, 0, .rw, 0⟩]⟩,
  ⟨"RTC_ALM_DATE", 0x40000028, 1, 0x4, 1, 0x4, [⟨31, 16, .rw, 2000⟩, ⟨11, 8, .rw, 1⟩, ⟨4, 0, .rw, 1⟩]⟩,
  ⟨"RTC_ALM_CTRL", 0x4000002c, 1, 0x4, 1, 0x4, [⟨6, 1, .rw, 0⟩, ⟨0, 0, .rw, 0⟩]⟩,
  ⟨"RTC_PWAKE", 0x40000030, 1, 0x4, 1, 0x4, [⟨31, 31, .rw, 0⟩, ⟨30, 30, .rw, 0⟩, ⟨23, 0, .rw, 0⟩]⟩,
  ⟨"RTC_TRIM", 0x40000034, 1, 0x4, 1, 0x4, [⟨7, 0, .rw, 0⟩]⟩]

/-- The registers of the UART region. -/
def regRowsUART : List RegRow := [⟨"U_DATA", 0x40010000, 4, 0x100, 1, 0x4, [⟨31, 31, .ro, 0⟩, ⟨12, 12, .ro, 0⟩, ⟨11, 11, .ro, 0⟩, ⟨10, 10, .ro, 0⟩, ⟨8, 0, .rw, 0⟩]⟩,
  ⟨"U_CTRL", 0x40010004, 4, 0x100, 1, 0x4, [⟨15, 15, .rw, 0⟩, ⟨14, 14, .rw, 0⟩, ⟨13, 13, .wo, 0⟩, ⟨12, 12, .wo, 0⟩, ⟨11, 11, .rw, 0⟩, ⟨10, 10, .rw, 0⟩, ⟨9, 9, .rw, 0⟩, ⟨8, 8, .rw, 0⟩, ⟨7, 6, .rw, 0⟩, ⟨5, 5, .rw, 0⟩, ⟨4, 4, .rw, 0⟩, ⟨3, 3, .rw, 0⟩, ⟨1, 1, .rw, 0⟩, ⟨0, 0, .rw, 0⟩]⟩,
  ⟨"U_BAUD", 0x40010008, 4, 0x100, 1, 0x4, [⟨27, 0, .rw, 0⟩]⟩,
  ⟨"U_XBAUD", 0x4001000c, 2, 0x100, 1, 0x4, [⟨15, 0, .rw, 0xda⟩]⟩,
  ⟨"U_QCFG", 0x40010010, 4, 0x100, 1, 0x4, [⟨26, 24, .rw, 0⟩, ⟨18, 16, .rw, 0⟩, ⟨14, 8, .rw, 1⟩, ⟨6, 0, .rw, 1⟩]⟩,
  ⟨"U_STAT", 0x40010014, 4, 0x100, 1, 0x4, [⟨31, 24, .ro, 0⟩, ⟨23, 16, .ro, 0⟩, ⟨9, 9, .w1c, 0⟩, ⟨8, 8, .w1c, 0⟩, ⟨7, 7, .w1c, 0⟩, ⟨6, 6, .w1c, 0⟩, ⟨5, 5, .w1c, 0⟩, ⟨4, 4, .w1c, 0⟩, ⟨3, 3, .w1c, 0⟩, ⟨2, 2, .w1c, 0⟩, ⟨1, 1, .w1c, 0⟩]⟩,
  ⟨"U_IEN", 0x40010018, 4, 0x100, 1, 0x4, [⟨6, 0, .rw, 0⟩]⟩,
  ⟨"U_ADDR", 0x4001001c, 4, 0x100, 1, 0x4, [⟨31, 24, .rw, 0⟩, ⟨23, 16, .rw, 0⟩, ⟨15, 8, .rw, 0⟩, ⟨7, 0, .rw, 0⟩]⟩,
  ⟨"U_FLOW", 0x40010020, 4, 0x100, 1, 0x4, [⟨14, 8, .rw, 0xc⟩, ⟨6, 0, .rw, 4⟩]⟩]

/-- The registers of the TCH region. -/
def regRowsTCH : List RegRow := [⟨"TCH_CTRL", 0x40020000, 1, 0x4, 1, 0x4, [⟨31, 16, .rw, 0⟩, ⟨15, 12, .rw, 0xf⟩, ⟨11, 11, .rw, 0⟩, ⟨10, 8, .rw, 0⟩, ⟨7, 5, .rw, 0⟩, ⟨4, 4, .rw, 0⟩, ⟨3, 3, .rw, 0⟩, ⟨2, 2, .rw, 1⟩, ⟨1, 1, .rw, 0⟩, ⟨0, 0, .rw, 0⟩]⟩,
  ⟨"TCH_FREQ", 0x40020004, 1, 0x4, 1, 0x4, [⟨26, 24, .rw, 2⟩, ⟨21, 16, .rw, 0xb⟩, ⟨13, 8, .rw, 9⟩, ⟨5, 0, .rw, 7⟩]⟩,
  ⟨"TCH_THR", 0x40020008, 1, 0x4, 1, 0x4, [⟨27, 16, .rw, 0x28⟩, ⟨11, 0, .rw, 0x50⟩]⟩,
  ⟨"TCH_CAL", 0x4002000c, 1, 0x4, 1, 0x4, [⟨31, 24, .rw, 0x14⟩, ⟨23, 12, .rw, 0x28⟩, ⟨11, 8, .rw, 2⟩, ⟨7, 0, .rw, 0x10⟩]⟩,
  ⟨"TCH_NOISE", 0x40020010, 1, 0x4, 1, 0x4, [⟨1, 0, .rw, 1⟩]⟩,
  ⟨"TCH_WET", 0x40020014, 1, 0x4, 1, 0x4, [⟨27, 16, .rw, 0x1e⟩, ⟨11, 0, .rw, 0x3c⟩]⟩,
  ⟨"TCH_STAT", 0x40020030, 1, 0x4, 1, 0x4, [⟨10, 10, .ro, 0⟩, ⟨9, 9, .ro, 0⟩, ⟨8, 8, .ro, 0⟩, ⟨7, 6, .ro, 0⟩, ⟨5, 5, .ro, 0⟩, ⟨2, 2, .w1c, 0⟩, ⟨1, 1, .w1c, 0⟩, ⟨0, 0, .w1c, 0⟩]⟩,
  ⟨"TCH_REPORT", 0x40020034, 1, 0x4, 1, 0x4, [⟨31, 31, .ro, 0⟩, ⟨10, 8, .ro, 0⟩, ⟨5, 0, .ro, 0⟩]⟩,
  ⟨"TCH_LEVEL", 0x40020020, 4, 0x4, 1, 0x4, [⟨23, 16, .rw, 5⟩, ⟨15, 0, .rw, 0xa⟩]⟩,
  ⟨"TCH_KEY", 0x40020100, 64, 0x4, 1, 0x4, [⟨31, 16, .ro, 0⟩, ⟨15, 0, .ro, 0⟩]⟩,
  ⟨"TCH_STATE_LO", 0x40020038, 1, 0x4, 1, 0x4, [⟨31, 0, .ro, 0⟩]⟩,
  ⟨"TCH_STATE_HI", 0x4002003c, 1, 0x4, 1, 0x4, [⟨31, 0, .ro, 0⟩]⟩,
  ⟨"TCH_RECAL_LO", 0x40020040, 1, 0x4, 1, 0x4, [⟨31, 0, .wo, 0⟩]⟩,
  ⟨"TCH_RECAL_HI", 0x40020044, 1, 0x4, 1, 0x4, [⟨31, 0, .wo, 0⟩]⟩]

/-- The registers of the LCD region. -/
def regRowsLCD : List RegRow := [⟨"LCD_CTRL", 0x40030000, 1, 0x4, 1, 0x4, [⟨3, 3, .rw, 0⟩, ⟨2, 2, .rw, 0⟩, ⟨1, 1, .rw, 0⟩, ⟨0, 0, .rw, 0⟩]⟩,
  ⟨"LCD_UPD", 0x40030004, 1, 0x4, 1, 0x4, [⟨7, 0, .wo, 0⟩]⟩,
  ⟨"LCD_STAT", 0x40030008, 1, 0x4, 1, 0x4, [⟨27, 24, .ro, 0⟩, ⟨23, 16, .w1c, 0⟩, ⟨15, 8, .ro, 0⟩, ⟨2, 2, .ro, 0⟩, ⟨1, 1, .ro, 0⟩, ⟨0, 0, .w1c, 0⟩]⟩,
  ⟨"LCD_TEMP", 0x4003000c, 1, 0x4, 1, 0x4, [⟨7, 0, .ro, 0⟩]⟩,
  ⟨"LCD_TRIM", 0x40030010, 1, 0x4, 1, 0x4, [⟨31, 31, .wo, 0⟩, ⟨17, 0, .rw, 0⟩]⟩,
  ⟨"LCD_BAND", 0x40030020, 8, 0x4, 1, 0x4, [⟨31, 24, .rw, 0⟩, ⟨10, 8, .rw, 2⟩, ⟨5, 0, .rw, 0x1e⟩]⟩,
  ⟨"LCD_FRAME", 0x40030100, 16, 0x4, 1, 0x4, [⟨31, 0, .rw, 0⟩]⟩]

/-- The registers of the HRV region. -/
def regRowsHRV : List RegRow := [⟨"HRV_CTRL", 0x40040000, 1, 0x4, 1, 0x4, [⟨11, 8, .rw, 0⟩, ⟨0, 0, .rw, 1⟩]⟩,
  ⟨"HRV_MPPT", 0x40040004, 1, 0x4, 1, 0x4, [⟨19, 16, .rw, 4⟩, ⟨13, 8, .rw, 0x30⟩]⟩,
  ⟨"HRV_VOC", 0x40040008, 1, 0x4, 1, 0x4, [⟨15, 0, .ro, 0⟩]⟩,
  ⟨"HRV_VIN", 0x4004000c, 1, 0x4, 1, 0x4, [⟨15, 0, .ro, 0⟩]⟩,
  ⟨"HRV_VSTORE", 0x40040010, 1, 0x4, 1, 0x4, [⟨15, 0, .ro, 0⟩]⟩,
  ⟨"HRV_MODEL", 0x40040014, 1, 0x4, 1, 0x4, [⟨31, 30, .lk, 0⟩, ⟨23, 0, .lk, 0⟩]⟩,
  ⟨"HRV_VTH", 0x40040018, 1, 0x4, 1, 0x4, [⟨31, 24, .lk, 0x23⟩, ⟨23, 16, .lk, 0x14⟩, ⟨15, 8, .lk, 0x37⟩, ⟨7, 0, .lk, 0x87⟩]⟩,
  ⟨"HRV_TITHE", 0x4004001c, 1, 0x4, 1, 0x4, [⟨31, 24, .lk, 0xf⟩, ⟨23, 0, .lk, 0x3c⟩]⟩,
  ⟨"HRV_STAT", 0x40040028, 1, 0x4, 1, 0x4, [⟨6, 6, .ro, 0⟩, ⟨5, 5, .ro, 0⟩, ⟨4, 4, .w1c, 0⟩, ⟨3, 3, .w1c, 0⟩, ⟨2, 2, .w1c, 0⟩, ⟨1, 1, .ro, 0⟩, ⟨0, 0, .ro, 0⟩]⟩,
  ⟨"HRV_WAKETH", 0x4004002c, 1, 0x4, 1, 0x4, [⟨31, 31, .rw, 0⟩, ⟨23, 0, .rw, 0⟩]⟩,
  ⟨"HRV_PURSE", 0x40040020, 1, 0x4, 1, 0x4, [⟨23, 0, .ro, 0⟩]⟩,
  ⟨"HRV_AVAIL", 0x40040024, 1, 0x4, 1, 0x4, [⟨23, 0, .ro, 0⟩]⟩,
  ⟨"HRV_GRANT", 0x40040040, 4, 0x4, 1, 0x4, [⟨31, 31, .wo, 0⟩, ⟨30, 30, .wo, 0⟩, ⟨29, 29, .ro, 0⟩, ⟨28, 28, .w1c, 0⟩, ⟨27, 27, .w1c, 0⟩, ⟨26, 26, .w1c, 0⟩, ⟨23, 0, .rw, 0⟩]⟩]

/-- The registers of the LGR region. -/
def regRowsLGR : List RegRow := [⟨"LGR_CTRL", 0x40050000, 1, 0x4, 1, 0x4, [⟨31, 24, .rw, 0x40⟩, ⟨23, 8, .rw, 0⟩, ⟨1, 1, .wo, 0⟩, ⟨0, 0, .wo, 0⟩]⟩,
  ⟨"LGR_STAT", 0x40050004, 1, 0x4, 1, 0x4, [⟨8, 8, .ro, 0⟩, ⟨7, 7, .ro, 0⟩, ⟨6, 6, .ro, 0⟩, ⟨5, 5, .ro, 0⟩, ⟨4, 4, .ro, 0⟩, ⟨3, 3, .w1c, 0⟩, ⟨2, 2, .w1c, 0⟩, ⟨1, 1, .w1c, 0⟩, ⟨0, 0, .ro, 0⟩]⟩,
  ⟨"LGR_NEWEST", 0x40050008, 1, 0x4, 1, 0x4, [⟨31, 0, .ro, 0⟩]⟩,
  ⟨"LGR_OLDUNACK", 0x4005000c, 1, 0x4, 1, 0x4, [⟨31, 0, .ro, 0⟩]⟩,
  ⟨"LGR_ACKED", 0x40050010, 1, 0x4, 1, 0x4, [⟨31, 0, .ro, 0⟩]⟩,
  ⟨"LGR_WATCH_CFG", 0x40050110, 1, 0x4, 1, 0x4, [⟨5, 3, .lk, 0⟩, ⟨2, 0, .lk, 0⟩]⟩,
  ⟨"LGR_TAMP_STAT", 0x40050114, 1, 0x4, 1, 0x4, [⟨7, 4, .w1c, 0⟩, ⟨3, 0, .ro, 0⟩]⟩,
  ⟨"LGR_PM_CFG", 0x40050118, 1, 0x4, 1, 0x4, [⟨31, 31, .lk, 0⟩, ⟨30, 28, .lk, 0⟩, ⟨27, 24, .lk, 0⟩, ⟨23, 20, .lk, 0⟩, ⟨15, 0, .lk, 0⟩]⟩,
  ⟨"LGR_PM_CNT", 0x4005011c, 1, 0x4, 1, 0x4, [⟨31, 0, .ro, 0⟩]⟩,
  ⟨"LGR_NOTE", 0x40050020, 8, 0x4, 1, 0x4, [⟨31, 0, .rw, 0⟩]⟩,
  ⟨"LGR_MTR_CFG", 0x40050040, 8, 0x4, 1, 0x4, [⟨31, 31, .lk, 0⟩, ⟨27, 24, .lk, 0⟩, ⟨21, 16, .lk, 0⟩, ⟨15, 0, .lk, 0⟩]⟩,
  ⟨"LGR_MTR_LO", 0x40050080, 8, 0x8, 1, 0x4, [⟨31, 0, .ro, 0⟩]⟩,
  ⟨"LGR_MTR_HI", 0x40050084, 8, 0x8, 1, 0x4, [⟨31, 0, .ro, 0⟩]⟩,
  ⟨"LGR_TAMP_CFG", 0x40050100, 4, 0x4, 1, 0x4, [⟨15, 15, .lk, 0⟩, ⟨14, 14, .lk, 0⟩, ⟨13, 13, .lk, 0⟩, ⟨3, 0, .lk, 0⟩]⟩]

/-- The registers of the APM region. -/
def regRowsAPM : List RegRow := [⟨"EVF_AO_PEND", 0x40068000, 1, 0x4, 1, 0x4, [⟨15, 8, .w1c, 0⟩, ⟨7, 0, .w1c, 0⟩]⟩,
  ⟨"EVF_AO_SWEV", 0x40068004, 1, 0x4, 1, 0x4, [⟨7, 0, .wo, 0⟩]⟩,
  ⟨"EVF_AO_STAT", 0x40068008, 1, 0x4, 1, 0x4, [⟨0, 0, .w1c, 0⟩]⟩,
  ⟨"APM_MODE", 0x40060000, 1, 0x4, 1, 0x4, [⟨12, 12, .ro, 0⟩, ⟨8, 8, .w1c, 0⟩, ⟨5, 4, .wo, 0⟩, ⟨1, 0, .ro, 2⟩]⟩,
  ⟨"APM_VOTE", 0x40060010, 3, 0x4, 1, 0x4, [⟨9, 9, .ro, 0⟩, ⟨8, 8, .ro, 0⟩, ⟨5, 1, .ro, 0⟩, ⟨0, 0, .ro, 0⟩]⟩,
  ⟨"APM_VOTE_SET", 0x40060020, 1, 0x4, 1, 0x4, [⟨10, 8, .wo, 0⟩, ⟨6, 4, .wo, 0⟩, ⟨2, 0, .wo, 0⟩]⟩,
  ⟨"APM_VOTE_CLR", 0x40060024, 1, 0x4, 1, 0x4, [⟨10, 8, .wo, 0⟩, ⟨6, 4, .wo, 0⟩, ⟨2, 0, .wo, 0⟩]⟩,
  ⟨"APM_HOLD", 0x40060030, 1, 0x4, 1, 0x4, [⟨10, 8, .rw, 5⟩, ⟨6, 4, .rw, 5⟩, ⟨2, 0, .rw, 5⟩]⟩,
  ⟨"APM_DSTAT", 0x40060034, 1, 0x4, 1, 0x4, [⟨15, 15, .ro, 0⟩, ⟨10, 8, .ro, 5⟩, ⟨6, 4, .ro, 0⟩, ⟨2, 0, .ro, 0⟩]⟩,
  ⟨"APM_WAKE_EN", 0x40060040, 1, 0x4, 1, 0x4, [⟨10, 0, .rw, 0x7ff⟩]⟩,
  ⟨"APM_WAKE_UP", 0x40060044, 1, 0x4, 1, 0x4, [⟨10, 0, .rw, 3⟩]⟩,
  ⟨"APM_WAKE_STAT", 0x40060048, 1, 0x4, 1, 0x4, [⟨10, 0, .w1c, 0⟩]⟩,
  ⟨"APM_LWAKE", 0x4006004c, 1, 0x4, 1, 0x4, [⟨15, 8, .rw, 0xa⟩, ⟨1, 1, .rw, 1⟩, ⟨0, 0, .rw, 1⟩]⟩,
  ⟨"APM_CLK", 0x40060050, 1, 0x4, 1, 0x4, [⟨8, 8, .rw, 1⟩, ⟨6, 4, .rw, 7⟩, ⟨0, 0, .rw, 1⟩]⟩,
  ⟨"APM_CLKSTAT", 0x40060054, 1, 0x4, 1, 0x4, [⟨3, 3, .ro, 0⟩, ⟨2, 2, .w1c, 0⟩, ⟨0, 0, .ro, 0⟩]⟩,
  ⟨"APM_CLKEN", 0x40060058, 1, 0x4, 1, 0x4, [⟨3, 0, .rw, 0⟩]⟩,
  ⟨"APM_CLKRUN", 0x4006005c, 1, 0x4, 1, 0x4, [⟨3, 0, .ro, 0⟩]⟩,
  ⟨"APM_RSTCAUSE", 0x40060060, 1, 0x4, 1, 0x4, [⟨15, 12, .ro, 0⟩, ⟨10, 10, .w1c, 0⟩, ⟨9, 9, .w1c, 0⟩, ⟨8, 8, .w1c, 0⟩, ⟨7, 7, .w1c, 0⟩, ⟨6, 6, .w1c, 0⟩, ⟨5, 5, .w1c, 0⟩, ⟨4, 4, .w1c, 0⟩, ⟨3, 3, .w1c, 0⟩, ⟨2, 2, .w1c, 0⟩, ⟨1, 1, .w1c, 0⟩, ⟨0, 0, .w1c, 1⟩]⟩,
  ⟨"APM_RSTREQ", 0x40060064, 1, 0x4, 1, 0x4, [⟨2, 2, .wo, 0⟩, ⟨1, 1, .wo, 0⟩, ⟨0, 0, .wo, 0⟩]⟩,
  ⟨"APM_STRAP", 0x40060068, 1, 0x4, 1, 0x4, [⟨2, 2, .ro, 0⟩, ⟨1, 0, .ro, 0⟩]⟩]

/-- The rows of the block whose region holds address `a` (R24). -/
def regRowsAt (a : Nat) : List RegRow :=
  if 0x30000000 ≤ a ∧ a < 0x30100000 then regRowsTRK
  else if 0x30100000 ≤ a ∧ a < 0x30200000 then regRowsALM
  else if 0x30200000 ≤ a ∧ a < 0x30300000 then regRowsCNV
  else if 0x30300000 ≤ a ∧ a < 0x30400000 then regRowsSLC
  else if 0x30400000 ≤ a ∧ a < 0x30500000 then regRowsGOU
  else if 0x30500000 ≤ a ∧ a < 0x30600000 then regRowsEVF
  else if 0x30600000 ≤ a ∧ a < 0x30700000 then regRowsMBX
  else if 0x30700000 ≤ a ∧ a < 0x30800000 then regRowsGRN
  else if 0x30800000 ≤ a ∧ a < 0x30900000 then regRowsMEMC
  else if 0x30900000 ≤ a ∧ a < 0x30a00000 then regRowsETH
  else if 0x30a00000 ≤ a ∧ a < 0x30b00000 then regRowsCPM
  else if 0x30b00000 ≤ a ∧ a < 0x30c00000 then regRowsSEC
  else if 0x40000000 ≤ a ∧ a < 0x40010000 then regRowsRTC
  else if 0x40010000 ≤ a ∧ a < 0x40020000 then regRowsUART
  else if 0x40020000 ≤ a ∧ a < 0x40030000 then regRowsTCH
  else if 0x40030000 ≤ a ∧ a < 0x40040000 then regRowsLCD
  else if 0x40040000 ≤ a ∧ a < 0x40050000 then regRowsHRV
  else if 0x40050000 ≤ a ∧ a < 0x40060000 then regRowsLGR
  else if 0x40060000 ≤ a ∧ a < 0x40070000 then regRowsAPM
  else []

/-- Address `a` is a word of register row `r`. -/
def RegRow.covers (r : RegRow) (a : Nat) : Bool :=
  decide (r.base ≤ a) &&
    (let d := a - r.base
     let rest := d % r.s1
     decide (d / r.s1 < r.n1) && decide (rest / r.s2 < r.n2) && decide (rest % r.s2 = 0))

/-- The first index of the register set at `a` (n of TRKn, CVn, SLCn and so on). -/
def RegRow.index1 (r : RegRow) (a : Nat) : Nat := (a - r.base) / r.s1

/-- The second index (k of SLCn_PARk and so on). -/
def RegRow.index2 (r : RegRow) (a : Nat) : Nat := ((a - r.base) % r.s1) / r.s2

/-- The register row at word address `a`, if the block defines a register there (R25). -/
def regRow? (a : Nat) : Option RegRow := (regRowsAt a).find? (fun r => r.covers a)

/-- The reset word that a list of fields gives. -/
def fieldsReset : List FieldSpec → Nat
  | [] => 0
  | f :: fs => f.reset * 2 ^ f.lsb + fieldsReset fs

/-- The reset value of the register word at `a`, where the field tables give one value per set
(17: `Un_BAUD`; 18: `TCH_LEVELk`, `LCD_BANDk`), and elsewhere the value of the row's fields. -/
def resetWord (a : Nat) : Word :=
  if a = 0x40010008 ∨ a = 0x40010108 then 53333#32
  else if a = 0x40010208 ∨ a = 0x40010308 then 2083333#32
  else if a = 0x40020024 then BitVec.ofNat 32 (10 * 65536 + 51)
  else if a = 0x40020028 then BitVec.ofNat 32 (30 * 65536 + 256)
  else if a = 0x4002002c then 1024#32
  else if 0x40030020 ≤ a ∧ a < 0x40030040 ∧ a % 4 = 0 then
    BitVec.ofNat 32 (((236 + 15 * ((a - 0x40030020) / 4)) % 256) * 2 ^ 24 + 2 * 256 + 30)
  else match regRow? a with
    | some r => BitVec.ofNat 32 (fieldsReset r.fields)
    | none => 0#32

end Sys2Proof.Machine
end

