-- ==== Sys2Proof/Machine/State.lean ====
section
/-!
DEFINITION. Machine/State.lean: the state of the TX6480 as plain data. Every block register of the
address map (R24) lives in `reg`, keyed by physical address; what the spec gives the machine beside
its registers stands in one structure for each block. Times are loop cycles (`now`) or sixteenths of a
loop cycle ("t16"). Angles and velocities keep the formats of R95.
-/
namespace Sys2Proof.Machine

/-! ### Event fabric (08) -/

/-- A task delivered to a consumer that acts on it in a command of its own (R277, R280): the task
number (R275), the instant it carries in t16, and the cycle of its arrival. -/
structure Arrival where
  task : Nat
  inst : Option Nat
  cycle : Nat
  deriving DecidableEq, Repr

/-- One mailbox channel: its two queues, oldest word first (R287). -/
structure ChanSt where
  dev : List Word
  host : List Word
  deriving DecidableEq, Repr

/-! ### Position tracks (03) -/

/-- A measurement waiting to be applied (R101, R128): angle, sample instant in t16, the cycle in which
it is applied, and for mains whether its amplitude lies below AMPMIN (R123). -/
structure Meas where
  m : Nat
  ts : Int
  due : Nat
  lowAmp : Bool
  deriving DecidableEq, Repr

/-- A converter result waiting for its partners (R108, R122): its role (0 sine or A, 1 cosine or B,
2 C), its value, instant, arrival cycle, and whether its time to be paired is over. -/
structure Half where
  role : Nat
  val : Int
  inst : Nat
  cycle : Nat
  late : Bool
  deriving DecidableEq, Repr

/-- An SSI frame and its wait (R118, R119): the cycle of its first falling clock edge, its length in clock periods
and their length in lc, the end of its wait, and whether its position is still wanted (R139). -/
structure SsiFrame where
  start : Nat
  bits : Nat
  per : Nat
  until_ : Nat
  live : Bool
  deriving DecidableEq, Repr

/-- A change of an encoder line that the synchroniser has seen and that is neither rejected nor applied (R112, R114):
line B or A, its new level, the first cycle in which it was seen. -/
structure SeenEdge where
  lineB : Bool
  level : Bool
  ts : Nat
  deriving DecidableEq, Repr

/-- A core's load that takes effect in the cycle after its write (R105, R124): the cycle of the write and the four
values. -/
structure CoreLoad where
  cycle : Nat
  ang : Word
  vel : BitVec 48
  acc : Word
  deriving DecidableEq, Repr

/-- A change of `TRKn_CTRL` and `TRKn_SRCA` by a core write, which acts in the cycle after it (R139, R644, R645): the
cycle of the write, the words before it and after it. -/
structure CtlChange where
  cycle : Nat
  ctrl0 : Word
  srca0 : Word
  ctrl1 : Word
  srca1 : Word
  deriving DecidableEq, Repr

/-- An angle share on its way to its track (R126, R128): angle, velocity, timestamp, the cycle in which it is
applied. -/
structure Share where
  ang : Word
  vel : BitVec 48
  time : Nat
  due : Nat
  deriving DecidableEq, Repr

/-- The levels of ENCiA and ENCiB as the synchroniser of an encoder interface last saw them (R111). -/
structure EncLines where
  a : Bool
  b : Bool
  deriving DecidableEq, Repr

/-- One reader's latched copy of a track (R136). -/
structure TrkLatch where
  turn : BitVec 16
  vel : BitVec 48
  acc : Word
  stat : Nat
  deriving DecidableEq, Repr

/-- One position track (R95 to R141). `src`, `vel` and `acc` are the source state, with the source
angle in au and 16 fractional bits; `oang`, `turn`, `ovel` and `oacc` are the output of the present
cycle; `rev` is DIR and `ext` the extreme of R129. `tsPrev` and `velPrev` belong to the last
measurement applied; `coastAt` and `goodRun` to the coast (R131, R132); `loss` says that a loss
condition holds (R646). `fresh` says that the position of a seeding measurement is still to be taken (R130).
`mult` is the MULT in force, and `ctl` the changes of control words that act in the next cycle (R645). `load` is a core
load that acts in the next cycle (R124). `cnt`, the accepted levels `lineA` and `lineB`, the changes `edges` seen and
not yet applied, the cycle `gate` in which one was last rejected or applied, and `homed` belong to the encoder (R111 to
R116); `passed` is a far boundary whose passing has been measured, and `checked` the cycle of the last check (R114).
`pollFrom` is the cycle from which the poll period counts (R119). `lockRun` and `unlockRun` belong to the mains PLL
(R123). `shares` are the shares on their way; `shareAt` and `shareTime` are the cycle and the timestamp of the last
valid share (R127, R313). -/
structure TrkSt where
  src : BitVec 48
  vel : BitVec 48
  acc : Word
  oang : Word
  turn : BitVec 16
  ovel : BitVec 48
  oacc : Word
  seeded : Bool
  valid : Bool
  coast : Bool
  lost : Bool
  lock : Bool
  rev : Bool
  ext : BitVec 48
  tsPrev : Int
  velPrev : BitVec 48
  coastAt : Nat
  goodRun : Nat
  loss : Bool
  fresh : Bool
  mult : Nat
  ctl : List CtlChange
  load : Option CoreLoad
  cnt : Int
  lineA : Bool
  lineB : Bool
  edges : List SeenEdge
  gate : Option Nat
  homed : Bool
  ssi : Option SsiFrame
  halves : List Half
  lockRun : Nat
  unlockRun : Nat
  waiting : List Meas
  pollFrom : Nat
  shares : List Share
  shareAt : Nat
  shareTime : Nat
  passed : Option Nat
  checked : Option Nat
  latches : Vector TrkLatch 4
  deriving DecidableEq, Repr

/-- A track after a reset of the fast domain. -/
def TrkSt.reset : TrkSt :=
  { src := 0, vel := 0, acc := 0, oang := 0, turn := 0, ovel := 0, oacc := 0, seeded := false,
    valid := false, coast := false, lost := false, lock := false, rev := false, ext := 0,
    tsPrev := 0, velPrev := 0, coastAt := 0, goodRun := 0, loss := false, fresh := false, mult := 1,
    ctl := [], load := none, cnt := 0, lineA := false, lineB := false, edges := [], gate := none,
    homed := false, ssi := none, halves := [], lockRun := 0, unlockRun := 0, waiting := [],
    pollFrom := 0, shares := [], shareAt := 0, shareTime := 0, passed := none, checked := none,
    latches := Vector.replicate 4 ⟨0, 0, 0, 0⟩ }

/-! ### Almanac (04) -/

/-- A committed firing (R152): its instant in t16, entry, and the tasks or fork source it raises. -/
structure Firing where
  t : Nat
  entry : Nat
  tasks : List Nat
  fork : Option Nat
  deriving DecidableEq, Repr

/-- The Almanac's state for one track: frontier F (R145), firing queue (R156), and the cycles of the
last issue (R155) and of the last scan (R146). -/
structure AlmSt where
  frontier : BitVec 48
  queue : List Firing
  lastIssue : Option Nat
  scanned : Option Nat
  deriving DecidableEq, Repr

def AlmSt.reset : AlmSt := { frontier := 0, queue := [], lastIssue := none, scanned := none }

/-- What the Almanac holds about cycle `cycle`: the `ALM_TRKn_NEXT` words at its start (R169), the words of entries at
its start that have changed since (R151), those of them that only a re-arm has changed (R150), the words that a switch
replaced and the writes of `ALM_ARM` (R151). -/
structure AlmCycle where
  cycle : Nat
  next : Vector Nat 16
  old : List (Nat × Word)
  rearmed : List Nat
  switched : List Nat
  arms : List (Nat × Bool)
  deriving DecidableEq, Repr

def AlmCycle.reset : AlmCycle :=
  { cycle := 0, next := Vector.replicate 16 0, old := [], rearmed := [], switched := [], arms := [] }

/-! ### Converters and comparators (05) -/

/-- A sample in the pipeline (R174, R175): instant in t16, channel tag, the analogue input that the channel connects
to (R176), gain (R181), trim in force (R193), whether the converter was disabled after it (R187). -/
structure Sample where
  inst : Nat
  tag : Nat
  ain : Nat
  gain : Nat
  trim : Int
  tail : Bool
  deriving DecidableEq, Repr

/-- A result in a slot (R182): value, tag, flags, instant and taken mark. -/
structure CvResult where
  val : Int
  tag : Nat
  ovr : Bool
  avg : Bool
  tail : Bool
  inst : Nat
  taken : Bool
  deriving DecidableEq, Repr

/-- The newest raw result of a converter as its plausibility pair sees it (R189). -/
structure PlausItem where
  inst : Nat
  tag : Nat
  val : Int
  deriving DecidableEq, Repr

/-- One pipeline converter (R170 to R188). `flight` holds its samples in the pipeline, oldest first;
`raw` and `avg` are the result slots; `sum`, `sumN` and `sumTag` the averaging set; `busyFrom` and
`busyTo` the busy time in t16 (R172); `lastFree` the last free-running sampling cycle; `chPrev` the
channel before the changes of cycle `chAt` (R177); `selWritten`, `advanced` and `rewound` the cycles of
the last core write of `CVn_SEL`, the last advance of POS and the last rewind (R180); `plaus` the newest
raw result as the plausibility pair sees it. -/
structure CvSt where
  flight : List Sample
  raw : Option CvResult
  avg : Option CvResult
  sum : Int
  sumN : Nat
  sumTag : Nat
  busyFrom : Nat
  busyTo : Nat
  lastFree : Option Nat
  chPrev : Nat
  chAt : Option Nat
  selWritten : Option Nat
  advanced : Option Nat
  rewound : Option Nat
  plaus : Option PlausItem
  deriving DecidableEq, Repr

/-- One comparator (R194 to R198, R648): the analogue state of its two halves; the values that ABOVE, BELOW and
OUTSIDE have passed on to the matrix and the fabric; the cycles from which the synchronised ABOVE, BELOW and OUTSIDE
have held their present values (R196); the first cycle of the present hold (R197). The synchronised outputs stand in
`CMPm_STAT`. -/
structure CmpSt where
  anaAbove : Bool
  anaBelow : Bool
  outAbove : Bool
  outBelow : Bool
  outOutside : Bool
  sinceAbove : Nat
  sinceBelow : Nat
  sinceOutside : Nat
  blankAt : Nat
  deriving DecidableEq, Repr

/-! ### Loop slices (06) -/

/-- One input port of a slice (R204 to R206): the newest value that passed the filter, its instant,
converter and slot; whether it came since the previous run start; sum and count of the period. -/
structure PortSt where
  val : Option Word
  inst : Nat
  cv : Nat
  avg : Bool
  fresh : Bool
  sum : Int
  cnt : Nat
  deriving DecidableEq, Repr

/-- An accepted trigger whose run is still to be executed (R201): the run's instant in t16 and its start
cycle. -/
structure Trig where
  inst : Nat
  cycle : Nat
  deriving DecidableEq, Repr

/-- A reference latch (R230): parameter, value, write cycle and rank of the writer. -/
structure RefLatch where
  k : Nat
  val : Word
  cycle : Nat
  rank : Nat
  deriving DecidableEq, Repr

/-- An edge word of a commit set: slot, mode of `EDGE`, word (R221). -/
structure EdgeWord where
  slot : Nat
  kind : Nat
  word : Word
  deriving DecidableEq, Repr

/-- A terminator arm of a commit set (R219). -/
structure TermArm where
  slot : Nat
  ref : Word
  port : Nat
  blank : Nat
  deriving DecidableEq, Repr

/-- What a run hands over at its `COMMIT` (R222), with the pairs in the slots of its slice at its start (R86). -/
structure CommitSet where
  inst : Nat
  slots : List (Option (Fin 32))
  edges : List EdgeWord
  terms : List TermArm
  outs : List (Nat × Word)
  obs : Option (Word × Word × Word)
  deriving DecidableEq, Repr

def CommitSet.empty : CommitSet := { inst := 0, slots := [], edges := [], terms := [], outs := [], obs := none }

/-- A run between two micro-ops: the operands captured at its start (R205 to R208), working registers,
integrators, energy, the commit set, and what the present micro-op does beside them: it saturates, limits (R215 to
R217), is reserved (R214), finds an empty mean (R218), writes a compared value (R232), or is `COMMIT`. -/
structure Run where
  ins : Vector Int 4
  sums : Vector (Int × Nat) 4
  thetaS : Word
  thetaA : Word
  omega : Word
  pars : List Word
  w : Vector Word 16
  ints : List Int
  energy : BitVec 64
  cset : CommitSet
  sat : Bool
  lim : Bool
  badOp : Bool
  skew : Bool
  wrote : Bool
  done : Bool
  deriving DecidableEq, Repr

/-- A run in progress (R200, R213): its registers, the micro-ops still to be executed, and the first cycle of the next
one. -/
structure RunSt where
  r : Run
  prog : List (Word × Word)
  next : Nat
  deriving DecidableEq, Repr

/-- One loop slice (R200 to R239): ports, working registers, energy accumulator and its upper word as
latched for each core (R220), the last run start, the period end of the present run, accepted triggers, the run in
progress, the cycle from which triggers are accepted (R234, R237), the cycle in which a stop completes (R238),
reference latches, the parameters that the last switch wrote with its cycle (R231), requests to zero integrators with
their cycles (R228), a pending injection (R236), the period timer's start and period (R203), and the commit set that is
handed over. -/
structure SliceSt where
  ports : Vector PortSt 4
  w : Vector Word 16
  energy : BitVec 64
  eLatch : Vector Word 5
  lastStart : Option Nat
  periodEnd : Nat
  trigs : List Trig
  run : Option RunSt
  opens : Nat
  stopAt : Nat
  refs : List RefLatch
  switched : Nat × List Nat
  izeros : List (Nat × Nat)
  inject : Bool
  timerFrom : Nat
  timerPer : Nat
  cset : CommitSet
  deriving DecidableEq, Repr

/-- What becomes due in a later cycle: a sample of a burst or of a late task (R171, R173); the transfer of a run's
commit set (R222); the safe state of the pairs of a slice that stops (R238); the
outputs of a pair at its safe state (R264, R265), or inactive after a disarm, and a disarm from SAFE (R244); an event
signal (R274), an event bit (R283), a task for the always-on domain (R278); a ring trip that crosses into the fast
domain, with its event or without (R261, R316, R322); the stop of a domain's blocks (R508, R525); a write of `WIN_DOORBELL` or else `WIN_MBX` (R289, R292). -/
inductive DueAct
  | sample (n : Fin 24) (inst : Nat)
  | transfer (n : Fin 16)
  | slcSafe (n : Fin 16)
  | safeOut (p : Fin 32)
  | outsOff (p : Fin 32)
  | offState (p : Fin 32)
  | signal (sig : Nat)
  | eventBit (task : Nat)
  | aoTask (task : Nat)
  | ringRx (event : Bool)
  | descend (d : Fin 3)
  | window (bell : Bool) (val : Word)
  deriving DecidableEq, Repr

structure Due where
  cycle : Nat
  act : DueAct
  deriving DecidableEq, Repr

/-! ### Gate outputs (07) -/

/-- A committed edge of the high-side command, not yet placed (R246): instant in t16, level. -/
structure Edge where
  t : Nat
  lvl : Bool
  deriving DecidableEq, Repr

/-- An armed peak terminator (R219): reference, watched converter result port of a slice, blanking in
lc, the instant of the high-side turn-on from which it watches, and the windows that turn-offs have closed of late. -/
structure Term where
  ref : Word
  slice : Nat
  port : Nat
  blank : Nat
  onAt : Option Nat
  past : List (Nat × Nat)
  deriving DecidableEq, Repr

/-- One gate pair (R240 to R260): its frontier (R249) and the cycle of its last scan, committed edges not yet placed in
committed order, the adjusted instant of the last edge that took effect (R246), an output change owed to the
dead time (R245; true: high side), the outputs (true: active), whether a turn-on came since arming,
the latched duty (R252) with ALIGN and UPD of the carrier period under way (R86), the trim before that of cycle
`trimAt` (R256), the start of the present pulse (R258) and the cycle in which it was started, the peak terminator
(R219), an arm request of the present cycle with whether it may act, and the cycle of the last disarm (R243, R244). -/
structure PairSt where
  frontier : BitVec 48
  scanned : Option Nat
  edges : List Edge
  lastT : Option Nat
  owed : Option (Nat × Bool)
  hi : Bool
  lo : Bool
  begun : Bool
  duty : Word
  align : Bool
  upd : Nat
  trimAt : Option Nat
  trimPrev : Word
  pulse : Option Nat
  pulseAt : Nat
  term : Option Term
  ask : Option Bool
  disarmAt : Option Nat
  deriving DecidableEq, Repr

def CvSt.reset : CvSt :=
  { flight := [], raw := none, avg := none, sum := 0, sumN := 0, sumTag := 0, busyFrom := 0,
    busyTo := 0, lastFree := none, chPrev := 0, chAt := none, selWritten := none, advanced := none,
    rewound := none, plaus := none }

def CmpSt.reset : CmpSt :=
  { anaAbove := false, anaBelow := false, outAbove := false, outBelow := false, outOutside := false,
    sinceAbove := 0, sinceBelow := 0, sinceOutside := 0, blankAt := 0 }

def PortSt.reset : PortSt :=
  { val := none, inst := 0, cv := 0, avg := false, fresh := false, sum := 0, cnt := 0 }

def SliceSt.reset : SliceSt :=
  { ports := Vector.replicate 4 PortSt.reset, w := Vector.replicate 16 0, energy := 0,
    eLatch := Vector.replicate 5 0, lastStart := none, periodEnd := 0, trigs := [], run := none,
    opens := 0, stopAt := 0, refs := [], switched := (0, []), izeros := [], inject := false, timerFrom := 0, timerPer := 625, cset := CommitSet.empty }

def PairSt.reset : PairSt :=
  { frontier := 0, scanned := none, edges := [], lastT := none, owed := none, hi := false, lo := false,
    begun := false, duty := 0, align := false, upd := 1, trimAt := none, trimPrev := 0, pulse := none, pulseAt := 0,
    term := none, ask := none, disarmAt := none }

/-- A TRIPIN pin behind its synchroniser (R263): its level, and the first cycle in which it has held it. -/
structure PinSt where
  level : Bool
  since : Nat
  deriving DecidableEq, Repr

def ChanSt.reset : ChanSt := { dev := [], host := [] }

/-! ### Power domains (15) -/

/-- Where a domain stands between its hold levels (R508, R512). -/
inductive DomPhase
  | up | descending | down | returning
  deriving DecidableEq, Repr

/-- A switched domain (R505 to R509): its phase, the level reached (0 to 5), whether its rails are
in range (R609), and the cycle in which its descent began (R508). -/
structure DomSt where
  phase : DomPhase
  level : Nat
  powered : Bool
  since : Nat
  deriving DecidableEq, Repr

/-- What an accepted switch request replaced: the cycle of the write, and SRC, LOCK, SLEW, HOLD and the wait for HRC
before it (R516). -/
structure PllUndo where
  cycle : Nat
  src : Nat
  lock : Nat
  slew : Nat
  hold : Nat
  waitHrc : Bool
  deriving DecidableEq, Repr

/-- `PLL_LOOP` beside its registers (R516 to R519): the cycle in which holdover began, whether CPM
waits for HRC to switch to it, and what the last accepted switch request replaced. -/
structure PllSt where
  holdAt : Nat
  waitHrc : Bool
  undo : Option PllUndo
  deriving DecidableEq, Repr


/-! ### Link domain: frames (02, 09) -/

/-- A frame that leaves a port: its bytes from the destination MAC address up to the FCS, without
it; whether it goes as an express frame (R40); whether its FCS is good; how many consecutive RS symbols were corrupted
after FEC, and the bit at which they begin (R327). -/
structure OutFrame where
  port : PortId
  bytes : List Byte
  express : Bool
  fcsOk : Bool
  rsErr : Nat
  rsFirst : Nat
  deriving DecidableEq, Repr

/-- A frame that waits to be transmitted (R299): its priority level, the cycle in which it became ready, whether it is
forwarded. -/
structure TxItem where
  level : Nat
  ready : Nat
  fwd : Bool
  frame : OutFrame
  deriving DecidableEq, Repr

/-- The transmitter of a port (R39, R40, R299): the frames that wait; the frame in transmission with its first cycle and
the cycle from which the port is idle, and whether it is an express frame; the time that a preempted frame still takes,
in lc. -/
structure TxSt where
  queue : List TxItem
  startAt : Nat
  idleAt : Nat
  express : Bool
  left : Nat
  deriving DecidableEq, Repr

def TxSt.reset : TxSt := { queue := [], startAt := 0, idleAt := 0, express := false, left := 0 }

/-- What a fault injection holds beside `RING_INJn` (R326, R327): the EtherType it acts on, the
first bit and the count, the session that set it, and a frame held by a reorder with the frames
still to pass and the cycle in which it was held. -/
structure InjSt where
  etype : Nat
  firstBit : Nat
  bits : Nat
  owner : Word
  held : Option (OutFrame × Nat × Nat)
  deriving DecidableEq, Repr

def InjSt.reset : InjSt := { etype := 0, firstBit := 0, bits := 0, owner := 0, held := none }

/-- A ring trip whose repeats are still to be sent (R314). -/
structure TripTx where
  groups : Nat
  cause : Nat
  time : Nat
  cycle : Nat
  rep : Nat
  deriving DecidableEq, Repr

/-- A port: link up, its recovered clock locked, training under way, the port settings in force since the last
training (R46), a wake pattern still to be sent on it, a wake detected on it (R514), preemption verified (R40), the
grandmaster heard on it with its clock identity (R307), uncorrectable RS codewords since the last training. -/
structure PortLink where
  up : Bool
  clock : Bool
  training : Bool
  cfg : Word
  pattern : Bool
  woken : Bool
  preempt : Bool
  hears : Bool
  gm : BitVec 64
  fec : Nat
  deriving DecidableEq, Repr

def PortLink.reset : PortLink :=
  { up := false, clock := false, training := false, cfg := 3, pattern := false, woken := false,
    preempt := false, hears := false, gm := 0, fec := 0 }

/-! ### Link domain: sessions and commands (02) -/

/-- A command that the link responder has passed to firmware: its request, its opcode and the key of its
session, if it was authenticated (R54, R61). -/
structure Waiting where
  rq : Req
  op : Nat
  key : Option (BitVec 128)
  deriving DecidableEq, Repr

/-- A reply that is ready to leave (R47, R55): the command it answers, status and parameters, the key it
is authenticated under, and whether a credit returns with it. -/
structure Reply where
  cmd : Waiting
  status : Nat
  params : List Byte
  credit : Bool
  deriving DecidableEq, Repr

/-- An open session (R57 to R62): tag, key, granted rights, sequence number of the last authenticated
request, how many there were, and the cycle of the last. -/
structure Session where
  tag : Word
  key : BitVec 128
  rights : BitVec 16
  last : Option (BitVec 16)
  count : Nat
  cycle : Nat
  deriving DecidableEq, Repr

/-- A kept reply (R56). -/
structure Kept where
  seq : BitVec 16
  op : Nat
  tag : Word
  mac : BitVec 48
  reply : Reply
  deriving DecidableEq, Repr

/-- The last heartbeat of a device (R310), with the MAC address and the cycle it came in. -/
structure HbKept where
  sender : Nat
  mac : BitVec 48
  hb : Heartbeat
  cycle : Nat
  deriving DecidableEq, Repr

/-- The comparison of epochs after a two-phase switch (R322): own epoch, boundary time, members whose
first heartbeat since then has not come. -/
structure SplitCheck where
  epoch : BitVec 16
  time : Nat
  members : List Nat
  deriving DecidableEq, Repr

/-- An image slot (R91): its state and the session that owns its write sequence. -/
structure ImgSt where
  state : Nat
  owner : Word
  deriving DecidableEq, Repr

/-- Where the words that the host last put on MBX13 or MBX14 came from (R389, R390): session tag, whether
the request was authenticated and its session holds LIFE, and how many words it put. -/
structure PutInfo where
  tag : Word
  auth : Bool
  life : Bool
  count : Nat
  deriving DecidableEq, Repr

/-- The firmware watchdog (R616): the cycle from which it counts, and that of its expiry. -/
structure WdogSt where
  since : Nat
  expired : Option Nat
  deriving DecidableEq, Repr

/-! ### Hour ledger meters (11) -/

/-- A meter (R360 to R362): its total, and for SRC 4 its residue and the last reading. -/
structure MeterSt where
  total : BitVec 64
  residue : Nat
  prev : Option (BitVec 64)
  deriving DecidableEq, Repr

/-- The life-cycle states (R387). -/
inductive LifeState
  | maker | provisioned | deployed | returned
  deriving DecidableEq, Repr

/-! ### Configuration commit (02) -/

/-- A pending commit (R82 to R89, R318 to R320): new epoch, boundary, flags
(bit 0 persist, bit 1 two-phase) and argument; the cycle of acceptance and that of its timeout; the
switch cycle once decided; whether the switch has come and the persist write runs; and for a
two-phase commit the other participants, those whose commit-ready frame has come, whether a
commit-abort frame has come, and how often its own commit-ready frame was sent. -/
structure CommitSt where
  epoch : BitVec 16
  bound : Nat
  flags : Nat
  arg : Nat
  accepted : Nat
  limit : Nat
  switchAt : Option Nat
  switched : Bool
  parts : List Nat
  ready : List Nat
  aborted : Bool
  readySent : Nat
  deriving DecidableEq, Repr

/-! ### Granary (10) -/

/-- A block being gathered or waiting to be written (R347 to R349): stream, kind, instant of the first
element in t16, its elements as numbers, elements dropped just before it, whether the trigger lies
inside it, whether a freeze closed it, and its sequence number once complete. -/
structure GBlock where
  stream : Nat
  kind : Nat
  first : Nat
  elems : List Nat
  drops : Nat
  trig : Bool
  frozen : Bool
  seq : Nat
  deriving DecidableEq, Repr

/-- A stream of the running capture: number, configuration at start, K of a kind 3 source, the open
block, elements dropped since the last block was opened. -/
structure GStream where
  num : Nat
  cfg : Word
  k : Nat
  blk : Option GBlock
  drops : Nat
  deriving DecidableEq, Repr

/-- The Granary (R351 to R358): streams of the capture, ring base and size at its start, start cycle,
completed blocks not yet written, blocks written in all, completed blocks in all, blocks written
since the trigger, marks (task, PTP time), an armed freeze time, an elements-dropped total, and
whether a trigger was recorded. -/
structure GrnSt where
  streams : List GStream
  base : Nat
  size : Nat
  start : Nat
  queue : List GBlock
  written : Nat
  seq : Nat
  post : Nat
  marks : List (Nat × Nat)
  armed : Bool
  drops : Nat
  trigged : Bool
  deriving DecidableEq, Repr

def GrnSt.reset : GrnSt :=
  { streams := [], base := 0, size := 0, start := 0, queue := [], written := 0, seq := 0, post := 0,
    marks := [], armed := false, drops := 0, trigged := false }

/-! ### LPDDR6 (10) -/

/-- What MEMC has the SDRAM do (R342): normal operation with per-bank refresh, self-refresh, deep sleep, or nothing. -/
inductive SdramMode
  | normal | selfRefresh | deepSleep | off
  deriving DecidableEq, Repr

/-- The SDRAM (R342): its mode, whether it has been trained since it was initialised or left deep sleep, the errors that
its on-die ECC has corrected since the last refresh window, and the cycle of that window. -/
structure SdramSt where
  mode : SdramMode
  trained : Bool
  reports : Nat
  window : Nat
  deriving DecidableEq, Repr

/-- The scrubbers (R334): the cycle of the last pass over the on-die SRAMs, and the cycles at H0 since the last pass
over the MRAM array. -/
structure ScrubSt where
  sram : Nat
  mram : Nat
  deriving DecidableEq, Repr

/-! ### The always-on domain (15, 16, 17, 19) -/

/-- Whether the always-on domain has no supply, is held before the steps of R610, or runs. -/
inductive AoPhase
  | off | starting | on
  deriving DecidableEq, Repr

/-- The always-on domain beside its registers: its phase, whether the coming start is a power-up from no
supply and whether `PORESET_n` caused it (R610, R611), whether a restart waits for a sequence to complete
(R614), the supply VSYS in range (R527), the strap pins (R612), whether the engine and the AOC were
started (R610), a warning whose cause has not cleared (R542), the amounts reserved by the grants (R537), whether a request for Field has
cast FIELD and waits for the domains (R501), and the harvester's regulation point in sixty-fourths of a mV
and period in s (R533). -/
structure AoSt where
  phase : AoPhase
  full : Bool
  byPin : Bool
  restart : Bool
  vsys : Bool
  boot : Nat
  gpol : Bool
  warned : Bool
  reserved : Vector Nat 4
  toField : Bool
  point : Nat
  period : Nat
  deriving DecidableEq, Repr

/-- The shadow of a coherent read (R556): the four register words, which were read, and the counts of
calendar time since the freezing read. -/
structure Shadow where
  time : Word
  date : Word
  sub : Word
  wday : Word
  seen : Nat
  age : Nat
  deriving DecidableEq, Repr

/-- The calendar (R550 to R564): its fields, ticks since power-up (R553), counts towards the next trim
and counts still to be trimmed (R554), the shadow, and the units and ticks of the periodic wake. -/
structure CalSt where
  sub : Nat
  sec : Nat
  min : Nat
  hour : Nat
  day : Nat
  month : Nat
  year : Nat
  wday : Nat
  ticks : Nat
  counts : Nat
  trim : Int
  shadow : Option Shadow
  units : Nat
  part : Nat
  deriving DecidableEq, Repr

def CalSt.reset : CalSt :=
  { sub := 0, sec := 0, min := 0, hour := 0, day := 1, month := 1, year := 2000, wday := 0, ticks := 0,
    counts := 0, trim := 0, shadow := none, units := 0, part := 0 }

/-! ### Hour ledger (11) -/

/-- An entry that waits to be written (R372): type, CODE, payload, and the tick in which it fell due. -/
structure LEvent where
  type : Nat
  code : Nat
  payload : List Byte
  tick : Nat
  deriving DecidableEq, Repr

/-- The ledger engine beside its registers (R364 to R396): the queue; the chain head; the index of the
next slot; the tick and the increments of a HOUR entry that has fallen due; meter totals at the last HOUR entry; events
lost since the last HOUR entry and since the last seal; seal number, index of the previous SEAL, entries
written since the previous seal record; the reasons of seals that have fallen due; merged spans; the
index of a HANDOVER entry written; whether recovery is complete; for each tamper input the assertions
since its previous entry and the tick of that entry; parked-motion counts towards the next entry and the
pins last sampled; whether a tick was timed on LRC since the last HOUR entry; `WIN_FAULT.CONDENSE`; the
upper words of the meters as latched for each core. -/
structure LgrSt where
  queue : List LEvent
  head : BitVec 128
  next : Nat
  hourDue : Option (Nat × List Nat)
  hourBase : Vector (BitVec 64) 8
  lostHour : Nat
  lostSeal : Nat
  sealNum : Nat
  prevSeal : Option Nat
  since : Nat
  seals : List Nat
  merged : List (Nat × Nat)
  handover : Option Nat
  recovered : Bool
  tampCnt : Vector Nat 4
  tampTick : Vector (Option Nat) 4
  pmAcc : Nat
  pmPins : Bool × Bool
  lrcSeen : Bool
  condense : Bool
  latches : Vector (Vector Word 8) 5
  deriving DecidableEq, Repr

def LgrSt.reset : LgrSt :=
  { queue := [], head := 0, next := 0, hourDue := none, hourBase := Vector.replicate 8 0, lostHour := 0,
    lostSeal := 0, sealNum := 0, prevSeal := none, since := 0, seals := [], merged := [],
    handover := none, recovered := false, tampCnt := Vector.replicate 4 0,
    tampTick := Vector.replicate 4 none, pmAcc := 0, pmPins := (false, false), lrcSeen := false,
    condense := false, latches := Vector.replicate 5 (Vector.replicate 8 0) }

/-- What SEC holds by provisioning (R388, R389): the MAC address and EtherType of the provisioning
record, the OEM session, image and ledger keys, each none until its item is stored or once it is
erased; and whether the identity key is held (erased at return). -/
structure SecSt where
  mac : Option (BitVec 48)
  etype : Option (BitVec 16)
  oemSession : Option (BitVec 128)
  oemImage : Option (BitVec 512)
  oemLedger : Option (BitVec 512)
  identity : Bool
  deriving DecidableEq, Repr

def SecSt.reset : SecSt :=
  { mac := none, etype := none, oemSession := none, oemImage := none, oemLedger := none,
    identity := true }

/-! ### Serial ports (17) -/

/-- A serial port beside its registers: queues oldest first, a received character as data with its flags
in bits 10 to 12 as `Un_DATA` shows them; characters sent, oldest first; whether the last address
character matched (R579); the level of `UnRTS_n` (true: high). -/
structure UartSt where
  rx : List Nat
  tx : List Nat
  out : List Nat
  matched : Bool
  rts : Bool
  deriving DecidableEq, Repr

def UartSt.reset : UartSt :=
  { rx := [], tx := [], out := [], matched := false, rts := true }

/-! ### Touch keys and display (18) -/

/-- One touch key (R587 to R591): consecutive scans for a press, for a release and for a negative
recalibration; scans towards a step of drift; ticks for which it has been pressed. -/
structure KeySt where
  press : Nat
  release : Nat
  neg : Nat
  drift : Nat
  onFor : Nat
  deriving DecidableEq, Repr

def KeySt.reset : KeySt := { press := 0, release := 0, neg := 0, drift := 0, onFor := 0 }

/-- A report: key and kind (R596). -/
structure TReport where
  key : Nat
  kind : Nat
  deriving DecidableEq, Repr

/-- The touch controller beside its registers (R586 to R597): keys, recalibration requests, reports
oldest first, baseline of the wet channel, consecutive scans below WETREL, keys pressed at wet entry that
have not been scanned since exit, the tick in which the scan level was entered or a touch was last seen,
the ticks of the last scan and of the next. -/
structure TouchSt where
  keys : Vector KeySt 64
  recal : BitVec 64
  reports : List TReport
  wetBase : Nat
  wetLow : Nat
  afterWet : BitVec 64
  idleFrom : Nat
  lastScan : Nat
  nextScan : Nat
  deriving DecidableEq, Repr

def TouchSt.reset : TouchSt :=
  { keys := Vector.replicate 64 KeySt.reset, recal := 0, reports := [], wetBase := 0, wetLow := 0,
    afterWet := 0, idleFrom := 0, lastScan := 0, nextScan := 0 }

/-- The display driver beside its registers (R600 to R608): pending and displayed copies, the band
decided for the next boundary, the trim RAM in force (byte 48c + s), a loaded map that waits for the
boundary, a load in progress with its offset, whether the driver drives frames. -/
structure LcdSt where
  pending : Vector Word 16
  shown : Vector Word 16
  band : Option Nat
  trim : SMap Byte
  loaded : Option (SMap Byte)
  load : Option Nat
  driving : Bool
  deriving DecidableEq, Repr

def LcdSt.reset : LcdSt :=
  { pending := Vector.replicate 16 0, shown := Vector.replicate 16 0, band := none, trim := [],
    loaded := none, load := none, driving := false }


/-! ### Cores (12, 13, 14) -/

/-- A capability register or granule: its 128 bits and its tag (R399). -/
structure Cap where
  bits : BitVec 128
  tag : Bool
  deriving DecidableEq, Repr

def Cap.null : Cap := { bits := 0, tag := false }

/-- A capability with zero reserved bits (R399). -/
def Cap.make (base limit perm sl : Nat) (tag : Bool) : Cap :=
  { bits := BitVec.ofNat 128 (base % 2 ^ 40 + limit % 2 ^ 40 * 2 ^ 40 + perm % 2 ^ 12 * 2 ^ 80 + sl % 2 ^ 8 * 2 ^ 92),
    tag := tag }

/-- The save registers of a level (R483). -/
structure SaveSt where
  spc : Word
  sstat : Word
  scap : Cap
  replay0 : Word
  replay1 : Word
  faddr : BitVec 40
  deriving DecidableEq, Repr

/-- A shadow-stack entry: return offset, and for the capability kind BASE and LIMIT of the caller's `c0`
(R485). -/
structure ShadowEntry where
  offs : Word
  cap : Option (BitVec 40 × BitVec 40)
  deriving DecidableEq, Repr

/-- The loaded descriptor table: the bytes of the descriptors and the vault (R478, R480). -/
structure HdtCopy where
  bytes : List Byte
  vault : List Cap
  deriving DecidableEq, Repr

/-- A long operation in flight (R411, R443): its word and offset, RD, source registers, result, flags, and
the core's cycle in which the result is written. -/
structure LongOp where
  word : Word
  offs : Word
  rd : Reg
  srcs : List Reg
  result : Word
  flags : Nat
  due : Nat
  deriving DecidableEq, Repr

/-- A transfer of control whose delay slot is still to come (R424 to R429): its offset, target, whether it
is taken, the `c0` it installs, its cost in cycles, and what a fault in the
slot puts back: `g28` as a call found it, `c6` and the shadow stack. `missed` says that its fetch missed the cache. `cond` is the outcome of a conditional branch, for the
predictor. -/
structure Transfer where
  offs : Word
  target : Word
  taken : Bool
  code : Option Cap
  cost : Nat
  cond : Option Bool
  oldLink : Option Word
  oldCap : Cap
  oldStack : List ShadowEntry
  missed : Bool
  deriving DecidableEq, Repr

/-- A core (12 to 14); both cores of a control pair are one (R495). `held` says that it waits for its
release (R620); `waiting` that it waits in `WFE`. `latch` holds the HI words that reads of `CYCLE_LO`,
`RETIRED_LO` and the four performance counters latched. `bank` holds c1 to c7 of the interrupted flow, by
level (R482). `shadow` are the shadow stacks of levels 0 to 3, of the base and of the double-fault state,
newest entry first. `pred` lists predictor counters and their tags that differ from 1 and `predTag`
(R452, R456); `scrambles` are those drawn, `drawn` says that the draw is complete (R457). `line` is the line
in the line buffer and `ways` the allocated cache lines by way and line number, most recently used first
(R444 to R446). `load` lists the registers that the previous instruction gives at the end of M (R440: 0 to 31
general, 32 to 39 capability), `upd` the updates of the predictor by branches that have not reached W
(R453), oldest first: cycle of X, offset, outcome. `flip` says that a lockstep test injection waits (R496). -/
structure CoreSt where
  regs : Vector Word 32
  caps : Vector Cap 8
  pc : Word
  held : Bool
  waiting : Bool
  slot : Option Transfer
  long : Option LongOp
  load : List Nat
  fflags : Nat
  cycle : Nat
  retired : Nat
  latch : Vector Word 6
  sealmask : Vector Word 8
  svc : Nat
  ctx : Nat
  icctl : Nat
  perf : Vector Nat 4
  pred : SMap (Nat × Nat)
  predTag : Nat
  upd : List (Nat × Word × Bool)
  scrambles : List Nat
  drawn : Bool
  line : Option Nat
  ways : List (Nat × Nat)
  save : Vector SaveSt 4
  bank : Vector (Vector Cap 7) 4
  dfpc : Word
  dfstat : Word
  dfaddr : BitVec 40
  cur : Nat
  mask : Nat
  df : Bool
  ien : Nat
  tm : Bool
  tmcmp : Word
  hdtBase : Word
  hdt : Option HdtCopy
  shadow : Vector (List ShadowEntry) 6
  flip : Bool
  deriving DecidableEq, Repr

def SaveSt.reset : SaveSt :=
  { spc := 0, sstat := 0x40000, scap := Cap.null, replay0 := 0, replay1 := 0, faddr := 0 }

/-- A core after a reset (R398, R402, R437, R452, R469): the roots, zero elsewhere. `CPM_PAIRn_RST`, not
`held`, holds a control pair. -/
def CoreSt.reset (held : Bool) : CoreSt :=
  { regs := Vector.replicate 32 0,
    caps := #v[Cap.make 0 0x1FFFF 0x744 0 true, Cap.make 0 0xFFFFFFFFFF 0x0FB 0 true,
      Cap.make 0 0xFFFFFFFFFF 0x745 0 true, Cap.null, Cap.null, Cap.null, Cap.null, Cap.null],
    pc := 0, held := held, waiting := false, slot := none, long := none, load := [], fflags := 0,
    cycle := 0, retired := 0, latch := Vector.replicate 6 0, sealmask := Vector.replicate 8 0xFFFFFFFF,
    svc := 0, ctx := 0, icctl := 0, perf := Vector.replicate 4 0, pred := [], predTag := 0, upd := [], scrambles := [],
    drawn := false, line := none, ways := [], save := Vector.replicate 4 SaveSt.reset,
    bank := Vector.replicate 4 (Vector.replicate 7 Cap.null), dfpc := 0, dfstat := 0x40000, dfaddr := 0,
    cur := 4, mask := 0, df := false, ien := 0, tm := false, tmcmp := 0xFFFFFFFF, hdtBase := 0, hdt := none,
    shadow := Vector.replicate 6 [], flip := false }

/-- The instruction in the JTAG TAP (R390). -/
inductive TapInstr
  | idcode | bypass | sample | access
  deriving DecidableEq, Repr

/-! ### The machine -/

/-- The state of the device. -/
structure State where
  /-- The queue of commands that wait, first in, first out. -/
  pending : List Instr
  /-- The present loop cycle. -/
  now : Nat
  /-- MODEL'S OWN: how many free values have been drawn. -/
  free : Nat
  /-- Every block register and array image of the address map (R24), by physical address; an
  unlisted word reads as its reset value. -/
  reg : SMap Word
  /-- The cycle in which hardware last set flags, and the bits that it set then, by register address (R14). -/
  flags : Nat × SMap Word
  /-- The pending bank: staged words by item address (R79, R80). -/
  bank : SMap (Word × Word)
  /-- The memories of the address map, by physical address; an unlisted byte reads as 0. -/
  mem : SMap Byte
  /-- How many bits of a stored word of an SRAM, the MRAM or LPDDR6 are in error, by the word's address (R333, R335). An
  array that no agent can address stands above 2^40. -/
  upset : SMap Nat
  /-- The scrubbers. -/
  scrub : ScrubSt
  /-- The SDRAM. -/
  sdram : SdramSt
  /-- The 16-byte granules of memory whose tag is set (R400), rising. -/
  tags : List Nat
  /-- The word that the last register access made by a command of its own returned (0 for a write);
  none after a bus error. -/
  answer : Option Word
  /-- Tasks delivered to fast-domain consumers and not yet taken (R277). -/
  arrived : List Arrival
  /-- Tasks for the always-on domain that wait for BRC (R278). -/
  aoWait : List Arrival
  /-- The cycle from which the edges of BRC count (R278). -/
  brcFrom : Nat
  /-- The cycle in which event signals were last raised, and the signals raised in it (R273). -/
  raised : Nat × List Nat
  /-- One more than the cycle of the last delivery of each event-bit task (R283). -/
  evtAt : SMap Nat
  /-- The position tracks. -/
  trk : Vector TrkSt 16
  /-- The lines of the encoder interfaces 0 to 7. -/
  enc : Vector EncLines 8
  /-- The Almanac, by track. -/
  alm : Vector AlmSt 16
  /-- The Almanac's view of the present cycle. -/
  almc : AlmCycle
  /-- The converters. -/
  cv : Vector CvSt 24
  /-- The levels of the analogue inputs AIN00 to AIN63, in converter codes at ×1 (R176, R194). -/
  ain : Vector Int 64
  /-- The comparators. -/
  cmp : Vector CmpSt 32
  /-- The loop slices. -/
  slc : Vector SliceSt 16
  /-- What becomes due in later cycles. -/
  dues : List Due
  /-- The gate pairs. -/
  pair : Vector PairSt 32
  /-- `GEN_n` is driven low (R268). -/
  gen : Bool
  /-- A control pair was locked up at the end of the previous cycle: `LOCKUP_n` is low (R493). -/
  lockLow : Bool
  /-- The mailbox channels. -/
  chan : Vector ChanSt 16
  /-- The fast, memory and link domains. -/
  dom : Vector DomSt 3
  /-- The first loop cycle after the fast domain left reset (R170). -/
  fastFrom : Nat
  /-- The boot ROM has released the link domain since its last reset (R44). -/
  linkFree : Bool
  /-- The fast-side blocks whose stop is under way, a bit for each (R525, R526). -/
  stops : Nat
  /-- `PLL_LOOP`. -/
  pll : PllSt
  /-- The cycle in which APM was last asked to start BRC, until BRC reports ready (R523). -/
  brcAt : Option Nat
  /-- The life-cycle state in fuses (R387). -/
  lcs : LifeState
  /-- The ledger meters. -/
  meter : Vector MeterSt 8
  /-- The ports PA and PB. -/
  port : Vector PortLink 2
  /-- The upstream port (R302, R307). -/
  upstream : Fin 2
  /-- The ring address, while `WIN_ID.ADDRV` is 1 (R302). -/
  addr : Option Nat
  /-- The provisioned MAC address (R43). -/
  mac : BitVec 48
  /-- PTP time less the loop clock's time, in units of 50 ps (R39, R306). -/
  ptpAdj : Int
  /-- The transmitters of the ports. -/
  tx : Vector TxSt 2
  /-- The frames that have left the device, oldest first. -/
  sent : List OutFrame
  /-- The open sessions (R60). -/
  sessions : List Session
  /-- The commands passed to firmware and not yet answered (R54, R615). -/
  waiting : List Waiting
  /-- The replies ready to leave, oldest first (R55). -/
  replies : List Reply
  /-- The kept replies of the last 16 completed commands, oldest first (R56). -/
  kept : List Kept
  /-- The credits held (R54). -/
  credits : Nat
  /-- `WIN_CREDIT.NOCRED`. -/
  nocred : Nat
  /-- `WIN_FAULT.FCODE`. -/
  fcode : Nat
  /-- `WIN_SCRATCH`. -/
  scratch : Word
  /-- `WIN_EPOCH.ACT`. -/
  epoch : BitVec 16
  /-- How many session tags and nonces have been drawn (R57). -/
  draws : Nat
  /-- Where the host's words on MBX13 and MBX14 came from. -/
  puts : Vector (Option PutInfo) 2
  /-- The words of a provisioning item received so far (R389). -/
  prov : List Word
  /-- The session that unlocked debug (R390). -/
  openBy : Option Word
  /-- The image slots (R91). -/
  img : Vector ImgSt 2
  /-- The configuration has been restored since the last start of the firmware (R624). -/
  restored : Bool
  /-- The firmware watchdog. -/
  wdog : WdogSt
  /-- `WIN_FAULT.PTPOFF` (R306). -/
  ptpOff : Bool
  /-- Consecutive Syncs within 50 ns (R306). -/
  ptpGood : Nat
  /-- The last heartbeat of each address (R310). -/
  hbs : List HbKept
  /-- The epoch comparison under way (R322). -/
  split : Option SplitCheck
  /-- The latch time of the last ring trip of each source (R316). -/
  tripSeen : List (Nat × Nat)
  /-- The count of device frames sent, by opcode (R295). -/
  devSeq : Vector Nat 5
  /-- The fault injections of the ports. -/
  inj : Vector InjSt 2
  /-- Ring trips with repeats to send (R314). -/
  tripTx : List TripTx
  /-- The pins TRIPIN0 to TRIPIN3 (R263). -/
  tripin : Vector PinSt 4
  /-- The cores CTL0, CTL1, MGT0, MGT1 and AOC, by `CORE.ID` (R436). -/
  core : Vector CoreSt 5
  /-- How many predictor scrambles have been drawn from the TRNG (R457). -/
  scrDraws : Nat
  /-- The instruction in the JTAG TAP (R390, R613). -/
  tap : TapInstr
  /-- Lockup of CTL0 and CTL1 (R493). -/
  locked : Vector Bool 2
  /-- The pending commit. -/
  commit : Option CommitSt
  /-- The Granary. -/
  grn : GrnSt
  /-- `MEMC_CFG` as of the last initialisation of the memory domain (10). -/
  memcCfg : Word
  /-- The always-on domain. -/
  ao : AoSt
  /-- The calendar. -/
  cal : CalSt
  /-- The hour ledger. -/
  lgr : LgrSt
  /-- What SEC holds. -/
  sec : SecSt
  /-- The serial ports. -/
  uart : Vector UartSt 4
  /-- The touch controller. -/
  tch : TouchSt
  /-- The display driver. -/
  lcd : LcdSt
  deriving DecidableEq, Repr

/-- The machine right after reset: power-up from no supply with VSYS present, before the steps of
R610. Registers hold the reset values of their field tables. -/
def State.reset : State :=
  { pending := [],
    now := 0,
    free := 0,
    reg := [],
    flags := (0, []),
    bank := [],
    mem := [],
    upset := [],
    scrub := { sram := 0, mram := 0 },
    sdram := { mode := .off, trained := false, reports := 0, window := 0 },
    tags := [],
    answer := none,
    arrived := [],
    aoWait := [],
    brcFrom := 0,
    raised := (0, []),
    evtAt := [],
    trk := Vector.replicate 16 TrkSt.reset,
    enc := Vector.replicate 8 ⟨false, false⟩,
    alm := Vector.replicate 16 AlmSt.reset,
    almc := AlmCycle.reset,
    cv := Vector.replicate 24 CvSt.reset,
    ain := Vector.replicate 64 0,
    cmp := Vector.replicate 32 CmpSt.reset,
    slc := Vector.replicate 16 SliceSt.reset,
    dues := [],
    pair := Vector.replicate 32 PairSt.reset,
    gen := false,
    lockLow := false,
    chan := Vector.replicate 16 ChanSt.reset,
    dom := Vector.replicate 3 ⟨.down, 5, true, 0⟩,
    fastFrom := 0,
    linkFree := false,
    stops := 0,
    pll := { holdAt := 0, waitHrc := false, undo := none },
    brcAt := none,
    lcs := .maker,
    meter := Vector.replicate 8 ⟨0, 0, none⟩,
    port := Vector.replicate 2 PortLink.reset,
    upstream := 0,
    addr := none,
    mac := 0,
    ptpAdj := 0,
    tx := Vector.replicate 2 TxSt.reset,
    sent := [],
    sessions := [],
    waiting := [],
    replies := [],
    kept := [],
    credits := 16,
    nocred := 0,
    fcode := 0,
    scratch := 0,
    epoch := 0,
    draws := 0,
    puts := Vector.replicate 2 none,
    prov := [],
    openBy := none,
    img := Vector.replicate 2 ⟨0, 0⟩,
    restored := false,
    wdog := { since := 0, expired := none },
    ptpOff := false,
    ptpGood := 0,
    hbs := [],
    split := none,
    tripSeen := [],
    devSeq := Vector.replicate 5 0,
    inj := Vector.replicate 2 InjSt.reset,
    tripTx := [],
    tripin := Vector.replicate 4 ⟨false, 0⟩,
    core := #v[CoreSt.reset false, CoreSt.reset false, CoreSt.reset false, CoreSt.reset true, CoreSt.reset false],
    scrDraws := 0,
    tap := TapInstr.idcode,
    locked := Vector.replicate 2 false,
    commit := none,
    grn := GrnSt.reset,
    memcCfg := 0x33,
    ao := { phase := .starting, full := true, byPin := false, restart := false, vsys := true, boot := 0, gpol := false, warned := false, reserved := Vector.replicate 4 0, toField := false, point := 0, period := 16 },
    cal := CalSt.reset,
    lgr := LgrSt.reset,
    sec := SecSt.reset,
    uart := Vector.replicate 4 UartSt.reset,
    tch := TouchSt.reset,
    lcd := LcdSt.reset }

/-- A step of this model never ends in a fault: every stop the spec describes is an effect on the
state (an error reply, a bus error answered to its agent, a fault entry of a core). -/
inductive Fault
  deriving DecidableEq, Repr

/-- Why a command is refused by the model. -/
inductive Refusal
  /-- Raised by the dispatch for a command that has no meaning yet; safe, since nothing follows. -/
  | notModelled (mnemonic : String)
  deriving DecidableEq, Repr

/-- What a command answers. -/
abbrev Result := Host.Outcome State Fault Refusal

end Sys2Proof.Machine
end

