-- ==== Sys2Proof/Machine/Ops.lean ====
section
/-!
DEFINITION. Machine/Ops.lean: the named operations over registers, memory, free values and time that
every block uses. A register word has one home, `State.reg`, and a byte of memory one home,
`State.mem`; both are read and written here only.
-/
namespace Sys2Proof.Machine

/-! ### Register words and fields -/

/-- The bits [msb:lsb] of a word, as a number. -/
def fieldOf (w : Word) (msb lsb : Nat) : Nat := w.toNat / 2 ^ lsb % 2 ^ (msb + 1 - lsb)

/-- A word with its bits [msb:lsb] replaced by `v`, modulo the field's width. -/
def withField (w : Word) (msb lsb v : Nat) : Word :=
  BitVec.ofNat 32 (w.toNat % 2 ^ lsb + v % 2 ^ (msb + 1 - lsb) * 2 ^ lsb +
    w.toNat / 2 ^ (msb + 1) * 2 ^ (msb + 1))

/-- The stored word of the register at address `a`. -/
def State.rd (s : State) (a : Nat) : Word := SMap.get resetWord s.reg a

/-- Store the word of the register at address `a`. -/
def State.wr (s : State) (a : Nat) (w : Word) : State :=
  { s with reg := SMap.set resetWord s.reg a w }

/-- A field's value. -/
def State.get (s : State) (f : Fld) : Nat := fieldOf (s.rd f.adr) f.msb f.lsb

/-- A field is not 0. -/
def State.on (s : State) (f : Fld) : Bool := decide (s.get f ≠ 0)

/-- Set a field. -/
def State.set (s : State) (f : Fld) (v : Nat) : State :=
  s.wr f.adr (withField (s.rd f.adr) f.msb f.lsb v)

/-- The bits of the word at `a` that hardware has set in the present cycle (R14). -/
def State.setNow (s : State) (a : Nat) : Word :=
  if s.flags.1 = s.now then SMap.get (fun _ => 0#32) s.flags.2 a else 0

/-- Note that hardware sets the bits `v` of field `f` in the present cycle (R14). -/
def State.noteSet (s : State) (f : Fld) (v : Nat) : State :=
  let m := if s.flags.1 = s.now then s.flags.2 else []
  { s with flags := (s.now, SMap.set (fun _ => 0#32) m f.adr (s.setNow f.adr ||| withField 0 f.msb f.lsb v)) }

/-- Hardware sets a one-bit flag. -/
def State.raise (s : State) (f : Fld) : State := (s.set f 1).noteSet f 1

/-- Firmware may clear a one-bit flag: hardware has not set it in the present cycle (R14). -/
def State.clearable (s : State) (f : Fld) : Bool := !(s.setNow f.adr).getLsbD f.lsb

/-- Bit `i` of a field. -/
def State.bit (s : State) (f : Fld) (i : Nat) : Bool := (s.get f).testBit i

/-- Set or clear bit `i` of a field. -/
def State.setBitOf (s : State) (f : Fld) (i : Nat) (b : Bool) : State :=
  s.set f (setBit (s.get f) i b)

/-- Hardware sets bit `i` of a field of flags. -/
def State.raiseBit (s : State) (f : Fld) (i : Nat) : State := (s.setBitOf f i true).noteSet f (2 ^ i)

/-- A signed field's value. -/
def State.getInt (s : State) (f : Fld) : Int := signed (f.msb + 1 - f.lsb) (s.get f)

/-- Clear every register word with an address from `lo` to `hi - 1` to its reset value. -/
def State.clearRegs (s : State) (lo hi : Nat) : State :=
  { s with reg := SMap.keep (fun a => decide (a < lo) || decide (hi ≤ a)) s.reg }

/-! ### Memory bytes -/

/-- The byte at address `a`. -/
def State.byte (s : State) (a : Nat) : Byte := SMap.get (fun _ => 0#8) s.mem a

/-- Store a byte; a plain store clears the tag of its granule (R419). -/
def State.putByte (s : State) (a : Nat) (b : Byte) : State :=
  { s with mem := SMap.set (fun _ => 0#8) s.mem a b, tags := s.tags.filter (fun g => g != a / 16) }

/-- `n` bytes from address `a`. -/
def State.bytes (s : State) (a : Nat) : Nat → List Byte
  | 0 => []
  | n + 1 => s.byte a :: s.bytes (a + 1) n

/-- Store bytes from address `a`. -/
def State.putBytes (s : State) (a : Nat) : List Byte → State
  | [] => s
  | b :: l => (s.putByte a b).putBytes (a + 1) l

/-- The little-endian number in `n` bytes from address `a` (R11). -/
def State.le (s : State) (a n : Nat) : Nat := ofLeBytes (s.bytes a n)

/-- Store a little-endian number in `n` bytes from address `a` (R11). -/
def State.putLe (s : State) (a n v : Nat) : State := s.putBytes a (leBytes n v)

/-- Memory from `lo` to `hi - 1` loses its contents and tags. -/
def State.clearMem (s : State) (lo hi : Nat) : State :=
  { s with mem := SMap.keep (fun a => decide (a < lo) || decide (hi ≤ a)) s.mem,
           tags := s.tags.filter (fun g => decide (16 * g < lo) || decide (hi ≤ 16 * g)) }

/-- The memory has its canonical form. -/
abbrev Memory.wf (s : State) : Bool := SMap.wf (fun _ => 0#8) s.mem

/-! ### Error correction (R333 to R335) -/

/-- The word that stores address `a`: 64 bits with a code of its own, in the AOC SRAMs 32 bits, in LPDDR6 32 bytes (R333,
R335). -/
def eccWord (a : Nat) : Nat :=
  let n := if 0x1000000000 ≤ a ∧ a < 0x3000000000 then 32 else if 0x41000000 ≤ a ∧ a < 0x41050000 then 4 else 8
  a / n * n

/-- The stored word at `a` has two bits in error. -/
def State.spoilt (s : State) (a : Nat) : Bool := decide (2 ≤ SMap.get (fun _ => 0) s.upset (eccWord a))

/-- The word at `a` is read: one bit in error is corrected in store and counted; two are recorded as an uncorrectable
error (R333, R335). -/
def State.eccRead (s : State) (a : Nat) : State :=
  if s.upset.isEmpty then s
  else
    let w := eccWord a
    let n := SMap.get (fun _ => 0) s.upset w
    let dram := decide (0x1000000000 ≤ a ∧ a < 0x3000000000)
    let ce := if dram then MEMC_ECC_CE.COUNT else CPM_ECC_CE.COUNT
    if n = 0 then s
    else if n = 1 then
      { s with upset := SMap.set (fun _ => 0) s.upset w 0 }.set ce (min (2 ^ 32 - 1) (s.get ce + 1))
    else if dram then
      ((s.raise MEMC_ECC_STAT.UE).set MEMC_ECC_ADDR_LO.ADDR a).set MEMC_ECC_ADDR_HI.ADDR (a / 2 ^ 32)
    else ((s.raise CPM_ECC_STAT.UE).set CPM_ECC_ADDR_LO.ADDR a).set CPM_ECC_ADDR_HI.ADDR (a / 2 ^ 32)

/-- The word at `w` holds a byte from `a` to `a + n - 1`. -/
def eccIn (a n w : Nat) : Bool := decide (0 < n ∧ eccWord a ≤ w ∧ w < a + n)

/-- Every word that holds a byte from `a` to `a + n - 1` is read. -/
def State.eccReads (s : State) (a n : Nat) : State :=
  (s.upset.filter (fun kv => eccIn a n kv.1)).foldl (fun (s : State) (kv : Nat × Nat) => s.eccRead kv.1) s

/-- A byte from `a` to `a + n - 1` lies in a word with two bits in error. -/
def State.spoiltAny (s : State) (a n : Nat) : Bool := s.upset.any (fun kv => eccIn a n kv.1 && decide (2 ≤ kv.2))

/-! ### Free values -/

/-- Draw a free number: a value that the spec leaves open. -/
def State.drawNat (s : State) : Nat × State :=
  (Config.freeNat s.free, { s with free := s.free + 1 })

/-! ### Regions and clocks -/

/-- Index of a domain in masks and vectors: 0 fast, 1 memory, 2 link (15). -/
def domIx : Dom → Fin 3
  | .fast => 0
  | .mem => 1
  | .link => 2

/-- The domain counts as being at H0 (R508). -/
def State.domUp (s : State) (d : Dom) : Bool := decide ((s.dom[domIx d]).phase = .up)

/-- The fast domain counts as being at H0. -/
def State.fastUp (s : State) : Bool := s.domUp .fast

/-- Numbers of the fast-side clock enables (15). -/
def blkTRK : Nat := 0
def blkALM : Nat := 1
def blkCNV : Nat := 2
def blkSLC : Nat := 3
def blkGOU : Nat := 4
def blkEVF : Nat := 5
def blkMBX : Nat := 6
def blkGRN : Nat := 7
def blkU2 : Nat := 8
def blkU3 : Nat := 9

/-- Fast-side block `b` takes new work: its domain is at H0, its clock enable is set, and no stop of it is
under way (R525, R526). -/
def State.takes (s : State) (b : Nat) : Bool :=
  s.fastUp && s.bit CPM_CLKEN.BLOCKS b && !s.stops.testBit b

/-- Fast-side block `b` still has its clock (R525, R526). -/
def State.runs (s : State) (b : Nat) : Bool := s.bit CPM_CLKRUN.BLOCKS b

/-- PTP time in ns of cycle `c`, rounded down: the loop clock at its nominal 0.8 ns and the device's offset, which is
held to 50 ps (R8, R39, R306). -/
def State.ptpOf (s : State) (c : Nat) : Nat := ((16 * (c : Int) + s.ptpAdj) / 20).toNat

/-- The fraction of a nanosecond that `ptpOf` drops, in units of 2^-32 ns (R349). -/
def State.ptpFrac (s : State) (c : Nat) : Nat := ((16 * (c : Int) + s.ptpAdj) % 20).toNat * 2 ^ 32 / 20

/-- PTP time of the device in ns (R306). -/
def State.ptp (s : State) : Nat := s.ptpOf s.now

/-- The first cycle that starts at or after PTP time `t` in ns. -/
def State.cycleOfPtp (s : State) (t : Nat) : Nat := ((20 * (t : Int) - s.ptpAdj + 15) / 16).toNat

/-- Loop cycles in `u` microseconds at the nominal loop clock (R8). -/
def usLc (u : Nat) : Nat := 1250 * u

/-- The present cycle in sixteenths. -/
def State.now16 (s : State) : Nat := 16 * s.now

/-- Something falls due in cycle `c`. -/
def State.later (s : State) (c : Nat) (a : DueAct) : State := { s with dues := s.dues ++ [{ cycle := c, act := a }] }

/-- Apply `f` for each number below `n`. -/
def forNat (f : Nat → State → State) : Nat → State → State
  | 0, s => s
  | n + 1, s => f n (forNat f n s)

/-! ### Answers to commands -/

/-- The final reply to a command becomes ready (R55). -/
def State.finish (s : State) (w : Waiting) (status : Nat) (params : List Byte) : State :=
  let r : Reply := { cmd := w, status := status, params := params, credit := true }
  { s with waiting := s.waiting.erase w, replies := s.replies ++ [r] }

/-- Every command with opcode `op` that waits for its answer gets one. -/
def State.finishAll (s : State) (op status : Nat) (params : List Byte) : State :=
  (s.waiting.filter (fun w => w.op == op)).foldl
    (fun (s : State) (w : Waiting) => s.finish w status params) s

end Sys2Proof.Machine
end

