-- ==== Sys2Proof/Machine/Fabric.lean ====
section
/-!
DEFINITION. Machine/Fabric.lean: the event fabric (08): raising signals and sources, routing tasks,
core and AOC event bits, lost tasks; and the counting of ledger meters that tasks and events drive.
-/
namespace Sys2Proof.Machine

/-- Operating modes as `APM_MODE.MODE` encodes them (R500). -/
def mField : Nat := 0
def mYard : Nat := 1
def mBarn : Nat := 2
def mCellar : Nat := 3

def State.mode (s : State) : Nat := s.get APM_MODE.MODE

/-- APM starts BRC when it is stopped (R523). -/
def State.wakeBrc (s : State) : State :=
  if s.on APM_CLKSTAT.BRCRUN then s else { s with brcAt := some (s.brcAt.getD s.now) }

/-- The meters count: in DEPLOYED, outside Cellar (R360). -/
def State.metersLive (s : State) : Bool := decide (s.lcs = .deployed) && decide (s.mode ≠ mCellar)

/-- The source of meter `k`, 0 while it is not enabled (R361). -/
def State.meterSrc (s : State) (k : Nat) : Nat :=
  if s.on (LGR_MTR_CFG.EN k) then s.get (LGR_MTR_CFG.SRC k) else 0

/-- Add `n` to meter `k`, saturating (R360). -/
def State.meterAdd (s : State) (k : Fin 8) (n : Nat) : State :=
  if s.metersLive then
    let t := min (2 ^ 64 - 1) ((s.meter[k]).total.toNat + n)
    let m : MeterSt := { s.meter[k] with total := BitVec.ofNat 64 t }
    { s with meter := s.meter.set k m }
  else s

/-- Set the lost bit of a task that was dropped or discarded (R282). -/
def State.taskLost (s : State) (task : Nat) : State :=
  s.raiseBit (EVF_TLOST.LOST (task / 32)) (task % 32)

/-- An event-bit task arrives in the present cycle: bit `k` of `pend`, or of `ovr` when it is busy (R283). -/
def State.eventBit (s : State) (pend ovr : Fld) (k task : Nat) : State :=
  if s.bit pend k then
    if SMap.get (fun _ => 0) s.evtAt task = s.now + 1 then s
    else (s.raiseBit ovr k).taskLost task
  else { s.raiseBit pend k with evtAt := SMap.set (fun _ => 0) s.evtAt task (s.now + 1) }

/-- A core event task arrives (R275, R283). -/
def State.coreEvent (s : State) (task : Nat) : State :=
  let c := (task - 0xA0) / 8
  s.eventBit (EVF_CORE_PEND.PEND c) (EVF_CORE_PEND.OVR c) (task % 8) task

/-- The AOC's wait ends (R466). -/
def State.wakeAoc (s : State) : State := { s with core := s.core.set 4 { s.core[4] with waiting := false } }

/-- A task reaches the always-on domain (R275, R278): an event bit, which ends the AOC's wait (R466); a touch task; a
meter task, which a disabled meter loses (R282). -/
def State.aoTask (s : State) (task : Nat) : State :=
  if task < 0xC8 then
    (s.eventBit EVF_AO_PEND.PEND EVF_AO_PEND.OVR (task - 0xC0) task).wakeAoc
  else if task < 0xCA then
    { s with arrived := s.arrived ++ [{ task := task, inst := none, cycle := s.now }] }
  else if h : task - 0xCA < 8 then
    if s.meterSrc (task - 0xCA) = 7 then s.meterAdd ⟨task - 0xCA, h⟩ 1
    else if s.on (LGR_MTR_CFG.EN (task - 0xCA)) then s else s.taskLost task
  else s

/-- The period of BRC in sixteenths of a loop cycle (R520). -/
def State.brcPer (s : State) : Nat := if s.on APM_CLK.BRCF then 625 else 5000

/-- The cycle that holds the second edge of BRC after cycle `c` (R34, R278). The phase of BRC to the loop clock is a free
value. -/
def State.brcSecond (s : State) (c : Nat) : Nat :=
  let p := s.brcPer
  let e := 16 * s.brcFrom + Config.brcPhase s.brcFrom % p
  let t := 16 * (c + 1)
  (e + ((t - e + p - 1) / p + 1) * p) / 16

/-- Deliver a task raised in cycle `cyc`, carrying an instant or none (R275, R278, R280). -/
def State.deliver (s : State) (task : Nat) (inst : Option Nat) (cyc : Nat) : State :=
  if 0xD2 ≤ task then s.raise EVF_STAT.BADTASK
  else if 0xC0 ≤ task then
    if s.on APM_CLKSTAT.BRCRUN then s.later (s.brcSecond cyc) (.aoTask task)
    else { s.wakeBrc with aoWait := s.aoWait ++ [{ task := task, inst := none, cycle := cyc }] }
  else if 0xA0 ≤ task then s.later (cyc + 1) (.eventBit task)
  else { s with arrived := s.arrived ++ [{ task := task, inst := inst, cycle := cyc + 1 }] }

/-- The tasks of source `src`, each number once (R277). -/
def State.routeTasks (s : State) (src : Nat) : List Nat :=
  let n := min 8 (s.get (EVF_SRC_CFG.TCNT src))
  let w := (s.rd (EVF_SRC_TA.adr src)).toNat + (s.rd (EVF_SRC_TB.adr src)).toNat * 2 ^ 32
  ((List.range n).map (fun j => w / 2 ^ (8 * j) % 256)).eraseDups

/-- A word of source `src`'s route cannot be read (R333). -/
def State.routeSpoilt (s : State) (src : Nat) : Bool := s.spoiltAny (EVF_SRC_CFG.adr src) 12

/-- Source `src` is raised in the present cycle (R277); a stopped fabric discards it (R286). A route that cannot be read
delivers no task (R333). -/
def State.raiseSrc (s : State) (src : Nat) (inst : Option Nat) : State :=
  if s.takes blkEVF then
    let s := (s.wr (EVF_SRC_CNT.adr src) (s.rd (EVF_SRC_CNT.adr src) + 1)).eccReads (EVF_SRC_CFG.adr src) 12
    (if s.routeSpoilt src then [] else s.routeTasks src).foldl (fun s t => s.deliver t inst s.now) s
  else s

/-- Sources 32 to 255 that select signal `sig` and are enabled (R273). A source's reset word selects
no signal, so that only listed words count. -/
def State.sourcesOf (s : State) (sig : Nat) : List Nat :=
  s.reg.filterMap (fun kv =>
    if 0x30500200 ≤ kv.1 ∧ kv.1 < 0x30501000 ∧ kv.1 % 16 = 0 ∧ fieldOf kv.2 31 31 = 1 ∧
        fieldOf kv.2 8 0 = sig then some ((kv.1 - 0x30500000) / 16) else none)

/-- Signals that are never raised (R274). -/
def sigReserved (sig : Nat) : Bool :=
  decide (0x042 ≤ sig ∧ sig ≤ 0x047) || decide (0x09C ≤ sig ∧ sig ≤ 0x09F) ||
    decide (0x1CD ≤ sig ∧ sig ≤ 0x1CF) || decide (0x1E2 ≤ sig)

/-- The signals that have been raised in the present cycle. -/
def State.raisedNow (s : State) : List Nat := if s.raised.1 = s.now then s.raised.2 else []

/-- A block raises signal `sig` in the present cycle: its sources are raised, once in a cycle (R273). -/
def State.signal (s : State) (sig : Nat) : State :=
  if sigReserved sig || s.raisedNow.contains sig then s
  else (s.sourcesOf sig).foldl (fun s src => s.raiseSrc src none)
    ({ s with raised := (s.now, s.raisedNow ++ [sig]) } : State)

/-- A block raises signal `sig` in cycle `c`, which is the present one or a later one. -/
def State.signalAt (s : State) (sig c : Nat) : State := if c ≤ s.now then s.signal sig else s.later c (.signal sig)

/-- An always-on block raises signal `sig`: it reaches the fast domain 2 lc later, or is discarded
while that is not at H0 (R279). -/
def State.aoSignal (s : State) (sig : Nat) : State :=
  if s.fastUp then s.signalAt sig (s.now + 2) else s.raise EVF_AO_STAT.LOSTEV

/-- The arrivals of `task`, and those of its earliest cycle. -/
def State.arrivalsOf (s : State) (task : Nat) : List Arrival :=
  let l := s.arrived.filter (fun a => a.task == task)
  match l with
  | [] => []
  | a :: t => let c := t.foldl (fun c b => min c b.cycle) a.cycle
              l.filter (fun b => b.cycle == c)

/-- Take arrivals out of the list. -/
def State.takeArrivals (s : State) (l : List Arrival) : State :=
  { s with arrived := l.foldl (fun q a => q.erase a) s.arrived }

end Sys2Proof.Machine
end

