-- ==== Sys2Proof/Machine/Mailbox.lean ====
section
/-!
DEFINITION. Machine/Mailbox.lean: mailbox channels and doorbells (08, R287 to R292). Accesses of one cycle
are made in the order of the commands that stand for them.
-/
namespace Sys2Proof.Machine

/-- Words a queue holds at most (08). -/
def mbxDepth : Nat := 8

/-- A level as it acts: 1 to 8 (08, `MBXn_CFG`). -/
def mbxLevel (l : Nat) : Nat := clampNat 1 8 l

/-- Update channel `c`. -/
def State.modChan (s : State) (c : Fin 16) (f : ChanSt → ChanSt) : State :=
  { s with chan := s.chan.set c (f s.chan[c]) }

/-- The queue of channel `c`: host-bound or device-bound. -/
def State.mbxQueue (s : State) (c : Fin 16) (host : Bool) : List Word :=
  if host then (s.chan[c]).host else (s.chan[c]).dev

def State.setQueue (s : State) (c : Fin 16) (host : Bool) (q : List Word) : State :=
  s.modChan c (fun x => if host then { x with host := q } else { x with dev := q })

/-- Push one word (R287, R288); answers whether it overwrote one. -/
def State.mbxPush (s : State) (c : Fin 16) (host : Bool) (w : Word) : Bool × State :=
  let q := s.mbxQueue c host
  if mbxDepth ≤ q.length then
    (true, (s.setQueue c host (q.dropLast ++ [w])).raise
      (if host then MBX_STAT.HCOLL c else MBX_STAT.DCOLL c))
  else
    let s := s.setQueue c host (q ++ [w])
    let lvl := mbxLevel (s.get (if host then MBX_CFG.HLVL c else MBX_CFG.DLVL c))
    (false, if q.length + 1 = lvl then s.signalAt ((if host then 0x1B0 else 0x1A0) + c) (s.now + 1) else s)

/-- Push words in order; answers whether any overwrote one (R289). -/
def State.mbxPushAll (s : State) (c : Fin 16) (host : Bool) : List Word → Bool × State
  | [] => (false, s)
  | w :: l =>
    let (o, s) := s.mbxPush c host w
    let (o', s) := s.mbxPushAll c host l
    (o || o', s)

/-- Where an error in the oldest word of a queue stands in `upset`: no agent can address the queues. -/
def mbxCell (c : Nat) (host : Bool) : Nat := 2 ^ 40 + 16 * c + (if host then 8 else 0)

/-- Pop the oldest word (R287); one that cannot be read is popped as zero and sets UNDER (R333). -/
def State.mbxPop (s : State) (c : Fin 16) (host : Bool) : Word × State :=
  let under := if host then MBX_STAT.HUNDER c else MBX_STAT.DUNDER c
  match s.mbxQueue c host with
  | [] => (0, s.raise under)
  | w :: q =>
    let a := mbxCell c host
    let t := (s.eccRead a).setQueue c host q
    if s.spoilt a then (0, ({ t with upset := SMap.set (fun _ => 0) t.upset a 0 } : State).raise under) else (w, t)

/-- Ring the doorbells of a mask (R292). -/
def State.ringBells (s : State) (mask : Word) : State :=
  forNat (fun n s =>
    if mask.getLsbD n then
      if s.bit MBX_BELL.BELL n then (s.raiseBit MBX_BELL_OVR.OVR n).raiseBit MBX_BELL.BELL n
      else (s.raiseBit MBX_BELL.BELL n).signalAt (0x180 + n) (s.now + 1)
    else s) 32 s

/-- Firmware writes `w` to `MBX_BELL`: of the doorbells that it clears, those that are also rung in this cycle stay, and
raise their event (R14, R292). -/
def State.bellRung (s : State) (w : Word) : State :=
  forNat (fun n s =>
    if w.getLsbD n && (s.setNow MBX_BELL.adr).getLsbD n then s.signalAt (0x180 + n) (s.now + 1) else s) 32 s

/-- Mailboxes and doorbells answer the host: the fast domain is at H0 and their clock is enabled
(R290). -/
def State.mbxOpen (s : State) : Bool := s.takes blkMBX

/-- A write of `WIN_DOORBELL`, or of `WIN_MBX`, takes effect (R289, R292). -/
def State.windowDue (s : State) (bell : Bool) (val : Word) : State :=
  if s.mbxOpen then (if bell then s.ringBells val else (s.mbxPush 15 false val).2) else s

end Sys2Proof.Machine
end

