-- ==== Sys2Proof/Machine/Meters.lean ====
section
/-!
DEFINITION. Machine/Meters.lean: what other blocks hand to the hour ledger (11): energy readings for the
meters, and entries and seals that fall due. Changes of the operating mode (15) stand here too, since each
queues an entry.
-/
namespace Sys2Proof.Machine

/-! ### Energy meters (R362) -/

/-- Meter `k` takes a reading `v` of its slice, and the next difference is taken from `next` (R362). -/
def State.energyReading (s : State) (k : Fin 8) (v next : BitVec 64) : State :=
  let m := s.meter[k]
  let m' : MeterSt := { m with prev := some next }
  match m.prev with
  | none => { s with meter := s.meter.set k m' }
  | some p =>
    let d := (v - p).toInt
    let par := s.get (LGR_MTR_CFG.PAR k)
    let add := if par.testBit 4 then (if d < 0 then (-d).toNat else 0) else d.toNat
    if s.metersLive then
      let r := m.residue + add
      let unit := 2 ^ s.get (LGR_MTR_CFG.SHIFT k)
      { s with meter := s.meter.set k { m' with residue := r % unit } }.meterAdd k (r / unit)
    else { s with meter := s.meter.set k m' }

/-- The fast domain is no longer at H0: its next readings begin the next differences (R362). -/
def State.energyBreak (s : State) : State :=
  { s with meter := s.meter.map (fun (m : MeterSt) => { m with prev := none }) }

/-- A slice zeroes its energy accumulator: its value until then is that tick's reading (R362). -/
def State.passEnergy (s : State) (n : Fin 16) : State :=
  if s.fastUp then
    (List.finRange 8).foldl (fun (s : State) (k : Fin 8) =>
      if s.meterSrc k = 4 ∧ s.get (LGR_MTR_CFG.PAR k) % 16 = n then s.energyReading k (s.slc[n]).energy 0
      else s) s
  else s

/-! ### Entries that fall due (R366, R371, R372) -/

/-- The place of an entry among those of one tick (R371); HANDOVER, which the list does not name, comes
last (DESIGN CHOICE). -/
def eventRank (type code : Nat) : Nat :=
  if type = 0x20 then 0 else if type = 0x21 then 1 else if type = 0x22 then 2 + code % 4
  else if type = 0x23 then 6 else if type = 0x26 then 7 else if type = 0x28 then 8
  else if type = 0x27 then 9 else if type = 0x24 then 10 else if type = 0x40 then 11 else 12

/-- The engine takes entries: the device is deployed and the engine runs (R360, R369). -/
def State.lgrTakes (s : State) : Bool :=
  decide (s.lcs = .deployed) && decide (s.ao.phase ≠ .off) && decide (s.mode ≠ mCellar)

/-- An event entry is lost (R372). -/
def State.lgrLose (s : State) : State :=
  { s with lgr := { s.lgr with lostHour := s.lgr.lostHour + 1, lostSeal := s.lgr.lostSeal + 1 } }.raise
    LGR_STAT.EVLOST

/-- An event entry falls due (R371, R372); a full ledger and the final sequence lose it (R383, R545). -/
def State.ledgerEvent (s : State) (type code : Nat) (payload : List Byte) : State :=
  if s.lgrTakes then
    if 16 ≤ s.lgr.queue.length ∨ s.on LGR_STAT.FULL ∨ s.on HRV_STAT.SEALING then s.lgrLose
    else
      let e : LEvent := { type := type, code := code, payload := payload, tick := s.cal.ticks }
      let lt (a b : LEvent) : Bool := decide (a.tick < b.tick) ||
        (a.tick == b.tick && decide (eventRank a.type a.code < eventRank b.type b.code))
      { s with lgr := { s.lgr with queue := insertBy lt e s.lgr.queue } }
  else s

/-- A seal falls due for a reason (R374); while the final sequence runs it is merged (R545). -/
def State.sealDue (s : State) (reason : Nat) : State :=
  if s.lgrTakes && !s.on HRV_STAT.SEALING && !s.lgr.seals.contains reason then
    { s with lgr := { s.lgr with seals := s.lgr.seals ++ [reason] } }
  else s

/-- A watch source that reports through the AOC (R385): signal 0x1CB, and with `wake` event bit 7, through which the AOC
wakes. -/
def State.watchReport (s : State) (wake : Bool) : State :=
  let s := s.aoSignal 0x1CB
  if wake then (s.raiseBit EVF_AO_PEND.PEND 7).wakeBrc.wakeAoc else s

/-! ### Operating mode (R500, R503) -/

/-- The mode becomes `m` (R503): a MODE entry is queued, a seal falls due on entry to Barn (R374), and
FIELDSEEN is set on the first entry to Field (R396). -/
def State.modeTo (s : State) (m : Nat) : State :=
  let old := s.mode
  if old = m then s
  else
    let s := (s.set APM_MODE.MODE m).ledgerEvent 0x20 (m + 256 * old) (List.replicate 32 0#8)
    let s := if m = mBarn then s.sealDue 2 else s
    if m = mField ∧ s.lcs = .deployed then s.raise LGR_STAT.FIELDSEEN else s

/-- Withdraw FIELD from the three domains (R501). -/
def State.dropField (s : State) : State :=
  (((s.set (APM_VOTE.FIELD 0) 0).set (APM_VOTE.FIELD 1) 0).set (APM_VOTE.FIELD 2) 0)

end Sys2Proof.Machine
end

