-- ==== Sys2Proof/Machine/Frames.lean ====
section
/-!
DEFINITION. Machine/Frames.lean: frames that leave the device (02, 09): Ethernet and Wembi framing,
device frames (R295), and the fault injection that acts on transmitted frames (R326, R327).
-/
namespace Sys2Proof.Machine

/-- Index of a port: 0 for PA, 1 for PB. -/
def portIx : PortId → Fin 2
  | .pa => 0
  | .pb => 1

/-- The other port. -/
def otherPort : PortId → PortId
  | .pa => .pb
  | .pb => .pa

def portOf (i : Fin 2) : PortId := if i = 0 then .pa else .pb

/-- Pad to the Ethernet minimum of 60 bytes before the FCS. -/
def padFrame (l : List Byte) : List Byte := l ++ List.replicate (60 - l.length) 0#8

/-- An Ethernet frame without FCS: addresses, optional 802.1Q tag, EtherType, content, padding. -/
def etherFrame (dst src : BitVec 48) (vlan : Option (BitVec 16)) (etype : Nat)
    (content : List Byte) : List Byte :=
  padFrame (beBytes 6 dst.toNat ++ beBytes 6 src.toNat ++
    (match vlan with
     | some t => beBytes 2 0x8100 ++ beBytes 2 t.toNat
     | none => []) ++ beBytes 2 etype ++ content)

/-- The EtherType of a frame, behind a tag if there is one. -/
def frameEtype (l : List Byte) : Nat :=
  let t := ofBeBytes ((l.drop 12).take 2)
  if t = 0x8100 then ofBeBytes ((l.drop 16).take 2) else t

/-- Invert `n` bits from bit `first`, counted from the first bit sent, most significant bit of each
byte first (R327). -/
def invertBits (first n : Nat) (l : List Byte) : List Byte :=
  (List.range l.length).zipWith (fun i (b : Byte) =>
    (List.range 8).foldl (fun (a : Byte) j =>
      if first ≤ 8 * i + j ∧ 8 * i + j < first + n then a ^^^ BitVec.ofNat 8 (2 ^ (7 - j)) else a) b) l

/-- Append a frame to what has left the device. -/
def State.emit (s : State) (f : OutFrame) : State := { s with sent := s.sent ++ [f] }

/-- Release a frame held by a reorder injection (R327). -/
def State.releaseHeld (s : State) (p : Fin 2) : State :=
  match (s.inj[p]).held with
  | some (f, _, _) => { s with inj := s.inj.set p { s.inj[p] with held := none } }.emit f
  | none => s

/-- One more frame has begun transmission on port `p` behind a held frame (R327). -/
def State.passHeld (s : State) (p : Fin 2) : State :=
  match (s.inj[p]).held with
  | some (f, k, c) =>
    let s := { s with inj := s.inj.set p { s.inj[p] with held := some (f, k - 1, c) } }
    if k ≤ 1 then s.releaseHeld p else s
  | none => s

/-- Mark the injection of port `p` as having acted (R326). -/
def State.injDone (s : State) (p : Fin 2) : State :=
  ((s.set (RING_INJ.ACTIVE p) 0).set (RING_INJ.KIND p) 0).raise (RING_INJ.DONE p)

/-- The injection of port `p` acts on an outgoing frame (R326, R327). `ft` says that the frame is
forwarded by cut-through and has already begun. -/
def State.inject (s : State) (p : Fin 2) (f : OutFrame) (ft : Bool) : State :=
  if s.on (RING_INJ.ACTIVE p) && (decide ((s.inj[p]).etype = 0) ||
      decide ((s.inj[p]).etype = frameEtype f.bytes)) then
    let i := s.inj[p]
    let k := s.get (RING_INJ.KIND p)
    if k = 1 then
      let n := s.get (RING_INJ.LEFT p)
      if n ≤ 1 then
        let s := (s.set (RING_INJ.LEFT p) 0).injDone p
        if ft then (s.emit { f with fcsOk := false }).passHeld p else s
      else ((s.set (RING_INJ.LEFT p) (n - 1)).emit f).passHeld p
    else if k = 2 then
      ((s.injDone p).emit
        { f with bytes := invertBits i.firstBit i.bits f.bytes, fcsOk := false }).passHeld p
    else if k = 3 then
      ((s.injDone p).emit { f with rsErr := i.bits, rsFirst := i.firstBit }).passHeld p
    else if k = 4 then
      let n := s.get (RING_INJ.LEFT p)
      let s := s.injDone p
      { s with inj := s.inj.set p { s.inj[p] with held := some (f, n, s.now) } }
    else s.emit f
  else (s.emit f).passHeld p

/-! ### Transmission (R40, R299) -/

/-- The priority levels of R299 that an own frame can have: 1 ring trips, 2 commit ready and commit abort, 3 PTP event
messages, 4 angle shares, 5 window replies and express replies, 7 heartbeats, 8 other own frames; a forwarded frame has
1 to 5 or 6. Levels 1 to 5 are the express class. -/
def isExpress (level : Nat) : Bool := decide (level ≤ 5)

/-- Frame `i` may be chosen before frame `j` (R299). -/
def TxItem.before (i j : TxItem) : Bool :=
  decide (i.level < j.level) || (i.level == j.level &&
    (decide (i.ready < j.ready) || (i.ready == j.ready && (i.fwd || !j.fwd))))

/-- The frame that a port chooses: the first by `TxItem.before`, in the order of the queue among equals (R299). -/
def nextTx : List TxItem → Option TxItem
  | [] => none
  | i :: l => match nextTx l with
    | none => some i
    | some j => if i.before j then some i else some j

/-- The cycles that a frame takes on the wire: preamble, frame, FCS and gap at 100 Gb/s, 10 bytes in a loop cycle. -/
def txTime (bytes : List Byte) : Nat := (bytes.length + 33) / 10

/-- Update the transmitter of port `p`. -/
def State.modTx (s : State) (p : Fin 2) (f : TxSt → TxSt) : State := { s with tx := s.tx.set p (f s.tx[p]) }

/-- Port `p` begins to transmit frame `i`. -/
def State.startTx (s : State) (p : Fin 2) (i : TxItem) : State :=
  let ex := isExpress i.level && (s.port[p]).preempt
  (s.modTx p (fun t => { t with
    queue := t.queue.erase i, startAt := s.now, idleAt := s.now + txTime i.frame.bytes, express := ex })).inject p
    { i.frame with express := ex } i.fwd

/-- The frame in transmission can be interrupted: it is preemptable, and neither part falls short of 64 bytes (R39). -/
def TxSt.canPreempt (t : TxSt) (now : Nat) : Bool :=
  !t.express && decide (t.left = 0) && decide (t.startAt + 8 ≤ now) && decide (now + 8 ≤ t.idleAt)

/-- Port `p` chooses its next frame in the present cycle (R40, R299). Once preemption is verified an express frame
interrupts a preemptable one, which goes on when no express frame waits. -/
def State.txCycle (s : State) (p : Fin 2) : State :=
  let t := s.tx[p]
  match nextTx t.queue with
  | none => if t.left ≠ 0 ∧ t.idleAt ≤ s.now then s.modTx p (fun t => { t with idleAt := s.now + t.left, left := 0 }) else s
  | some i =>
    let ex := isExpress i.level && (s.port[p]).preempt
    if !(s.domUp .link && (s.port[p]).up) then s
    else if t.idleAt ≤ s.now then
      if t.left ≠ 0 ∧ !ex then s.modTx p (fun t => { t with
        startAt := s.now, idleAt := s.now + t.left, express := false, left := 0 })
      else s.startTx p i
    else if ex && t.canPreempt s.now then (s.modTx p (fun t => { t with left := t.idleAt - s.now })).startTx p i
    else s

/-- A frame becomes ready on port `p`: it leaves only while the link domain is at H0 and the link is up. -/
def State.enqueue (s : State) (p : PortId) (level : Nat) (fwd : Bool) (bytes : List Byte) (fcsOk : Bool) : State :=
  if s.domUp .link && (s.port[portIx p]).up then
    let f : OutFrame := { port := p, bytes := bytes, express := false, fcsOk := fcsOk, rsErr := 0, rsFirst := 0 }
    s.modTx (portIx p) (fun t => { t with
      queue := t.queue ++ [{ level := level, ready := s.now, fwd := fwd, frame := f }] })
  else s

/-- Send a frame on port `p`, with its priority level. -/
def State.sendOn (s : State) (p : PortId) (level : Nat) (bytes : List Byte) : State := s.enqueue p level false bytes true

/-- Forward a frame on port `p` by cut-through; `fcsOk` is what it turned out to carry (R296, R297). -/
def State.forwardOn (s : State) (p : PortId) (level : Nat) (bytes : List Byte) (fcsOk : Bool) : State :=
  let s := if fcsOk || !(s.domUp .link && (s.port[portIx p]).up) then s
    else s.set RING_FWDERR.COUNT (s.get RING_FWDERR.COUNT + 1)
  s.enqueue p level true bytes fcsOk

/-- The device frames of R50. -/
inductive DevOp
  | heartbeat | angleShare | ringTrip | commitReady | commitAbort
  deriving DecidableEq, Repr

def DevOp.ix : DevOp → Fin 5
  | .heartbeat => 0
  | .angleShare => 1
  | .ringTrip => 2
  | .commitReady => 3
  | .commitAbort => 4

/-- The priority level of a device frame (R299). -/
def DevOp.level : DevOp → Nat
  | .heartbeat => 7
  | .angleShare => 4
  | .ringTrip => 1
  | .commitReady => 2
  | .commitAbort => 2

/-- The header and parameters of a device frame (R295). -/
def deviceBody (src seq op : Nat) (params : List Byte) : List Byte :=
  [0x02#8, 0x00#8, 0xFF#8, BitVec.ofNat 8 src] ++ beBytes 2 seq ++ beBytes 2 (0x0F00 + op) ++
    beBytes 2 params.length ++ List.replicate 6 0#8 ++ params

/-- Send a device frame on both ports: only while the device has a ring address (R295). -/
def State.sendDevice (s : State) (op : DevOp) (params : List Byte) : State :=
  match s.addr with
  | none => s
  | some a =>
    let seq := s.devSeq[op.ix]
    let f := etherFrame Config.deviceDst s.mac none (s.get ETH_ETYPE.VALUE)
      (deviceBody a seq op.ix params)
    ({ s with devSeq := s.devSeq.set op.ix (seq + 1) }.sendOn .pa op.level f).sendOn .pb op.level f

/-- The parameters of a ring trip (R315). -/
def ringTripParams (groups cause rep time : Nat) : List Byte :=
  [BitVec.ofNat 8 groups, BitVec.ofNat 8 cause] ++ beBytes 2 rep ++ beBytes 8 time

/-- A ring trip is sent after the latch cycle, and its two repeats become due (R314). -/
def State.ringTripSend (s : State) (groups cause : Nat) : State :=
  let t := s.ptp
  let s := s.sendDevice .ringTrip (ringTripParams groups cause 0 t)
  { s with tripTx := s.tripTx ++
      [{ groups := groups, cause := cause, time := t, cycle := s.now, rep := 1 }] }

end Sys2Proof.Machine
end

