-- ==== Sys2Proof/Machine/Granary.lean ====
section
/-!
DEFINITION. Machine/Granary.lean: the Granary (10): streams, blocks, the Gleaner, the ring, trigger and
freeze, and the frozen record.
-/
namespace Sys2Proof.Machine

/-- States of `GRN_STAT.STATE` (R351). -/
def gIdle : Nat := 0
def gRun : Nat := 1
def gPost : Nat := 2
def gFrozen : Nat := 3

def State.grnState (s : State) : Nat := s.get GRN_STAT.STATE

/-- The Granary takes elements: running or post-trigger. -/
def State.grnOpen (s : State) : Bool := s.grnState == gRun || s.grnState == gPost

/-- Bytes of one element (R345). -/
def elemSize (kind : Nat) : Nat :=
  if kind = 1 ∨ kind = 3 then 2 else if kind = 2 ∨ kind = 6 then 8
  else if kind = 4 ∨ kind = 7 then 16 else if kind = 5 then 24 else 1

def GStream.kind (g : GStream) : Nat := fieldOf g.cfg 26 24
def GStream.index (g : GStream) : Nat := fieldOf g.cfg 4 0
def GStream.glean (g : GStream) : Bool :=
  decide (fieldOf g.cfg 30 30 = 1) && (g.kind == 1 || g.kind == 3)

/-- Spacing in lc of the packed kinds and of kind 4 (R347, R349). -/
def GStream.spacing (g : GStream) : Nat :=
  if g.kind = 1 then 2 else if g.kind = 3 then 2 ^ (g.k + 1)
  else if g.kind = 4 then 2 ^ (min 20 (fieldOf g.cfg 12 8)) else 0

/-! ### The Gleaner (R356) -/

/-- Zigzag of the difference of two 16-bit elements. -/
def zigzag (x prev : Nat) : Nat :=
  let d := signed 16 (x + 65536 - prev % 65536)
  if 0 ≤ d then (2 * d).toNat else (-2 * d - 1).toNat

/-- The zigzag values of elements after `prev`. -/
def zigzags : Nat → List Nat → List Nat
  | _, [] => []
  | prev, x :: l => zigzag x prev :: zigzags x l

/-- Bits of one value with parameter `r`, most significant first. -/
def riceBits (r u : Nat) : List Bool :=
  List.replicate (u / 2 ^ r) true ++ [false] ++ ((List.range r).reverse.map (fun i => u.testBit i))

def riceCost (r : Nat) (us : List Nat) : Nat := (us.map (fun u => u / 2 ^ r + 1 + r)).sum

/-- The parameter from 0 to 14 with the fewest bits, the lower on ties. -/
def riceBest (us : List Nat) : Nat :=
  (List.range 15).foldl (fun b r => if riceCost r us < riceCost b us then r else b) 0

/-- Bits to bytes, most significant first, the last byte filled with zeros. -/
def packBits : Nat → List Bool → List Byte
  | 0, _ => []
  | n + 1, l =>
    if l.isEmpty then [] else
    BitVec.ofNat 8 ((List.range 8).foldl (fun a i => 2 * a + (if l.getD i false then 1 else 0)) 0) ::
      packBits n (l.drop 8)

/-- One group: header byte and coded elements (R356). -/
def gleanGroup (prev : Nat) (xs : List Nat) : List Byte :=
  let us := zigzags prev xs
  let r := riceBest us
  let n := (riceCost r us + 7) / 8
  if 2 * xs.length ≤ n then 15#8 :: (xs.map (fun x => beBytes 2 x)).flatten
  else BitVec.ofNat 8 r :: packBits n (us.map (riceBits r)).flatten

/-- A block's elements in groups of 256; `n` bounds the number of groups. -/
def gleanCode : Nat → Nat → List Nat → List Byte
  | 0, _, _ => []
  | n + 1, prev, xs =>
    if xs.isEmpty then [] else
    gleanGroup prev (xs.take 256) ++ gleanCode n ((xs.take 256).getLastD 0) (xs.drop 256)

def gleanBytes (xs : List Nat) : List Byte := gleanCode (xs.length / 256 + 1) 0 xs

/-! ### Blocks -/

/-- The payload of a block, and whether it is coded. -/
def GBlock.payload (b : GBlock) (glean : Bool) : List Byte :=
  if glean then gleanBytes b.elems else (b.elems.map (fun x => leBytes (elemSize b.kind) x)).flatten

/-- The header of a block (R349). -/
def State.blockHeader (s : State) (g : GStream) (b : GBlock) (used : Nat) : List Byte :=
  leBytes 4 0x4E524731 ++ [BitVec.ofNat 8 b.stream, BitVec.ofNat 8 b.kind,
    BitVec.ofNat 8 ((if g.glean then 1 else 0) + (if b.drops = 0 then 0 else 2) +
      (if b.trig then 4 else 0) + (if b.frozen then 8 else 0)),
    BitVec.ofNat 8 (b.first % 16)] ++ leBytes 4 used ++ leBytes 4 b.elems.length ++
  leBytes 8 (s.ptpOf (b.first / 16)) ++ leBytes 4 (s.ptpFrac (b.first / 16)) ++
  leBytes 4 g.spacing ++ leBytes 8 b.seq ++ leBytes 4 b.drops ++ List.replicate 20 0#8

/-- The stream of the capture with number `n`. -/
def GrnSt.stream (g : GrnSt) (n : Nat) : Option GStream := g.streams.find? (fun st => st.num == n)

/-- Replace a stream. -/
def GrnSt.putStream (g : GrnSt) (st : GStream) : GrnSt :=
  { g with streams := g.streams.map (fun x => if x.num = st.num then st else x) }

/-- A completed block joins those waiting to be written. -/
def GrnSt.complete (g : GrnSt) (b : GBlock) : GrnSt :=
  { g with queue := g.queue ++ [{ b with seq := g.seq }], seq := g.seq + 1 }

/-- Close the open block of a stream; a coded block whose last group does not fit gives it to a
further block (R356). -/
def GrnSt.closeBlock (g : GrnSt) (st : GStream) (frozen : Bool) : GrnSt :=
  match st.blk with
  | none => g
  | some b =>
    let g := g.putStream { st with blk := none }
    let b := { b with frozen := frozen }
    let n := (b.elems.length - 1) / 256 * 256
    if st.glean && decide (65472 < (gleanBytes b.elems).length) && decide (0 < n) then
      let b2 : GBlock := { b with
        elems := b.elems.drop n, first := b.first + 16 * n * st.spacing, drops := 0, trig := false }
      (g.complete { b with elems := b.elems.take n }).complete b2
    else g.complete b

/-- Bytes held in the gathering buffer. -/
def GrnSt.held (g : GrnSt) : Nat :=
  ((g.streams.filterMap (·.blk)) ++ g.queue).foldl (fun a b => a + b.elems.length * elemSize b.kind) 0

/-- An element of stream `st` with instant `inst`; `mk` gives its number from the instant offset in its
block (R345, R347, R348). -/
def State.grnPush (s : State) (st : GStream) (inst : Nat) (mk : Nat → Nat) : State :=
  if 262144 < s.grn.held + elemSize st.kind then
    let g := s.grn.putStream { st with drops := st.drops + 1 }
    ({ s with grn := { g with drops := g.drops + 1 } }.raise GRN_STAT.GAP).wr GRN_GAPS.adr
      (BitVec.ofNat 32 (min (2 ^ 32 - 1) ((s.rd GRN_GAPS.adr).toNat + 1)))
  else
    let packed := st.kind == 1 || st.kind == 3
    let fresh : GBlock := {
      stream := st.num, kind := st.kind, first := inst, elems := [mk (inst % 16)], drops := st.drops, trig := false, frozen := false, seq := 0 }
    match st.blk with
    | none => { s with grn := s.grn.putStream { st with blk := some fresh, drops := 0 } }
    | some b =>
      let n := b.elems.length
      let gap := packed && decide (inst ≠ b.first + 16 * n * st.spacing)
      let full := !st.glean && decide (65472 < (n + 1) * elemSize st.kind)
      if gap || full then
        { s with grn := (s.grn.closeBlock st false).putStream { st with blk := some fresh, drops := 0 } }
      else
        let b' : GBlock := { b with elems := b.elems ++ [mk (inst - b.first / 16 * 16)] }
        if st.glean && (n + 1) % 256 == 0 && decide (256 < n + 1) &&
            decide (65472 < (gleanBytes b'.elems).length) then
          let m := n + 1 - 256
          let g := s.grn.complete { b' with elems := b'.elems.take m }
          let b2 : GBlock := { b' with
            elems := b'.elems.drop m, first := b.first + 16 * m * st.spacing, drops := 0, trig := false }
          { s with grn := g.putStream { st with blk := some b2 } }
        else { s with grn := s.grn.putStream { st with blk := some b' } }

/-- Offer an element to every stream of a kind and source that passes `ok`. -/
def State.grnOffer (s : State) (kind index inst : Nat) (ok : GStream → Bool) (mk : Nat → Nat) : State :=
  if s.grnOpen then
    (s.grn.streams.filter (fun st => st.kind == kind && st.index == index && ok st)).foldl
      (fun s st => match s.grn.stream st.num with
        | some st => s.grnPush st inst mk
        | none => s) s
  else s

/-- A tag that the stream records (R346). -/
def GStream.tagOk (g : GStream) (tag : Nat) : Bool :=
  decide (fieldOf g.cfg 20 20 = 1) || decide (fieldOf g.cfg 18 16 = tag)

/-- A stream records results of converter `c` with tag `tag`, of kind `k`: such a result counts as
taken (R346). -/
def State.grnRecords (s : State) (k c tag : Nat) : Bool :=
  s.grnOpen && s.grn.streams.any (fun st => st.kind == k && st.index == c && st.tagOk tag)

/-- A raw result reaches the Granary (R345, R346). -/
def State.grnRaw (s : State) (c inst code tag : Nat) (ovr : Bool) : State :=
  let e := code % 4096 + tag * 4096 + (if ovr then 32768 else 0)
  (s.grnOffer 1 c inst (·.tagOk tag) (fun _ => e)).grnOffer 2 c inst (·.tagOk tag)
    (fun o => e + o % 2 ^ 48 * 65536)

/-- An averaged result reaches the Granary. -/
def State.grnAvg (s : State) (c inst tag : Nat) (val : Int) : State :=
  s.grnOffer 3 c inst (·.tagOk tag) (fun _ => (bitsOf 16 val).toNat)

/-- The outputs of a slice at its commit (R345, kind 5). -/
def State.grnSlice (s : State) (n inst out : Nat) : State :=
  s.grnOffer 5 n inst (fun _ => true) (fun o => o % 2 ^ 48 * 65536 + out * 2 ^ 64)

/-- A change of the command of pair `p` (R247, R345, kind 6). -/
def State.grnEdge (s : State) (p inst : Nat) (lvl : Bool) : State :=
  s.grnOffer 6 (p / 8) inst (fun _ => true)
    (fun o => (if lvl then 1 else 0) + p * 256 + o % 2 ^ 48 * 65536)

/-- Trips latched with one cause in one cycle (R345, kind 7). -/
def State.grnTrip (s : State) (cause pairs : Nat) : State :=
  s.grnOffer 7 0 s.now16 (fun _ => true) (fun o => cause * 256 + o % 2 ^ 48 * 65536 + pairs * 2 ^ 64)

/-- The state of a track in a cycle that its streams record (R345, R347, kind 4). -/
def State.grnTrack (s : State) (n : Nat) (ang : Word) (vel : BitVec 48) (turn : BitVec 16)
    (stat : Nat) : State :=
  s.grnOffer 4 n s.now16 (fun st => decide ((s.now - s.grn.start) % st.spacing = 0))
    (fun _ => ang.toNat + vel.toNat * 2 ^ 32 + turn.toNat * 2 ^ 80 + stat * 2 ^ 96)

/-! ### The ring -/

/-- Where an error in what the gathering buffer holds of a stream stands in `upset`: no agent can address the buffer. -/
def grnCell (stream : Nat) : Nat := 2 ^ 40 + 2 ^ 20 + 8 * stream

/-- A block that cannot be read from the gathering buffer is dropped, and its elements count as a gap (R333, R348). -/
def State.grnSpoilt (s : State) (b : GBlock) (st : GStream) (q : List GBlock) : State :=
  let n := b.elems.length
  let a := grnCell b.stream
  let s := s.eccRead a
  let g := { s.grn with queue := q, drops := s.grn.drops + n }.putStream { st with drops := st.drops + n }
  ({ s with grn := g, upset := SMap.set (fun _ => 0) s.upset a 0 }.raise GRN_STAT.GAP).wr GRN_GAPS.adr
    (BitVec.ofNat 32 (min (2 ^ 32 - 1) ((s.rd GRN_GAPS.adr).toNat + n)))

/-- Write the oldest completed block to its slot of the ring (R349, R350). -/
def State.grnWrite (s : State) : State :=
  match s.grn.queue with
  | [] => s
  | b :: q =>
    match s.grn.stream b.stream with
    | none => { s with grn := { s.grn with queue := q } }
    | some st =>
      if s.spoilt (grnCell b.stream) then s.grnSpoilt b st q
      else
      let pay := b.payload st.glean
      let a := s.grn.base * 65536 + s.grn.written % s.grn.size * 65536
      let s := ((s.eccRead (grnCell b.stream)).clearMem a (a + 65536)).putBytes a (s.blockHeader st b pay.length ++ pay)
      { s with grn := { s.grn with queue := q, written := s.grn.written + 1, post := s.grn.post + 1 } }

/-- Write every completed block. -/
def State.grnWriteAll : Nat → State → State
  | 0, s => s
  | n + 1, s => if s.grn.queue.isEmpty then s else State.grnWriteAll n s.grnWrite

/-- The freeze, with its cause (R353); a `CAPTURE_FREEZE` that waits for it is answered (R354). -/
def State.grnFreeze (s : State) (cause : Nat) : State :=
  if s.grnOpen then
    let g := s.grn.streams.foldl (fun g st => match g.stream st.num with
      | some st => g.closeBlock st true
      | none => g) s.grn
    let s := State.grnWriteAll (g.queue.length + 1) { s with grn := { g with armed := false } }
    let t := s.ptp
    let len := 4096 + 65536 * min s.grn.written s.grn.size
    let s := ((s.set GRN_STAT.STATE gFrozen).set GRN_STAT.FCAUSE cause)
    let s := (s.wr GRN_FRZTIME_LO.adr (BitVec.ofNat 32 t)).wr GRN_FRZTIME_HI.adr (BitVec.ofNat 32 (t / 2 ^ 32))
    let s := (s.wr GRN_RECLEN_LO.adr (BitVec.ofNat 32 len)).wr GRN_RECLEN_HI.adr (BitVec.ofNat 32 (len / 2 ^ 32))
    s.finishAll 0x0303 0 (beBytes 8 t)
  else s

/-- A trigger is recorded, and the post-trigger amount begins (R352). -/
def State.grnRecord (s : State) : State :=
  let t := s.ptp
  let g : GrnSt := s.grn
  let mark (st : GStream) : GStream :=
    { st with blk := st.blk.map (fun (b : GBlock) => { b with trig := true }) }
  let g : GrnSt := { g with trigged := true, post := 0, streams := g.streams.map mark }
  let s := { s with grn := g }
  let s := (s.wr GRN_TRIGTIME_LO.adr (BitVec.ofNat 32 t)).wr GRN_TRIGTIME_HI.adr
    (BitVec.ofNat 32 (t / 2 ^ 32))
  s.set GRN_STAT.STATE gPost

/-- The post-trigger amount has been written, or there is none (R352). -/
def State.grnPostDone (s : State) : State :=
  if s.grnState = gPost ∧ (s.rd GRN_POST.adr).toNat ≤ 64 * s.grn.post then s.grnFreeze 1 else s

/-- A trigger (R352). -/
def State.grnTrigger (s : State) : State :=
  if s.grnState = gRun then
    let s := s.grnRecord
    if s.on GRN_POST.KB then s else s.grnFreeze 1
  else s.raise GRN_STAT.TRIGIGN

/-- A trigger and a freeze in one cycle: the freeze acts, and the trigger is recorded if none was before
(R353). -/
def State.grnTrigFreeze (s : State) : State :=
  if s.grnState = gRun then s.grnRecord.grnFreeze 2 else (s.raise GRN_STAT.TRIGIGN).grnFreeze 2

/-- The armed freeze time comes (R354). -/
def State.grnTimeFreeze (s : State) : State := if s.grn.armed then s.grnFreeze 3 else s

/-- The fitted bytes of LPDDR6 (R340, R341). -/
def State.fitted (s : State) : Nat :=
  2 ^ (33 + fieldOf s.memcCfg 5 4) * (if fieldOf s.memcCfg 1 0 = 3 then 2 else 1)

/-- The charge of a stream in units of 2^-20 MB/s (R345); none for an invalid kind or source. -/
def State.grnCharge (s : State) (cfg : Word) : Option Nat :=
  let k := fieldOf cfg 26 24
  let i := fieldOf cfg 4 0
  let m := 2 ^ 20
  if k = 0 then some 0
  else if k = 1 then (if i < 24 then some (1250 * m) else none)
  else if k = 2 then (if i < 24 then some (5000 * m) else none)
  else if k = 3 then
    (if i < 24 then some (1250 * m / 2 ^ (s.get (CV_AVG.K i))) else none)
  else if k = 4 then (if i < 16 then some (20000 * m / 2 ^ (min 20 (fieldOf cfg 12 8))) else none)
  else if k = 5 then (if i < 16 then some (48 * m) else none)
  else if k = 6 then (if i < 4 then some (500 * m) else none)
  else (if i = 0 then some m else none)

/-- How a start ends (R351). -/
inductive GrnAnswer
  | ok | badParam | busy
  deriving DecidableEq, Repr

/-- A start with a stream mask and a post-trigger amount in KB (R351). -/
def State.grnStart (s : State) (mask kb : Nat) : GrnAnswer × State :=
  if s.grnOpen then (.busy, s)
  else
    let nums := bitsSet 32 mask
    let charges := nums.map (fun n => s.grnCharge (s.rd (GRN_STR_CFG.adr n)))
    let base := s.get GRN_BASE.BASE
    let size := s.get GRN_SIZE.SIZE
    let bad := charges.any (·.isNone) ||
      decide (32000 * 2 ^ 20 < charges.foldl (fun a c => a + c.getD 0) 0) || size == 0 ||
      decide (base * 65536 < 0x1000000000) ||
      decide (0x1000000000 + s.fitted < (base + size) * 65536) || decide (size * 64 < kb)
    if bad then (.badParam, s)
    else
      let sts := (nums.filter (fun n => fieldOf (s.rd (GRN_STR_CFG.adr n)) 26 24 ≠ 0)).map (fun n =>
        let cfg := s.rd (GRN_STR_CFG.adr n)
        ({ num := n, cfg := cfg, k := s.get (CV_AVG.K (fieldOf cfg 4 0)), blk := none, drops := 0 } : GStream))
      let g : GrnSt := { GrnSt.reset with streams := sts, base := base, size := size, start := s.now }
      let s := { s with grn := g }
      let s := (s.set GRN_STAT.STATE gRun).set GRN_STAT.FCAUSE 0
      let s := s.wr GRN_POST.adr (BitVec.ofNat 32 kb)
      let s := (s.wr GRN_RECLEN_LO.adr 0).wr GRN_RECLEN_HI.adr 0
      let s := (s.wr GRN_TRIGTIME_LO.adr 0).wr GRN_TRIGTIME_HI.adr 0
      (.ok, s.wr GRN_GAPS.adr 0)

/-- Write a mark (R355). -/
def State.grnMark (s : State) (task : Nat) : State :=
  if s.grnOpen then
    if 64 ≤ s.grn.marks.length then s.raise GRN_STAT.MARKFULL
    else { s with grn := { s.grn with marks := s.grn.marks ++ [(task, s.ptp)] } }
  else s

/-- Two words as one number. -/
def State.rd2 (s : State) (lo hi : Nat) : Nat := (s.rd lo).toNat + (s.rd hi).toNat * 2 ^ 32

/-- The armed freeze time (R354). -/
def State.grnFrzTime (s : State) : Nat := s.rd2 GRN_FRZTIME_LO.adr GRN_FRZTIME_HI.adr

/-- Arm a freeze at the time in `GRN_FRZTIME` (R354). -/
def State.grnArm (s : State) : State :=
  if s.grnOpen then { s with grn := { s.grn with armed := true } } else s

/-- The directory of the frozen record (R358). -/
def State.grnDirectory (s : State) : List Byte :=
  let g := s.grn
  let n := min g.written g.size
  let d := leBytes 4 0x44524731 ++ [BitVec.ofNat 8 (s.addr.getD 0xFF), BitVec.ofNat 8 (s.get GRN_STAT.FCAUSE)] ++
    leBytes 2 g.marks.length ++
    (if g.trigged then leBytes 8 (s.rd2 GRN_TRIGTIME_LO.adr GRN_TRIGTIME_HI.adr)
     else List.replicate 8 0xFF#8) ++
    leBytes 8 s.grnFrzTime ++ leBytes 8 (4096 + 65536 * n) ++ leBytes 8 n ++
    leBytes 4 (g.streams.foldl (fun m st => m + 2 ^ st.num) 0) ++ leBytes 4 g.drops
  let marks := (g.marks.map (fun m => leBytes 8 m.2 ++ [BitVec.ofNat 8 m.1] ++ List.replicate 7 0#8)).flatten
  let d := d ++ marks ++ List.replicate (1024 - marks.length) 0#8
  let cfgs := ((List.range 32).map (fun i => match g.stream i with
    | some st => leBytes 4 st.cfg.toNat ++ [BitVec.ofNat 8 (if st.kind = 3 then st.k else 0), 0#8, 0#8, 0#8]
    | none => List.replicate 8 0#8)).flatten
  let d := d ++ cfgs
  d ++ List.replicate (4096 - d.length) 0#8

/-- `len` bytes of the frozen record from offset `off`: the directory, then the surviving blocks,
oldest first (R350, R358). -/
def State.grnRead (s : State) (off len : Nat) : List Byte :=
  let g := s.grn
  let n := min g.written g.size
  let dir := s.grnDirectory
  (List.range (min len (4096 + 65536 * n - off))).map (fun i =>
    let o := off + i
    if o < 4096 then dir.getD o 0#8
    else
      let b := (o - 4096) / 65536
      let slot := (g.written - n + b) % g.size
      s.byte (g.base * 65536 + slot * 65536 + (o - 4096) % 65536))

end Sys2Proof.Machine
end

