-- ==== Sys2Proof/Machine/Trip.lean ====
section
/-!
DEFINITION. Machine/Trip.lean: the trip matrix (07, R261 to R270): input levels, latching, safe
states, clearing, `GEN_n`.
-/
namespace Sys2Proof.Machine

/-- Pair states as `GOU_PAIRp_STAT.STATE` encodes them (R242). -/
def pOff : Nat := 0
def pRun : Nat := 1
def pSafe : Nat := 2

def State.pairState (s : State) (p : Nat) : Nat := s.get (GOU_PAIR_STAT.STATE p)

/-- The pairs in RUN, as `GOU_ARMED` shows them (R242). -/
def State.armedMask (s : State) : Nat :=
  (List.range 32).foldl (fun m p => if s.pairState p = pRun then m + 2 ^ p else m) 0

/-- The pairs with a latched trip, as `GOU_TRIPPED` shows them. -/
def State.trippedMask (s : State) : Nat :=
  (List.range 32).foldl (fun m p => if s.on (GOU_PAIR_STAT.TRIP p) then m + 2 ^ p else m) 0

/-- `WIN_MODE.ARMED`: some pair is in RUN (R242). -/
def State.anyArmed (s : State) : Bool := (List.range 32).any (fun p => s.pairState p == pRun)

/-- The level of comparator m's output that TRIPSEL sends to the matrix (R196, R198). -/
def State.cmpTrip (s : State) (m : Fin 32) : Bool :=
  let c := s.cmp[m]
  (c.outAbove || c.outBelow || c.outOutside) && s.on (CMP_CFG.EN m) &&
    (let t := s.get (CMP_CFG.TRIPSEL m)
     if t = 0 then c.outOutside else if t = 1 then c.outAbove else if t = 2 then c.outBelow else false)

/-- Pin TRIPINj is enabled and has held its active level for FILT cycles (R263). -/
def State.pinActive (s : State) (j : Fin 4) : Bool :=
  let w := s.rd GOU_TRIN_CFG.adr
  let p := s.tripin[j]
  w.getLsbD (8 * j + 7) && (p.level != w.getLsbD (8 * j + 6)) &&
    decide (p.since + fieldOf w (8 * j + 3) (8 * j) ≤ s.now)

/-- The level of input `i` of the matrix, presented from the cycle that R261 states: a plausibility fault from the
cycle of its event, which is the one after FAULT is set (R191). -/
def State.inputLevel (s : State) (i : Nat) : Bool :=
  if h : i < 32 then s.cmpTrip ⟨i, h⟩
  else if h : i - 32 < 4 then s.pinActive ⟨i - 32, h⟩
  else if h : i - 36 < 2 then s.locked[i - 36]
  else if h : i - 38 < 16 then (s.trk[i - 38]).lost
  else if i < 66 then s.on (CVPAIR_STAT.FAULT (i - 54)) && s.clearable (CVPAIR_STAT.FAULT (i - 54))
  else if i = 66 then s.on GOU_RTRIP.RX
  else false

/-- The groups to which input `i` is routed (R262). -/
def State.routeOf (s : State) (i : Nat) : Nat :=
  fieldOf (s.rd (GOU_ROUTE.adr (i / 4))) (8 * (i % 4) + 7) (8 * (i % 4))

/-- The asserted inputs with their groups, in rising order (R262). -/
def State.assertedInputs (s : State) : List (Nat × Nat) :=
  ((List.range 67).filter s.inputLevel).map (fun i => (i, s.routeOf i))

/-- The asserted level word k of `GOU_INLVLk`. -/
def State.inputWord (s : State) (k : Nat) : Nat :=
  (List.range 32).foldl (fun m j => if s.inputLevel (32 * k + j) then m + 2 ^ j else m) 0

/-- Update pair `p`. -/
def State.modPair (s : State) (p : Fin 32) (f : PairSt → PairSt) : State :=
  { s with pair := s.pair.set p (f s.pair[p]) }

/-- Pair `p` leaves RUN for SAFE: its committed edges not yet placed and what it owes to the dead time are discarded
(R264, R265). Its outputs take the safe state one cycle later. -/
def State.leaveRun (s : State) (p : Fin 32) : State :=
  let s := s.modPair p (fun q => { q with edges := [], owed := none, pulse := none, term := none })
  ((s.set (GOU_PAIR_STAT.STATE p) pSafe).set (GOU_PAIR_STAT.HCMD p) 0).later (s.now + 1) (.safeOut p)

/-- The outputs of pair `p` go to its safe state, which begins in the present cycle (R265). -/
def State.toSafe (s : State) (p : Fin 32) : State :=
  let t := s.now16 + s.get (GOU_PAIR_DEAD.TIME p)
  let safe := s.get (GOU_PAIR_CFG.SAFE p)
  s.modPair p (fun q =>
    if safe = 1 then { q with hi := false, owed := if q.lo then none else some (t, false) }
    else if safe = 2 then { q with lo := false, owed := if q.hi then none else some (t, true) }
    else { q with hi := false, lo := false, owed := none })

/-- Latch a trip with cause `c` on pair `p`, which has none (R264, R266). -/
def State.latchTrip (s : State) (p : Fin 32) (c : Nat) : State :=
  let s := (s.raise (GOU_PAIR_STAT.TRIP p)).set (GOU_PAIR_STAT.CAUSE p) c
  (if s.pairState p = pRun then s.leaveRun p else s).signal (0x140 + p)

/-- A ring trip is called for by trips that latched in one cycle (R270, R314). -/
def State.callRingTrip (s : State) (latched : List (Fin 32 × Nat)) : State :=
  let send := s.get GOU_RTRIP.SEND
  let l := latched.filter (fun pc => decide (pc.2 ≠ 66) && decide (s.get (GOU_PAIR_CFG.GRP pc.1) &&& send ≠ 0))
  match l with
  | [] => s
  | pc :: _ =>
    s.ringTripSend (l.foldl (fun g pc => g ||| (s.get (GOU_PAIR_CFG.GRP pc.1) &&& send)) 0) pc.2

/-- Trip records of one cycle: one for each cause, with the pairs that latched (R345). -/
def State.tripRecords (s : State) (l : List (Fin 32 × Nat)) : State :=
  ((l.map (·.2)).eraseDups).foldl (fun s c =>
    s.grnTrip c (l.foldl (fun m pc => if pc.2 = c then m + 2 ^ (pc.1 : Nat) else m) 0)) s

/-- Latch trips on the named pairs that have none, with the cause given for each, record them, and
call for ring trips. -/
def State.latchAll (s : State) (l : List (Fin 32 × Nat)) : State :=
  let l := l.filter (fun pc => !s.on (GOU_PAIR_STAT.TRIP pc.1))
  ((l.foldl (fun s pc => s.latchTrip pc.1 pc.2) s).tripRecords l).callRingTrip l

/-- Slice `n` names pair `p` in `SLCn_PAIRS`. -/
def State.sliceNames (s : State) (n p : Nat) : Bool :=
  (s.on (SLC_PAIRS.V0 n) && s.get (SLC_PAIRS.PAIR0 n) == p) ||
  (s.on (SLC_PAIRS.V1 n) && s.get (SLC_PAIRS.PAIR1 n) == p) ||
  (s.on (SLC_PAIRS.V2 n) && s.get (SLC_PAIRS.PAIR2 n) == p) ||
  (s.on (SLC_PAIRS.V3 n) && s.get (SLC_PAIRS.PAIR3 n) == p)

/-- A twin mismatch of slice `n` was detected in the present cycle (R233). -/
def State.twinNow (s : State) (n : Nat) : Bool := s.on (SLC_STAT.TWIN n) && !s.clearable (SLC_STAT.TWIN n)

/-- The trip matrix in the present cycle: the pairs on which it latches a trip in the next one, each with the lowest code
of what calls for it (R262, R264, R266): an asserted input that shares a group with the pair, or a twin mismatch of a
slice that names it (R233). It works while the fast domain is at H0 (R271). -/
def State.tripList (s : State) : List (Fin 32 × Nat) :=
  if s.fastUp then
    let a := s.assertedInputs
    let tw := (List.range 16).filter s.twinNow
    if a.isEmpty && tw.isEmpty then []
    else (List.finRange 32).filterMap (fun (p : Fin 32) =>
      let g := s.get (GOU_PAIR_CFG.GRP p)
      match a.find? (fun ig => decide (ig.2 &&& g ≠ 0)) with
      | some ig => some (p, ig.1)
      | none => (tw.find? (fun n => s.sliceNames n p)).map (fun n => (p, 0x80 + n)))
  else []

/-- The level of input `i` that the clearing of a trip tests (R261). -/
def State.holdsTrip (s : State) (i : Nat) : Bool :=
  if 54 ≤ i ∧ i < 66 then s.on (CVPAIR_STAT.FAULT (i - 54)) else s.inputLevel i

/-- The cause of pair `p`'s trip has gone (R267). -/
def State.causeGone (s : State) (p : Nat) : Bool :=
  !((List.range 67).any (fun i => decide (s.routeOf i &&& s.get (GOU_PAIR_CFG.GRP p) ≠ 0) && s.holdsTrip i)) &&
  !((List.range 16).any (fun n => s.on (SLC_STAT.TWIN n) && s.sliceNames n p))

/-- A write of `GOU_TRIPCLR` (R267). -/
def State.tripClear (s : State) (mask : Nat) : State :=
  forNat (fun p s =>
    if mask.testBit p && s.on (GOU_PAIR_STAT.TRIP p) && s.causeGone p then
      (s.set (GOU_PAIR_STAT.TRIP p) 0).set (GOU_PAIR_STAT.CAUSE p) 0xFF
    else s) 32 s

/-- What R268 asks for `GEN_n` to be driven low. -/
def State.genCond (s : State) : Bool :=
  s.fastUp && s.on GOU_GEN.EN && decide (s.mode = mField) && decide (s.trippedMask = 0)

/-- `GEN_n` is driven low: the conditions held in the cycle before, and the fast domain is at H0 (R241, R268). -/
def State.genLow (s : State) : Bool := s.gen && s.fastUp

end Sys2Proof.Machine
end

