-- ==== Sys2Proof/Machine/Motion.lean ====
section
/-!
DEFINITION. Machine/Motion.lean: what a position track does in each loop cycle (03): prediction, output,
direction; and the load of an observer track.
-/
namespace Sys2Proof.Machine

/-- Update track `n`. -/
def State.modTrk (s : State) (n : Fin 16) (f : TrkSt → TrkSt) : State :=
  { s with trk := s.trk.set n (f s.trk[n]) }

def State.trkType (s : State) (n : Nat) : Nat := s.get (TRK_CTRL.TYPE n)
def State.trkEn (s : State) (n : Nat) : Bool := s.on (TRK_CTRL.EN n)

/-- The bits of `TRKn_SRCA` that the track's type uses (R140); the others are reserved while it is of that type, read as
zero and take no write (R12). -/
def srcaMask (ty : Nat) : Word :=
  if ty = 1 then 0x0017FFFF#32 else if ty = 2 then 0x03FFFFFF#32 else if ty = 3 then 0x0FFF003F#32
  else if ty = 4 then 0x00FFFFFF#32 else if ty = 5 then 0x0000001F#32 else if ty = 6 then 0x00000F3F#32 else 0#32

/-- The bits of `TRKn_SRCB` that the track's type uses (R141). -/
def srcbMask (ty : Nat) : Word :=
  if ty = 1 then 0xFFFFFFFF#32 else if ty = 2 then 0xFFFF00FF#32 else if ty = 3 then 0x1FFFFFFF#32
  else if ty = 4 then 0xFFFFFFFF#32 else 0#32

/-- The MULT that `TRKn_CTRL` asks for, as it acts (03); the one in force stands in the track (R645). -/
def State.trkMult (s : State) (n : Nat) : Nat := clampNat 1 64 (s.get (TRK_CTRL.MULT n))

/-- A 48-bit position turn:angle (R129). -/
def posOf (turn : BitVec 16) (ang : Word) : BitVec 48 := turn ++ ang

def TrkSt.pos (t : TrkSt) : BitVec 48 := posOf t.turn t.oang

/-- `x > y` for positions modulo 2^48 (R129). -/
def posGt (x y : BitVec 48) : Bool := decide (0 < (x - y).toInt)

/-- The output angle of a source angle (R98). The fraction of the source angle is dropped before it is multiplied
(DESIGN CHOICE: R98 does not say at which point). -/
def State.outAngle (s : State) (n : Fin 16) (src : BitVec 48) : Word :=
  BitVec.ofNat 32 ((s.trk[n]).mult * (src.toNat / 65536)) + s.rd (TRK_OFFS.adr n)

/-- The change of the turn count when the output angle goes from `a` to `b`, moving in the direction
of `sgn` (R96). -/
def passage (a b : Word) (sgn : Int) : Int :=
  if a.msb && !b.msb && decide (0 < sgn) then 1
  else if !a.msb && b.msb && decide (sgn < 0) then -1 else 0

/-- The output state of track `n` from its source state; the turn count follows the passage in the
direction of `sgn` (R96, R98). -/
def State.output (s : State) (n : Fin 16) (sgn : Int) : State :=
  let t := s.trk[n]
  let a := s.outAngle n t.src
  let m : Int := t.mult
  let v := m * t.vel.toInt
  let c := m * t.acc.toInt
  let s := s.modTrk n (fun t => { t with
    oang := a, turn := t.turn + BitVec.ofInt 16 (passage t.oang a sgn),
    ovel := bitsOf 48 (satInt 48 v), oacc := bitsOf 32 (satInt 32 c) })
  if satHit 48 v || satHit 32 c then s.raise (TRK_FLAGS.SAT n) else s

/-- The frontier of the pairs on track `n`, moved by `f` from the position less PHASE (R249). -/
def State.pairFrontiers (s : State) (n : Fin 16) (f : BitVec 48 → BitVec 48 → BitVec 48) : State :=
  { s with pair := (List.finRange 32).foldl (fun v (p : Fin 32) =>
      if s.get (GOU_PAIR_CFG.TRACK p) = n then
        v.set p { v[p] with frontier := f v[p].frontier ((s.rd (GOU_PAIR_PHASE.adr p)).setWidth 48) }
      else v) s.pair }

/-- The frontiers on track `n` are set to its position (R145, R162, R249). -/
def State.frontierTo (s : State) (n : Fin 16) : State :=
  let p := (s.trk[n]).pos
  { s with alm := s.alm.set n { s.alm[n] with frontier := p } }.pairFrontiers n (fun _ ph => p - ph)

/-- The frontiers on track `n` move by a signed step of the output angle (R145, R249). -/
def State.frontierBy (s : State) (n : Fin 16) (d : Int) : State :=
  let k := BitVec.ofInt 48 d
  { s with alm := s.alm.set n { s.alm[n] with frontier := (s.alm[n]).frontier + k } }.pairFrontiers n
    (fun f _ => f + k)

/-- One evaluation of the reversal hysteresis (R129): direction, extreme, whether DIR changed. -/
def hystStep (rev : Bool) (ext p : BitVec 48) (band : Nat) : Bool × BitVec 48 × Bool :=
  if rev then
    let e := if posGt ext p then p else ext
    if (band : Int) < (p - e).toInt then (false, p, true) else (true, e, false)
  else
    let e := if posGt p ext then p else ext
    if (band : Int) < (e - p).toInt then (true, p, true) else (false, e, false)

/-- DIR of track `n` follows the position of the cycle; a change sets the frontiers (R129, R145). -/
def State.dirStep (s : State) (n : Fin 16) : State :=
  let t := s.trk[n]
  let r := hystStep t.rev t.ext t.pos (min (2 ^ 20) (s.get (TRK_HYST.BAND n)))
  let s := s.modTrk n (fun t => { t with rev := r.1, ext := r.2.1 })
  if r.2.2 then s.frontierTo n else s

/-- A half whose partner has not come within 2 lc is discarded and sets RSKEW (R108, R122). It stays
listed as late, since a late pair out of amplitude still counts as an amplitude fault (R110). -/
def State.expireHalves (s : State) (n : Fin 16) : State :=
  let hs := (s.trk[n]).halves
  if hs.any (fun h => !h.late && decide (h.cycle + 2 < s.now)) then
    (s.raise (TRK_FLAGS.RSKEW n)).modTrk n (fun t => { t with
      halves := t.halves.map (fun h => if h.cycle + 2 < s.now then { h with late := true } else h) })
  else s

def State.cpt (s : State) (n : Nat) : Nat := max 4 (s.get (TRK_SRCA.CPT n))

/-- The measurement of a count (R111). -/
def State.countAngle (s : State) (n : Nat) (cnt : Int) : Nat :=
  let c := s.cpt n
  ((cnt % c).toNat * 2 ^ 33 + c) / (2 * c) % 2 ^ 32

/-- The far boundary of the present count interval: the angle of the next count in the direction of the velocity
(R114). -/
def State.farBoundary (s : State) (n : Fin 16) : Nat :=
  let t := s.trk[n]
  s.countAngle n (if 0 < t.vel.toInt then t.cnt + 1 else t.cnt - 1)

/-- The prediction lies beyond the far boundary (R114). -/
def State.beyond (s : State) (n : Fin 16) : Bool :=
  let t := s.trk[n]
  let d := (t.src - BitVec.ofNat 48 (s.farBoundary n * 65536)).toInt
  if 0 < t.vel.toInt then decide (0 < d) else decide (t.vel.toInt < 0) && decide (d < 0)

/-- A prediction inside its count interval may pass the boundary anew (R114). -/
def State.boundaryBack (s : State) (n : Fin 16) : State :=
  if (s.trk[n]).passed.isSome && !s.beyond n then s.modTrk n (fun t => { t with passed := none }) else s

/-- A core load of an observer or clock track takes effect in the present cycle (R105, R124). -/
def State.loadDue (s : State) (n : Fin 16) : Bool :=
  (s.trkType n == 5 || s.trkType n == 0) && (match (s.trk[n]).load with
    | some l => decide (l.cycle < s.now)
    | none => false)

/-- The output of the cycle from the source state; the position that follows a seeding measurement sets DIR, its
extreme and the frontiers (R130, R145). -/
def State.show (s : State) (n : Fin 16) : State :=
  let t := s.trk[n]
  let s := s.output n t.vel.toInt
  if t.fresh then (s.modTrk n (fun t => { t with fresh := false, rev := false, ext := t.pos })).frontierTo n
  else s.dirStep n

/-- Track `n` advances by one loop cycle (R100, R105, R129), unless a core load sets it in this cycle (R124). The PLL
of a lost mains track runs on behind the output that is held (R134, R646). `ALM_TRKn_CFG.HOLD` keeps the Almanac's
frontier on the position (R164). -/
def State.predict (s : State) (n : Fin 16) : State :=
  let t := s.trk[n]
  let s := if t.halves.isEmpty then s else s.expireHalves n
  if t.seeded && s.trkEn n && !s.loadDue n then
    if t.lost then
      if s.trkType n = 4 then s.modTrk n (fun t => { t with src := t.src + t.vel }) else s
    else
      let v := if s.trkType n = 5 then t.vel.toInt + t.acc.toInt else t.vel.toInt
      let s := s.modTrk n (fun t => { t with src := t.src + t.vel, vel := bitsOf 48 (satInt 48 v) })
      let s := if satHit 48 v then s.raise (TRK_FLAGS.SAT n) else s
      let s := (s.show n).boundaryBack n
      if s.on (ALM_TRK_CFG.HOLD n) then
        { s with alm := s.alm.set n { s.alm[n] with frontier := (s.trk[n]).pos } }
      else s
  else s

/-- `TRKn_STAT` as it stands. -/
def TrkSt.statWord (t : TrkSt) : Nat :=
  (if t.valid then 1 else 0) + (if t.rev then 2 else 0) + (if t.coast then 4 else 0) +
    (if t.lost then 8 else 0) + (if t.lock then 16 else 0)

/-- A capture of track state runs (R345, kind 4). -/
def State.grnFollows (s : State) : Bool := s.grnOpen && s.grn.streams.any (fun st => st.kind == 4)

/-- The Granary takes the state of the tracks of the present cycle. -/
def State.grnTracks (s : State) : State :=
  if s.grnFollows then
    (List.finRange 16).foldl (fun s (n : Fin 16) =>
      let t := s.trk[n]
      s.grnTrack n t.oang t.ovel t.turn t.statWord) s
  else s

/-- The source state of track `n` is loaded in the present cycle (R105, R124, R125). -/
def State.loadSource (s : State) (n : Fin 16) (ang : Word) (vel : BitVec 48) (acc : Word) : State :=
  let t := s.trk[n]
  let s := (s.modTrk n (fun t => { t with
    src := BitVec.ofNat 48 (ang.toNat * 65536), vel := vel, acc := acc, seeded := true, valid := true })).output n
    vel.toInt
  if t.valid then s.dirStep n
  else (s.modTrk n (fun t => { t with ext := t.pos, rev := false })).frontierTo n

/-- The load of an observer track by its slice, in the cycle in which the commit set is transferred (R124, R222). A
core load of the same cycle is discarded (R125). -/
def State.sliceLoad (s : State) (n : Fin 16) (ang : Word) (vel : BitVec 48) (acc : Word) : State :=
  if s.trkEn n && s.trkType n == 5 then
    let s := if s.loadDue n then
        (s.raise (TRK_FLAGS.OBSCOL n)).modTrk n (fun t => { t with load := none })
      else s
    s.loadSource n ang vel acc
  else s

/-- A core load written in an earlier cycle takes effect: of an observer track all four values, of a clock track the
angle (R105, R124). -/
def State.coreLoad (s : State) (n : Fin 16) : State :=
  match (s.trk[n]).load with
  | some l =>
    if l.cycle < s.now then
      let s := s.modTrk n (fun t => { t with load := none })
      if s.trkEn n && s.trkType n == 5 then s.loadSource n l.ang l.vel l.acc
      else if s.trkEn n && s.trkType n == 0 && (s.trk[n]).seeded then
        s.loadSource n l.ang (s.trk[n]).vel (s.trk[n]).acc
      else s
    else s
  | none => s

end Sys2Proof.Machine
end

