-- ==== Sys2Proof/Machine/Tracks.lean ====
section
/-!
DEFINITION. Machine/Tracks.lean: the position tracks (03): the tracking filter, coast and loss, start and stop, and
what falls due on a track in a cycle.
-/
namespace Sys2Proof.Machine

/-! ### The tracking filter -/

/-- π · 10^20, rounded. -/
def piE20 : Nat := 314159265358979323846

/-- `1.4142 w` and `w²` with w = 2π · bw · 0.8e-9 · d, limited to 1, in units of 2^-24, ties upwards
(R101, R103). `d16` is d in sixteenths. -/
def trkGains (bw d16 : Nat) : Int × Int :=
  let n : Int := piE20 * clampNat 50 200000 bw * d16
  (min (2 ^ 24) (roundDiv (14142 * n * 2 ^ 24) (10 ^ 34)),
   min (2 ^ 24) (roundDiv (n * n * 2 ^ 24) (10 ^ 60)))

/-- The innovation e of a measurement, in 2^-20 au (R101). -/
def State.innovation (s : State) (n : Fin 16) (m : Nat) (ts : Int) : Int :=
  let t := s.trk[n]
  let pred : Int := t.src.toNat * 16 - t.vel.toInt * ((s.now16 : Int) - ts)
  (BitVec.ofInt 52 ((m : Int) * 2 ^ 20 - pred)).toInt

/-- Apply one measurement by the correction of R101. The acceleration is rounded to the nearest 2^-16, ties upwards
(DESIGN CHOICE: R101 states no rounding for it). -/
def State.correct (s : State) (n : Fin 16) (m : Nat) (ts : Int) : State :=
  let t := s.trk[n]
  let d16 : Nat := max 16 (ts - t.tsPrev).toNat
  let e := s.innovation n m ts
  let (kp, ki) := trkGains (s.get (TRK_FILT.BW n)) d16
  let ang := roundDiv ((t.src.toNat : Int) * 16 * 2 ^ 24 + kp * e) (2 ^ 44)
  let v := t.vel.toInt + roundDiv (ki * e) (2 ^ 24 * d16)
  let v' := satInt 48 v
  let a := roundDiv ((v' - t.velPrev.toInt) * 16) d16
  let s := s.modTrk n (fun t => { t with
    src := BitVec.ofInt 48 (ang * 65536), vel := bitsOf 48 v', acc := bitsOf 32 (satInt 32 a),
    tsPrev := ts, velPrev := bitsOf 48 v' })
  if satHit 48 v || satHit 32 a then s.raise (TRK_FLAGS.SAT n) else s

/-- The first measurement after enable or re-seed (R102, R130, R145): the source angle is m, and shows in the next cycle
(R128), which also takes DIR and its extreme from it. A mains track becomes VALID only with lock (R123); its PLL starts
anew (DESIGN CHOICE). -/
def State.seed (s : State) (n : Fin 16) (m : Nat) (ts : Int) : State :=
  let mains := s.trkType n == 4
  (s.modTrk n (fun t => { t with
    src := BitVec.ofNat 48 (m * 65536), vel := 0, acc := 0, seeded := true, valid := !mains, fresh := true,
    coast := false, goodRun := 0, tsPrev := ts, velPrev := 0, lock := false, passed := none,
    lockRun := 0, unlockRun := 0 })).frontierTo n

/-- The track goes lost (R134). The PLL of a mains track keeps its velocity behind the output, since it may declare
lock again (R646). -/
def State.goLost (s : State) (n : Fin 16) : State :=
  let mains := s.trkType n == 4
  let s := s.modTrk n (fun t => { t with
    lost := true, coast := false, valid := false, vel := if mains then t.vel else 0, acc := 0, ovel := 0, oacc := 0 })
  (s.raise (TRK_FLAGS.LOST n)).signal (4 * n + 1)

/-- A loss condition arises (R131 to R133, R646); on a track that is not VALID it sets only SRCF, and holds. -/
def State.lossCondition (s : State) (n : Fin 16) : State :=
  let s := (s.raise (TRK_FLAGS.SRCF n)).modTrk n (fun t => { t with loss := true })
  let t := s.trk[n]
  if t.valid then
    if t.coast then s.modTrk n (fun t => { t with goodRun := 0 })
    else if s.get (TRK_FILT.COAST n) = 0 then s.goLost n
    else (s.modTrk n (fun t => { t with
      coast := true, coastAt := s.now, goodRun := 0, acc := 0, oacc := 0 })).signal (4 * n)
  else s

/-- A good measurement on a seeded track: applied, or counted while the track coasts (R101, R132). -/
def State.takeGood (s : State) (n : Fin 16) (apply : State → State) : State :=
  let t := s.trk[n]
  if t.coast then
    if t.goodRun + 1 < 4 then s.modTrk n (fun t => { t with goodRun := t.goodRun + 1 })
    else apply (s.modTrk n (fun t => { t with coast := false, goodRun := 0 }))
  else apply s

/-- The mains PLL on one measurement (R123). On a lost track it only seeks lock, which ends the loss condition (R646);
while the track coasts, a measurement that is not good restarts the count of R132. -/
def State.mainsStep (s : State) (n : Fin 16) (m : Meas) : State :=
  let t := s.trk[n]
  let e := s.innovation n m.m m.ts
  let good := decide (e.natAbs < s.get (TRK_SRCB.LOCKTH n) * 2 ^ 32)
  let lr := if good then min 1024 (t.lockRun + 1) else 0
  let ur := if good then 0 else t.unlockRun + 1
  let s := s.modTrk n (fun t => { t with lockRun := lr, unlockRun := ur })
  if t.lock && (m.lowAmp || decide (64 ≤ ur)) then
    (s.modTrk n (fun t => { t with lock := false, lockRun := 0, unlockRun := 0 })).lossCondition n
  else
    let first := !t.lock && decide (1024 ≤ lr)
    let s := if first then
        s.modTrk n (fun t => { t with lock := true, loss := false, valid := !t.lost })
      else s
    let s := if first && !t.valid && !t.lost then s.frontierTo n else s
    if t.coast && (m.lowAmp || !good) then s.modTrk n (fun t => { t with goodRun := 0 })
    else if t.lost then s.correct n m.m m.ts
    else s.takeGood n (fun s => s.correct n m.m m.ts)

/-! ### What falls due -/

/-- A measurement of a filtered source in the cycle in which it is applied (R101, R102, R128); it shows in the next. -/
def State.applyMeas (s : State) (n : Fin 16) (m : Meas) : State :=
  let t := s.trk[n]
  if t.lost && s.trkType n != 4 then s
  else if !t.seeded then s.seed n m.m m.ts
  else if s.trkType n = 4 then s.mainsStep n m
  else s.takeGood n (fun s => s.correct n m.m m.ts)

/-- The measurements that have waited for the present cycle, in order. -/
def State.measDue (s : State) (n : Fin 16) : State :=
  let l := (s.trk[n]).waiting.filter (fun m => decide (m.due ≤ s.now))
  l.foldl (fun s m => s.applyMeas n m)
    (s.modTrk n (fun t => { t with waiting := t.waiting.filter (fun m => decide (s.now < m.due)) }))

/-- A good measurement arrives from a filtered source, to be applied in cycle `due` (R128). It ends a loss condition, but
for the mains, whose loss ends with lock (R646). -/
def State.arrive (s : State) (n : Fin 16) (m : Nat) (ts : Int) (due : Nat) (lowAmp : Bool) : State :=
  let w : Meas := { m := m, ts := ts, due := due, lowAmp := lowAmp }
  s.modTrk n (fun t => { t with loss := t.loss && s.trkType n == 4, waiting := t.waiting ++ [w] })

/-- Place of (A, B) in the sequence 00, 10, 11, 01 (R111). -/
def quadIx (a b : Bool) : Nat := if a then (if b then 2 else 1) else (if b then 3 else 0)

/-- The lines of track `n` take the levels (`a`, `b`), first seen in cycle `ts` (R111 to R113): the count moves by one and
the edge is a measurement; when both lines change at once it is an encoder fault. -/
def State.countEdge (s : State) (n : Fin 16) (a b : Bool) (ts : Nat) : State :=
  let t := s.trk[n]
  let k := (quadIx a b + 4 - quadIx t.lineA t.lineB) % 4
  let s := s.modTrk n (fun t => { t with lineA := a, lineB := b, gate := some s.now })
  if k = 0 then s
  else if k = 2 then s.lossCondition n
  else
    let c := if k = 1 then t.cnt + 1 else t.cnt - 1
    (s.modTrk n (fun t => { t with cnt := c, loss := false })).applyMeas n
      { m := s.countAngle n c, ts := 16 * ts, due := s.now, lowAmp := false }

/-- The cycle in which a change of a line first seen in cycle `ts` is applied (R112, R128). -/
def State.edgeDue (s : State) (n : Fin 16) (ts : Nat) : Nat := ts + 2 + s.get (TRK_SRCB.GLITCH n)

/-- The accepted changes of the lines of track `n` that are due, in the order of their sample instants (R113). -/
def State.edgesDue (s : State) (n : Fin 16) : State :=
  let due := (s.trk[n]).edges.filter (fun e => decide (s.edgeDue n e.ts ≤ s.now))
  let s := s.modTrk n (fun t => { t with edges := t.edges.filter (fun e => decide (s.now < s.edgeDue n e.ts)) })
  (sortBy (fun x y => decide (x < y)) (due.map (·.ts)).eraseDups).foldl (fun (s : State) (ts : Nat) =>
    let level (b old : Bool) : Bool := match due.find? (fun e => e.ts == ts && e.lineB == b) with
      | some e => e.level
      | none => old
    s.countEdge n (level false (s.trk[n]).lineA) (level true (s.trk[n]).lineB) ts) s

/-- The check of R114 in the present cycle: the prediction has passed the far boundary of the present count interval,
and no change of a line is on its way. One passing gives one measurement (DEDUCED), and a boundary is no good
measurement for the coast (R132, R646). -/
def State.boundaryCheck (s : State) (n : Fin 16) : State :=
  let t := s.trk[n]
  let m := s.farBoundary n
  if s.trkEn n && s.trkType n == 2 && t.seeded && !t.lost && !t.coast && t.edges.isEmpty &&
      t.gate != some s.now && t.checked != some s.now && s.beyond n && t.passed != some m then
    (s.modTrk n (fun t => { t with passed := some m, checked := some s.now })).correct n m s.now16
  else s

/-- The coast timer has reached its limit (R133). -/
def State.coastDue (s : State) (n : Fin 16) : State :=
  let t := s.trk[n]
  if t.coast && decide (t.coastAt + usLc (min 1000 (s.get (TRK_FILT.COAST n))) ≤ s.now) then s.goLost n else s

/-- The cycle in which a ring-shared track without a further share becomes stale: 2.5 µs after the last (R127). -/
def TrkSt.staleAt (t : TrkSt) : Nat := t.shareAt + 3125

/-- No valid share has come for 2.5 µs (R127). -/
def State.staleDue (s : State) (n : Fin 16) : State :=
  let t := s.trk[n]
  if s.trkEn n && s.trkType n == 6 && !t.loss && decide (t.staleAt ≤ s.now) then s.lossCondition n else s

/-- The shares that are due set the source state, extrapolated to the device's own time (R126, R128). The angle is
rounded to the nearest 2^-16 au, ties upwards (DESIGN CHOICE: R126 states no rounding). -/
def State.sharesDue (s : State) (n : Fin 16) : State :=
  let l := (s.trk[n]).shares.filter (fun h => decide (h.due ≤ s.now))
  let s := s.modTrk n (fun t => { t with shares := t.shares.filter (fun h => decide (s.now < h.due)) })
  l.foldl (fun (s : State) (h : Share) =>
    let dn : Int := (s.ptp : Int) - h.time
    let src := BitVec.ofInt 48 ((h.ang.toNat : Int) * 65536 + roundDiv (h.vel.toInt * dn * 5) 4)
    let load (s : State) : State :=
      let t := s.trk[n]
      let s := s.modTrk n (fun t => { t with
        src := src, vel := h.vel, acc := 0, seeded := true, valid := true, fresh := t.fresh || !t.seeded })
      if t.seeded then s else s.frontierTo n
    if (s.trk[n]).lost then s else s.takeGood n load) s

/-! ### SSI frames -/

/-- BITS and CLKPER as they act (R140). -/
def State.ssiBits (s : State) (n : Nat) : Nat :=
  let b := s.get (TRK_SRCA.BITS n)
  if b = 0 then 32 else max 10 b

def State.ssiPer (s : State) (n : Nat) : Nat := max 125 (s.get (TRK_SRCA.CLKPER n))

/-- The enabled SSI tracks on the interface of track `n`, in order (R121). -/
def State.ssiPeers (s : State) (n : Nat) : List (Fin 16) :=
  (List.finRange 16).filter (fun k => s.trkEn k && s.trkType k == 3 &&
    s.get (TRK_CTRL.IFACE k) == s.get (TRK_CTRL.IFACE n))

/-- Track `n` starts frames: it is the lowest-numbered SSI track of its interface (R121). -/
def State.ssiDrives (s : State) (n : Fin 16) : Bool :=
  match s.ssiPeers n with
  | [] => false
  | k :: _ => k == n

/-- A frame or its wait is in progress (R119). -/
def TrkSt.ssiBusy (t : TrkSt) (now : Nat) : Bool :=
  match t.ssi with
  | some f => decide (now < f.until_)
  | none => false

/-- Start a frame of track `n`, or drop the start (R118, R119). -/
def State.ssiBegin (s : State) (n : Fin 16) (task : Bool) : State :=
  if (s.trk[n]).ssiBusy s.now then
    let s := s.raise (TRK_FLAGS.SSIOVR n)
    if task then s.taskLost (0x88 + n) else s
  else
    let b := s.ssiBits n
    let per := s.ssiPer n
    let f : SsiFrame := { start := s.now, bits := b, per := per, live := true,
                          until_ := s.now + b * per + usLc (max 1 (s.get (TRK_SRCB.TM n))) }
    (s.modTrk n (fun t => { t with ssi := some f })).signal (4 * n + 3)

/-- The cycle of the next frame on the poll period, which counts from the start of the track and from each poll
(DESIGN CHOICE: R119 does not say from where). -/
def State.pollAt (s : State) (n : Fin 16) : Nat := (s.trk[n]).pollFrom + 64 * s.get (TRK_SRCB.POLL n)

/-- The poll period of an SSI track has passed (R119). -/
def State.pollDue (s : State) (n : Fin 16) : State :=
  if s.ssiDrives n && s.on (TRK_SRCB.POLL n) && decide (s.pollAt n ≤ s.now) then
    (s.modTrk n (fun t => { t with pollFrom := s.now })).ssiBegin n false
  else s

/-- The level of ENCiA where an SSI track drives it as the frame clock: high but for the first part of each clock
period, which a falling edge begins (R118). -/
def State.ssiClock (s : State) (i : Nat) : Bool :=
  s.trk.toList.zipIdx.all (fun (t, n) =>
    if s.get (TRK_CTRL.IFACE n) = i then
      match t.ssi with
      | some f => decide (f.start + f.bits * f.per ≤ s.now) || decide (f.per - f.per / 2 ≤ (s.now - f.start) % f.per)
      | none => true
    else true)

/-- Everything that is due on track `n` in the present cycle. -/
def State.trkDue (s : State) (n : Fin 16) : State :=
  (((((s.edgesDue n).measDue n).sharesDue n).coastDue n).staleDue n).pollDue n

/-- The cycle of the next measurement that waits on track `n`. -/
def State.nextDue (s : State) (n : Fin 16) : Option Nat :=
  let t := s.trk[n]
  ((t.waiting.map (·.due)) ++ (t.edges.map (fun e => s.edgeDue n e.ts)) ++ (t.shares.map (·.due))).min?

/-! ### Enable, disable, source change -/

/-- `TRKn_CLKINC`, Q32.16 (R105). -/
def State.clkInc (s : State) (n : Nat) : BitVec 48 :=
  BitVec.ofNat 48 (s.get (TRK_CLKINC_HI.INCHI n) * 2 ^ 32 + s.get (TRK_CLKINC_LO.INCLO n))

/-- The track starts, as setting EN does (R139, R644): unseeded, count 0, DIR forward; an encoder takes the present
levels of its lines; a clock track is seeded at the angle last written to `TRKn_OBS_ANG`. -/
def State.trkStart (s : State) (n : Fin 16) : State :=
  let clk := s.trkType n == 0
  let inc := s.clkInc n
  let e := s.enc[Fin.ofNat 8 (s.get (TRK_CTRL.IFACE n))]
  let s := s.modTrk n (fun t => { t with
    seeded := clk, valid := clk, coast := false, lost := false, lock := false, rev := false, fresh := false,
    mult := s.trkMult n, cnt := 0, lineA := e.a, lineB := e.b, edges := [], gate := none, homed := false,
    loss := false, goodRun := 0, lockRun := 0, unlockRun := 0, halves := [], waiting := [], shares := [],
    load := none, passed := none, pollFrom := s.now, shareAt := s.now,
    ssi := t.ssi.map (fun f => { f with live := false }) })
  let s := if clk then
      (s.modTrk n (fun t => { t with
        src := BitVec.ofNat 48 ((s.rd (TRK_OBS_ANG.adr n)).toNat * 65536),
        vel := inc, acc := 0 })).output n 0
    else s
  (s.modTrk n (fun t => { t with ext := t.pos })).frontierTo n

/-- The track stops and holds its last state (R139). -/
def State.trkStop (s : State) (n : Fin 16) : State :=
  s.modTrk n (fun t => { t with
    seeded := false, valid := false, coast := false, lost := false, loss := false, fresh := false, halves := [],
    waiting := [], edges := [], shares := [], load := none, mult := s.trkMult n,
    ssi := t.ssi.map (fun f => { f with live := false }) })

/-- The output angle steps because OFFS or MULT changed: the turn count follows the sign of the step, the frontiers move
by it, DIR follows (R99, R145, R163, R645). The step is that of the present cycle's source angle, between the old
setting and the new one (DESIGN CHOICE for a change of MULT: R645 does not say of which cycle). -/
def State.outputStep (s : State) (n : Fin 16) : State :=
  let old := (s.trk[n]).oang
  let s := s.modTrk n (fun t => { t with mult := s.trkMult n })
  let d := (s.outAngle n (s.trk[n]).src - old).toInt
  ((s.output n d).frontierBy n d).dirStep n

/-- `TRKn_CTRL` and `TRKn_SRCA` have changed from `c0`, `a0` to `c1`, `a1`, and the change takes effect (R139, R644,
R645). -/
def State.trkCtrlChanged (s : State) (n : Fin 16) (c0 a0 c1 a1 : Word) : State :=
  let ty := fieldOf c1 3 1
  if fieldOf c1 0 0 = 0 then (if fieldOf c0 0 0 = 0 then s else s.trkStop n)
  else if fieldOf c0 0 0 = 0 then s.trkStart n
  else
    let s := if fieldOf c0 30 24 ≠ fieldOf c1 30 24 then s.outputStep n else s
    if fieldOf c0 3 1 ≠ ty ∨ fieldOf c0 10 8 ≠ fieldOf c1 10 8 ∨ (a0 ^^^ a1) &&& srcaMask ty ≠ 0 then s.trkStart n
    else s

/-- A core write has changed the control words of a track: it acts in the next cycle (R139, R644, R645). -/
def State.trkCtrlNote (s : State) (n : Fin 16) (c0 a0 : Word) : State :=
  let x : CtlChange := { cycle := s.now, ctrl0 := c0, srca0 := a0, ctrl1 := s.rd (TRK_CTRL.adr n),
                         srca1 := s.rd (TRK_SRCA.adr n) }
  s.modTrk n (fun t => { t with ctl := t.ctl ++ [x] })

/-- The changes of control words that act in the present cycle. -/
def State.ctlDue (s : State) (n : Fin 16) : State :=
  let l := (s.trk[n]).ctl.filter (fun x => decide (x.cycle < s.now))
  if l.isEmpty then s
  else l.foldl (fun (s : State) (x : CtlChange) => s.trkCtrlChanged n x.ctrl0 x.srca0 x.ctrl1 x.srca1)
    (s.modTrk n (fun t => { t with ctl := t.ctl.filter (fun x => decide (s.now ≤ x.cycle)) }))

/-- A commit has changed OFFS or CLKINC of an enabled track (R99, R105). -/
def State.trkOffsChanged (s : State) (n : Fin 16) : State :=
  if s.trkEn n then s.outputStep n else s

def State.trkClkincChanged (s : State) (n : Fin 16) : State :=
  if s.trkEn n && s.trkType n == 0 then
    (s.modTrk n (fun t => { t with vel := s.clkInc n })).output n 0
  else s

/-- A write of 1 to `TRKn_FLAGS.LOST` (R14, R102, R135). DIR is forward and its extreme the held position from here on,
and is set anew by the seeding measurement (DESIGN CHOICE: R130 does not say which of the two it means). -/
def State.trkLostClear (s : State) (n : Fin 16) : State :=
  if (s.trk[n]).loss || !s.clearable (TRK_FLAGS.LOST n) then s
  else
    let s := s.set (TRK_FLAGS.LOST n) 0
    if (s.trk[n]).lost then
      s.modTrk n (fun t => { t with
        lost := false, seeded := false, homed := false, rev := false, ext := t.pos, waiting := [], shares := [] })
    else s

/-! ### Observer source -/

/-- A core write of `TRKn_OBS_ANG` has stored the angle: the load takes effect in the next cycle (R105, R124). -/
def State.obsAngWritten (s : State) (n : Fin 16) : State :=
  let v := BitVec.ofNat 48 (s.get (TRK_OBS_VEL_HI.VHI n) * 2 ^ 32 + s.get (TRK_OBS_VEL_LO.VLO n))
  let l : CoreLoad := { cycle := s.now, ang := s.rd (TRK_OBS_ANG.adr n), vel := v, acc := s.rd (TRK_OBS_ACC.adr n) }
  s.modTrk n (fun t => { t with load := some l })

/-! ### Resolver, mains, excitation -/

/-- The phase of excitation generator `k` at instant `inst` in t16, in au (R106); it is that of its track also while the
generator is disabled or held at mid-scale (DESIGN CHOICE: R109 does not say what the half-period is then). -/
def State.excPhase (s : State) (k : Nat) (inst : Nat) : Nat :=
  let tr := s.get (EXC_CTRL.TRACK k)
  if h : tr < 16 then
    let t := s.trk[tr]
    let back := roundDiv (t.ovel.toInt * ((s.now16 : Int) - inst)) (2 ^ 20)
    (((t.oang.toNat : Int) - back + s.get (EXC_CTRL.PHASE k) * 2 ^ 20) % 2 ^ 32).toNat
  else 0

/-- The generator is held at mid-scale: its track is no clock track, or turns outside 2 kHz to 20 kHz
(R107). A track that is not enabled counts as no clock track (DESIGN CHOICE: R107 does not say). A turn of 2 kHz is
2^48 · 2000 · 0.8e-9 in Q32.16. -/
def State.excRange (s : State) (k : Nat) : Bool :=
  let tr := s.get (EXC_CTRL.TRACK k)
  if h : tr < 16 then
    let v := ((s.trk[tr]).ovel.toInt).natAbs
    s.on (EXC_CTRL.EN k) &&
      (s.trkType tr != 0 || !s.trkEn tr || decide (v * 625000 < 2 ^ 48) || decide (2 ^ 48 < v * 62500))
  else false

/-- The output of EXCk as a fraction of full scale times 2^64: 0 is mid-scale (R106, R107). -/
def State.excOutput (s : State) (k : Nat) : Int :=
  if s.on (EXC_CTRL.EN k) && !s.excRange k then
    (sinCosAu (s.excPhase k s.now16)).1 * s.get (EXC_CTRL.AMP k) / 255
  else 0

/-- A resolver pair (s, c) sampled at `inst` (R109, R110). A pair out of the amplitude window is a fault in either
half-period, also where PEAKS discards a good one (DESIGN CHOICE: R109 and R110 do not say which comes first). -/
def State.resolverPair (s : State) (n : Fin 16) (sn cs : Int) (inst : Nat) (late : Bool) : State :=
  let amp := sn * sn + cs * cs
  let lo : Int := s.get (TRK_SRCB.AMPMIN n)
  let hi : Int := s.get (TRK_SRCB.AMPMAX n)
  if amp < lo * lo ∨ hi * hi < amp then s.lossCondition n
  else if late then s
  else
    let neg := decide (2 ^ 31 < s.excPhase (s.get (TRK_SRCA.EXC n)) inst)
    if neg && !s.on (TRK_SRCA.PEAKS n) then s
    else
      let m := if neg then atan2Au (-sn) (-cs) else atan2Au sn cs
      s.arrive n m inst (s.now + 8) false

/-- A mains group sampled at `inst` (R122). -/
def State.mainsGroup (s : State) (n : Fin 16) (a b c : Int) (inst : Nat) : State :=
  let x := 2 * a - b - c
  let y := b - c
  let lo : Int := s.get (TRK_SRCB.AMPMINM n)
  s.arrive n (atan2Au (sqrt3Fix * y) (x * 2 ^ 64)) inst (s.now + 10)
    (decide (x * x + 3 * y * y < 9 * lo * lo))

/-- A converter result in role `r` reaches track `n` (R108, R122). -/
def State.sourceResult (s : State) (n : Fin 16) (r : Nat) (val : Int) (inst : Nat) : State :=
  let s := s.expireHalves n
  let mains := s.trkType n == 4
  let hs := (s.trk[n]).halves
  let same := hs.filter (fun h => h.inst == inst && h.role != r)
  let rest := hs.filter (fun h => h.inst != inst && !(h.late && decide (h.cycle + 64 < s.now)))
  let me : Half := { role := r, val := val, inst := inst, cycle := s.now, late := false }
  let of (k : Nat) : Int := ((me :: same).find? (fun h => h.role == k)).elim 0 (·.val)
  let late := same.any (·.late)
  if same.length + 1 = (if mains then 3 else 2) then
    let s := s.modTrk n (fun t => { t with halves := rest })
    if mains then (if late then s else s.mainsGroup n (of 0) (of 1) (of 2) inst)
    else s.resolverPair n (of 0) (of 1) inst late
  else s.modTrk n (fun t => { t with halves := rest ++ same ++ [me] })

/-- The roles in which track `n` uses a result of converter `c` with tag `tag` (R108, R122). -/
def State.sourceRoles (s : State) (n : Nat) (c tag : Nat) : List Nat :=
  if s.trkEn n then
    if s.trkType n = 1 then
      (if s.get (TRK_SRCA.SINCV n) = c ∧ s.get (TRK_SRCA.SINCH n) = tag then [0] else []) ++
      (if s.get (TRK_SRCA.COSCV n) = c ∧ s.get (TRK_SRCA.COSCH n) = tag then [1] else [])
    else if s.trkType n = 4 then
      (if s.get (TRK_SRCA.CVA n) = c ∧ s.get (TRK_SRCA.CHA n) = tag then [0] else []) ++
      (if s.get (TRK_SRCA.CVB n) = c ∧ s.get (TRK_SRCA.CHB n) = tag then [1] else []) ++
      (if s.get (TRK_SRCA.CVC n) = c ∧ s.get (TRK_SRCA.CHC n) = tag then [2] else [])
    else []
  else []

/-- A converter result reaches every track that names it. -/
def State.trackResult (s : State) (c tag : Nat) (val : Int) (inst : Nat) : State :=
  (List.finRange 16).foldl (fun s (n : Fin 16) =>
    (s.sourceRoles n c tag).foldl (fun s r => s.sourceResult n r val inst) s) s

/-! ### Reading a track -/

/-- A read of `TRKn_ANG` by the agent with latch set `r` (R136). -/
def State.angRead (s : State) (n : Fin 16) (r : Fin 4) : Word × State :=
  let t := s.trk[n]
  let l : TrkLatch := { turn := t.turn, vel := t.ovel, acc := t.oacc, stat := t.statWord }
  (t.oang, s.modTrk n (fun t => { t with latches := t.latches.set r l }))

end Sys2Proof.Machine
end

