-- ==== Sys2Proof/Machine/Almanac.lean ====
section
/-!
DEFINITION. Machine/Almanac.lean: the Almanac (04): entries, the scan that commits crossings, re-arming,
the issue of firings.
-/
namespace Sys2Proof.Machine

/-- Address of word `w` of entry `i` (R144). -/
def almAddr (i w : Nat) : Nat := 0x30108000 + 16 * i + 4 * w

def State.almWord (s : State) (i w : Nat) : Word := s.rd (almAddr i w)

/-- The words at the start of the cycle of those that have changed in it (R151). -/
def State.almOld (s : State) : List (Nat × Word) := if s.almc.cycle = s.now then s.almc.old else []

/-- Word `w` of entry `i` as it stood at the start of the cycle, which is what the scans of the cycle see (R151). -/
def State.almStart (s : State) (i w : Nat) : Word :=
  match s.almOld.find? (fun x => x.1 == almAddr i w) with
  | some x => x.2
  | none => s.almWord i w

/-- The word of an entry at address `a` as a read shows it: a re-arm shows from the next cycle on (R150). -/
def State.almRead (s : State) (a : Nat) : Word :=
  if s.almc.cycle = s.now ∧ s.almc.rearmed.contains a then
    ((s.almOld.find? (fun x => x.1 == a)).map (·.2)).getD (s.rd a)
  else s.rd a

/-- The armed entries of track `n`, as at the start of the cycle; an unlisted entry word is zero and so not armed. -/
def State.armedEntries (s : State) (n : Nat) : List Nat :=
  (s.almOld ++ s.reg.filter (fun kv => !s.almOld.any (fun x => x.1 == kv.1))).filterMap (fun kv =>
    if 0x30108000 ≤ kv.1 ∧ kv.1 < 0x3010C000 ∧ kv.1 % 16 = 4 ∧ fieldOf kv.2 15 15 = 1 ∧
        fieldOf kv.2 3 0 = n then some ((kv.1 - 0x30108000) / 16) else none)

/-- Distance from the low word of a frontier to a threshold ahead in the direction of the scan, from 1
to 2^32 (R146). -/
def aheadOf (rev : Bool) (f : BitVec 48) (th : Word) : Nat :=
  let d := if rev then (f.setWidth 32 - th).toNat else (th - f.setWidth 32).toNat
  if d = 0 then 2 ^ 32 else d

/-- The position `d` ahead of `f` in the direction of the scan. -/
def posAhead (rev : Bool) (f : BitVec 48) (d : Nat) : BitVec 48 :=
  if rev then f - BitVec.ofNat 48 d else f + BitVec.ofNat 48 d

/-- How a crossing at `x` is committed in a scan of cycle `c` at position `p` with velocity `v` and a
horizon of `hz` cycles: the instant in t16 and whether it is short; none when it lies beyond the
horizon (R146, R147, R154). -/
def crossAt (rev : Bool) (x p : BitVec 48) (v : Int) (hz c : Nat) : Option (Nat × Bool) :=
  let passed := if rev then !posGt p x else !posGt x p
  if passed then some (16 * (c + 1), true)
  else
    let u := if rev then -v else v
    let dist := ((x - p).toInt).natAbs
    if 0 < u ∧ (dist : Int) * 65536 < hz * u then
      some (16 * c + (2 * (dist * 1048576) + u.toNat) / (2 * u.toNat), false)
    else none

/-- Entries eligible in the direction of the scan, with their distances, in the order of R146. -/
def State.almCandidates (s : State) (n : Nat) (rev : Bool) (f : BitVec 48) : List (Nat × Nat) :=
  sortBy (fun a b => decide (a.1 < b.1) || (a.1 == b.1 && decide (a.2 < b.2)))
    ((s.armedEntries n).filterMap (fun i =>
      let d := fieldOf (s.almStart i 1) 5 4
      if d = 0 ∨ d = (if rev then 2 else 1) then some (aheadOf rev f (s.almStart i 0), i) else none))

/-- The tasks or fork source that a firing of entry `i` raises (R143). -/
def State.almTasks (s : State) (i : Nat) : List Nat × Option Nat :=
  let w1 := s.almStart i 1
  let w3 := (s.almStart i 3).toNat
  if fieldOf w1 11 11 = 1 then ([], some (w3 % 32))
  else ((List.range (min 4 (fieldOf w1 10 8))).map (fun j => w3 / 2 ^ (8 * j) % 256), none)

/-- `ALM_TRKn_NEXT` (R169): the armed entry of track `n` nearest beyond the frontier in a direction. -/
def State.almNearest (s : State) (n : Fin 16) (rev : Bool) : Option Nat :=
  ((s.almCandidates n rev (s.alm[n]).frontier).head?).map (·.2)

def State.almNextOf (s : State) (n : Fin 16) : Nat :=
  (match s.almNearest n false with
   | some i => 2 ^ 31 + i * 2 ^ 16
   | none => 0) +
  (match s.almNearest n true with
   | some i => 2 ^ 15 + i
   | none => 0) +
  (if (s.alm[n]).queue.isEmpty then 0 else 2 ^ 10)

/-- The Almanac's view of the present cycle begins, at the first change in it (R151, R169). -/
def State.almOpen (s : State) : State :=
  if s.almc.cycle = s.now then s
  else { s with almc := { AlmCycle.reset with cycle := s.now, next := Vector.ofFn (fun n => s.almNextOf n) } }

/-- `ALM_TRKn_NEXT` shows the state at the start of the cycle (R169). -/
def State.almNextWord (s : State) (n : Fin 16) : Nat :=
  if s.almc.cycle = s.now then s.almc.next[n] else s.almNextOf n

/-- Change the word at `a` of an entry, and keep what it was at the start of the cycle. -/
def State.almPut (s : State) (a : Nat) (w : Word) : State :=
  let s := s.almOpen
  let s := if s.almc.old.any (fun x => x.1 == a) then s
    else { s with almc := { s.almc with old := s.almc.old ++ [(a, s.rd a)] } }
  s.wr a w

/-- A write of `ALM_ARM` sets or clears EN of entry `i` at once, and last of the changes of its cycle (R151, R168). -/
def State.almSetEn (s : State) (i : Nat) (b : Bool) : State :=
  let s := s.almPut (almAddr i 1) (withField (s.almWord i 1) 15 15 (if b then 1 else 0))
  { s with almc := { s.almc with
      arms := s.almc.arms.filter (fun (x : Nat × Bool) => x.1 != i) ++ [(i, b)],
      rearmed := s.almc.rearmed.filter (fun (x : Nat) => x != almAddr i 1) } }

/-- A re-arm writes word `k` of entry `i`: before a switch and a write of `ALM_ARM` of the same cycle, which therefore
stand (R151). -/
def State.almRearmWord (s : State) (i k : Nat) (w : Word) : State :=
  let a := almAddr i k
  let s := s.almOpen
  let arm := s.almc.arms.find? (fun x => x.1 == i)
  if s.almc.switched.contains a || (k == 1 && arm.isSome) then s
  else
    let s := s.almPut a w
    { s with almc := { s.almc with rearmed := s.almc.rearmed ++ [a] } }

/-- The re-arm of entry `i` at its commitment (R149, R150): chaining to an entry that is armed already changes
nothing. -/
def State.almRearm (s : State) (i : Nat) (rev : Bool) : State :=
  let w1 := s.almStart i 1
  let m := fieldOf w1 7 6
  let en (s : State) (j : Nat) (b : Bool) : State :=
    s.almRearmWord j 1 (withField (s.almWord j 1) 15 15 (if b then 1 else 0))
  if m = 0 then en s i false
  else if m = 1 then
    s.almRearmWord i 0 (if rev then s.almStart i 0 - s.almStart i 2 else s.almStart i 0 + s.almStart i 2)
  else if m = 2 then s
  else
    let j := fieldOf w1 25 16
    if j = i then s
    else if (s.almStart j 1).getLsbD 15 then en s i false
    else en (en s i false) j true

/-- The switch of a commit replaces words of entries, after the re-arms of its cycle and before the writes of `ALM_ARM`
(R151, R168). -/
def State.almSwitch (s : State) (items : List (Nat × Word)) : State :=
  if items.isEmpty then s
  else
    let s := items.foldl (fun (s : State) (e : Nat × Word) => s.almPut e.1 e.2) s.almOpen
    let s := { s with almc := { s.almc with
      switched := s.almc.switched ++ items.map (fun (e : Nat × Word) => e.1),
      rearmed := s.almc.rearmed.filter (fun (a : Nat) => !items.any (fun (e : Nat × Word) => e.1 == a)) } }
    s.almc.arms.foldl (fun (s : State) (x : Nat × Bool) => s.almSetEn x.1 x.2) s

/-- Commit the crossing of entry `i` at `x` with instant `t` (R147 to R149, R154, R167). -/
def State.almCommitEntry (s : State) (n : Fin 16) (i t : Nat) (short rev : Bool) (x : BitVec 48) :
    State :=
  let (tasks, fork) := s.almTasks i
  let f : Firing := { t := t, entry := i, tasks := tasks, fork := fork }
  let a : AlmSt := { s.alm[n] with frontier := x, queue := (s.alm[n]).queue ++ [f] }
  let s := { s with alm := s.alm.set n a }
  let s := if short then
      ((s.raise ALM_STAT.SHORT).set ALM_LATEIDX.SIDX i).signal 0x041
    else s
  s.almRearm i rev

/-- The entries of one scan in order; answers whether a full queue stopped it (R146, R156). -/
def State.almScanLoop (n : Fin 16) (rev : Bool) (f0 p : BitVec 48) (v : Int) :
    List (Nat × Nat) → State → State × Bool
  | [], s => (s, false)
  | (d, i) :: l, s =>
    if 16 ≤ (s.alm[n]).queue.length then (s.raise ALM_STAT.QFULL, true)
    else
      let x := posAhead rev f0 d
      match crossAt rev x p v 2 s.now with
      | some (t, short) => State.almScanLoop n rev f0 p v l (s.almCommitEntry n i t short rev x)
      | none => (s, false)

/-- The crossing of a track-angle commit boundary (R165). -/
def State.boundaryScan (s : State) (n : Fin 16) (rev : Bool) (f p : BitVec 48) (v : Int) : State :=
  match s.commit with
  | some c =>
    let dir := c.arg / 2 ^ 48 % 256
    if c.bound = 2 ∧ c.switchAt = none ∧ c.arg / 2 ^ 56 = n ∧ (dir = 0 ∨ dir = (if rev then 2 else 1)) then
      match crossAt rev (posAhead rev f (aheadOf rev f (BitVec.ofNat 32 c.arg))) p v 2 s.now with
      | some (t, _) => { s with commit := some { c with switchAt := some (max (s.now + 1) (t / 16)) } }
      | none => s
    else s
  | none => s

/-- The track is scanned (R161, R162, R164). -/
def State.almScans (s : State) (n : Fin 16) : Bool :=
  let t := s.trk[n]
  s.takes blkALM && s.trkEn n && t.valid && !t.lost && !s.on (ALM_TRK_CFG.HOLD n) &&
    (!t.coast || s.on (ALM_TRK_CFG.COASTFIRE n))

/-- The armed entries of track `n` are read: one that cannot be read loses its EN and takes no part in the scan (R333). -/
def State.almReads (s : State) (n : Fin 16) : State :=
  if s.upset.isEmpty then s
  else (s.armedEntries n).foldl (fun (s : State) (i : Nat) =>
    let t := s.eccReads (almAddr i 0) 16
    if s.spoiltAny (almAddr i 0) 16 then
      t.almRearmWord i 1 (withField (t.almWord i 1) 15 15 0)
    else t) s

/-- The scan of track `n` in the present cycle (R146, R156, R164, R165). -/
def State.almSweep (s : State) (n : Fin 16) : State :=
  if s.on (ALM_TRK_CFG.HOLD n) && s.takes blkALM then
    { s with alm := s.alm.set n { s.alm[n] with frontier := (s.trk[n]).pos } }
  else if s.almScans n then
    let t := s.trk[n]
    let f := (s.alm[n]).frontier
    let p := t.pos
    let v := t.ovel.toInt
    let s := s.boundaryScan n t.rev f p v
    let l := (s.almCandidates n t.rev f).filter (fun (x : Nat × Nat) => !s.spoiltAny (almAddr x.2 0) 16)
    let s := s.almReads n
    let (s, full) := State.almScanLoop n t.rev f p v l s
    if full then s
    else
      let g := (s.alm[n]).frontier
      let g := if (if t.rev then posGt g p else posGt p g) then p else g
      { s with alm := s.alm.set n { s.alm[n] with frontier := g } }
  else s

/-- `ALMANAC_COMMIT`: the scan of track `n` in the present cycle, which is made once in each cycle (R146). -/
def State.almScan (s : State) (n : Fin 16) : State :=
  if (s.alm[n]).scanned = some s.now then s
  else
    let s := s.almOpen
    ({ s with alm := s.alm.set n { s.alm[n] with scanned := some s.now } } : State).almSweep n

/-- The firing to issue next: earliest instant, then lowest entry (R152). -/
def nextFiring : List Firing → Option Firing
  | [] => none
  | f :: l => match nextFiring l with
    | none => some f
    | some g => if f.t < g.t ∨ (f.t = g.t ∧ f.entry ≤ g.entry) then some f else some g

/-- Deliver an inline task of a firing with instant `t`: over the timed links, or through the fabric
(R157, R280). -/
def State.almTask (s : State) (task t : Nat) : State :=
  if task < 0x18 ∨ (0x68 ≤ task ∧ task < 0x88) then
    { s with arrived := s.arrived ++ [{ task := task, inst := some t, cycle := s.now + 1 }] }
  else if s.takes blkEVF then s.deliver task (some t) s.now
  else s

/-- Track `n` issues firing `f` in the present cycle, its firing cycle or a later one (R152, R153, R155, R157, R167). -/
def State.almIssueNow (s : State) (n : Fin 16) (f : Firing) : State :=
  let s := s.almOpen
  let k := s.now - (f.t / 16 - 1)
  let t := f.t + 16 * k
  let a : AlmSt := { s.alm[n] with queue := (s.alm[n]).queue.erase f, lastIssue := some s.now }
  let s := { s with alm := s.alm.set n a }
  let s := s.wr ALM_FIRED.adr (s.rd ALM_FIRED.adr + 1)
  let s := if k = 0 then s
    else ((s.raise ALM_STAT.LATE).set ALM_LATEIDX.LIDX f.entry).signal 0x040
  match f.fork with
  | some g => s.raiseSrc g (some t)
  | none => f.tasks.foldl (fun s task => s.almTask task t) s

/-- The firings of track `n` whose firing cycle has come. -/
def State.almReady (s : State) (n : Fin 16) : List Firing :=
  (s.alm[n]).queue.filter (fun f => decide (f.t / 16 ≤ s.now + 1))

/-- What the Almanac still has to do for track `n` in the present cycle: its scan, and the issue of a firing whose cycle
has come, at most one (R146, R152, R155, R166). -/
def State.almCycle (s : State) (n : Fin 16) : State :=
  let s := s.almScan n
  if s.runs blkALM && (s.alm[n]).lastIssue != some s.now then
    match nextFiring (s.almReady n) with
    | some f => s.almIssueNow n f
    | none => s
  else s

end Sys2Proof.Machine
end

