-- ==== Sys2Proof/Machine/Words.lean ====
section
/-!
DEFINITION. Machine/Words.lean: the edge placer's order of edges (07, R246), words and pulses that reach a gate pair
(R258 to R260), and the instants of tasks (R281).
-/
namespace Sys2Proof.Machine

/-- Modes of `GOU_PAIRp_CFG.MODE` (R250, R254, R258). -/
def gmCarrier : Nat := 0
def gmPattern : Nat := 1
def gmDirect : Nat := 2

def State.gMode (s : State) (p : Nat) : Nat := s.get (GOU_PAIR_CFG.MODE p)

/-- Append committed edges to pair `p`. -/
def State.addEdges (s : State) (p : Fin 32) (l : List Edge) : State :=
  s.modPair p (fun q => { q with edges := q.edges ++ l })

/-! ### The order of edges (R246) -/

/-- The edge that sets the command back after one to `lvl` at instant `t`, if it has that same instant: what stands
behind it (R246, step 2). -/
def setsBack (lvl : Bool) (t : Nat) : List Edge → Option (List Edge)
  | [] => none
  | e :: l => if e.lvl = lvl then setsBack lvl t l else if e.t = t then some l else none

/-- The next edge that changes the command, after steps 1 and 2 of R246, with the edges behind it; `k` bounds the edges
looked at. -/
def nextEdge (cmd : Bool) : Nat → List Edge → Option (Edge × List Edge)
  | _, [] => none
  | 0, _ => none
  | k + 1, e :: l =>
    if e.lvl = cmd then nextEdge cmd k l
    else match setsBack e.lvl e.t l with
      | some r => nextEdge cmd k r
      | none => some (e, l)

/-- The adjusted instant of an edge behind one that took effect at `last` (R246, steps 3 and 4), and whether it was
delayed. -/
def State.adjustEdge (s : State) (p : Fin 32) (last : Option Nat) (e : Edge) : Nat × Bool :=
  match last with
  | none => (e.t, false)
  | some t0 =>
    let lim := t0 + s.get (if e.lvl then GOU_PAIR_MINOFF.TIME p else GOU_PAIR_MINON.TIME p)
    if e.t < lim then (lim, true) else (e.t, false)

/-- The command at instant `t` as the committed edges of the pair will make it; `k` bounds the edges looked at. -/
def State.commandAt (s : State) (p : Fin 32) (t : Nat) : Nat → Bool → Option Nat → List Edge → Bool
  | 0, cmd, _, _ => cmd
  | k + 1, cmd, last, l =>
    match nextEdge cmd l.length l with
    | none => cmd
    | some (e, r) =>
      let a := (s.adjustEdge p last e).1
      if a ≤ t then s.commandAt p t k e.lvl (some a) r else cmd

/-- The command of pair `p` is on from a pulse at instant `t` (R259). -/
def State.pulseOn (s : State) (p : Fin 32) (t : Nat) : Bool :=
  let q := s.pair[p]
  q.pulse.isSome && s.commandAt p t q.edges.length (s.on (GOU_PAIR_STAT.HCMD p)) q.lastT q.edges

/-! ### Direct mode and words from slices -/

/-- A start at instant `t` (R258, R259, R272), by a task or by a newly held word. A task start in the cycle in which a
word has started a pulse is that same start. -/
def State.pulseStart (s : State) (p : Fin 32) (t : Nat) (task : Bool) : State :=
  let q := s.pair[p]
  if task && q.pulse.isSome && q.pulseAt == s.now then s
  else if s.pulseOn p t then
    let s := s.raise (GOU_PAIR_STAT.STARTOVR p)
    if task then s.taskLost (0x68 + p) else s
  else
    let w := (s.rd (GOU_PAIR_WORD.adr p)).toNat
    if w = 0 then s
    else
      ((s.addEdges p [{ t := t, lvl := true }, { t := t + w, lvl := false }]).modPair p
        (fun q => { q with pulse := some t, pulseAt := s.now })).signal (0x160 + p)

/-- Move the first turn-off of a list of edges by `f`; `none` when there is none. -/
def moveOff (f : Nat → Nat) : List Edge → Option (List Edge)
  | [] => none
  | e :: l => if e.lvl then (moveOff f l).map (fun l => e :: l) else some ({ e with t := f e.t } :: l)

/-- A word held while a pulse is on replaces W for that pulse (R259). -/
def State.pulseWord (s : State) (p : Fin 32) (w : Word) : State :=
  match (s.pair[p]).pulse with
  | some t0 =>
    let off := t0 + w.toNat
    let off := if off ≤ s.now16 then 16 * (s.now + 1) else off
    match moveOff (fun _ => off) (s.pair[p]).edges with
    | some l => s.modPair p (fun q => { q with edges := l })
    | none => s
  | none => s

/-- A time word is held (R258, R259): it replaces the W of a pulse that is on, and where CSTART is 1 it starts a pulse at
the start of the cycle, which a pulse that is on drops. -/
def State.timeWord (s : State) (p : Fin 32) (w : Word) : State :=
  let on := s.pulseOn p s.now16
  let s := s.wr (GOU_PAIR_WORD.adr p) w
  let s := if on then s.pulseWord p w else s
  if s.on (GOU_PAIR_CFG.CSTART p) then
    (if on then s.raise (GOU_PAIR_STAT.STARTOVR p) else s.pulseStart p s.now16 false)
  else s

/-- A trim word is held; the scan of the present cycle still takes the trim before it (R256). -/
def State.trimWord (s : State) (p : Fin 32) (w : Word) : State :=
  let old := s.rd (GOU_PAIR_TRIM.adr p)
  let s := if (s.pair[p]).trimAt = some s.now then s
    else s.modPair p (fun q => { q with trimAt := some s.now, trimPrev := old })
  s.wr (GOU_PAIR_TRIM.adr p) w

/-- A word of a slice reaches pair `p` (R260): kind 0 duty, 1 time, 2 trim. -/
def State.pairWord (s : State) (p : Fin 32) (kind : Nat) (w : Word) : State :=
  if s.pairState p ≠ pRun ∨ kind = 3 then s
  else
    let m := s.gMode p
    if m = gmCarrier ∧ kind = 0 then s.wr (GOU_PAIR_WORD.adr p) w
    else if m = gmPattern ∧ kind = 2 then s.trimWord p w
    else if m = gmDirect ∧ kind = 1 then s.timeWord p w
    else s.raise (GOU_PAIR_STAT.WORDMM p)

/-! ### Instants of tasks (R281) -/

/-- The instant at which an arrival acts on a consumer that takes a task without instant at the start of its cycle. -/
def Arrival.at_ (a : Arrival) : Nat := a.inst.getD (16 * a.cycle)

/-- The earliest instant among arrivals (R281). -/
def earliestInst (l : List Arrival) : Nat :=
  match l with
  | [] => 0
  | a :: t => t.foldl (fun m b => min m b.at_) a.at_

/-- How many of the arrivals act at other instants than the earliest (R281). -/
def laterInsts (l : List Arrival) : Nat :=
  let e := earliestInst l
  ((l.map (·.at_)).eraseDups.filter (fun t => decide (t ≠ e))).length

end Sys2Proof.Machine
end

