-- ==== Sys2Proof/Machine/Gates.lean ====
section
/-!
DEFINITION. Machine/Gates.lean: the gate pairs (07) in one loop cycle: arming, the edge placer, carrier and pattern
modes, pulse tasks, the peak terminator.
-/
namespace Sys2Proof.Machine

/-- The track that pair `p` names. -/
def State.pairTrack (s : State) (p : Nat) : Fin 16 :=
  ⟨s.get (GOU_PAIR_CFG.TRACK p) % 16, Nat.mod_lt _ (by decide)⟩

/-- The position φ of pair `p` (R249). -/
def State.phi (s : State) (p : Nat) : BitVec 48 :=
  (s.trk[s.pairTrack p]).pos - (s.rd (GOU_PAIR_PHASE.adr p)).setWidth 48

/-! ### Arming and disarming (R243, R244) -/

/-- A write of `GOU_ARMREQ`: what a named pair asks for in the present cycle, and whether its conditions hold in it. A
disarm of the same cycle drops it (R243, R244). -/
def State.armReq (s : State) (mask : Nat) : State :=
  (List.finRange 32).foldl (fun s (p : Fin 32) =>
    if mask.testBit p && s.pairState p != pRun && (s.pair[p]).disarmAt != some s.now then
      let ok := s.mode == mField && !s.on (GOU_PAIR_STAT.TRIP p)
      s.modPair p (fun q => { q with ask := some ok })
    else s) s

/-- A write of `GOU_DISARM` (R244): a pair in RUN goes to OFF, and its outputs are inactive two cycles later; a pair in
SAFE without a latched trip goes to OFF two cycles later. -/
def State.disarmReq (s : State) (mask : Nat) : State :=
  (List.finRange 32).foldl (fun s (p : Fin 32) =>
    if mask.testBit p then
      let now := s.now
      let s := s.modPair p (fun q => { q with ask := none, disarmAt := some now })
      if s.pairState p == pRun then
        let s := s.modPair p (fun q => { q with edges := [], owed := none, pulse := none, term := none })
        ((s.set (GOU_PAIR_STAT.HCMD p) 0).set (GOU_PAIR_STAT.STATE p) pOff).later (now + 2) (.outsOff p)
      else if s.pairState p == pSafe && !s.on (GOU_PAIR_STAT.TRIP p) then s.later (now + 2) (.offState p)
      else s
    else s) s

/-- The outputs of pair `p` are inactive (R242, R244). -/
def State.outsOff (s : State) (p : Fin 32) : State :=
  s.modPair p (fun q => { q with hi := false, lo := false, owed := none })

/-- A disarm from SAFE takes effect (R244). -/
def State.offState (s : State) (p : Fin 32) : State :=
  if s.pairState p = pSafe then (s.outsOff p).set (GOU_PAIR_STAT.STATE p) pOff else s

/-- Arm requests of the present cycle that may not act are refused (R243). -/
def State.armRefuse (s : State) : State :=
  if s.pair.toList.any (fun q => q.ask == some false) then s.raise GOU_GEN.ARMREF else s

/-- Pair `p` is armed (R243): held word and trim zero, the command off, the low side inactive until the first turn-on,
its frontier at the position. -/
def State.armPair (s : State) (p : Fin 32) : State :=
  let f := s.phi p
  let al := s.on (GOU_PAIR_CFG.ALIGN p)
  let up := s.get (GOU_PAIR_CFG.UPD p)
  let s := { s with pair := s.pair.set p { PairSt.reset with frontier := f, align := al, upd := up } }
  let s := (s.wr (GOU_PAIR_WORD.adr p) 0).wr (GOU_PAIR_TRIM.adr p) 0
  (s.set (GOU_PAIR_STAT.HCMD p) 0).set (GOU_PAIR_STAT.STATE p) pRun

/-- Arm requests of the cycle before take effect. -/
def State.armPairs (s : State) : State :=
  if s.pair.toList.any (fun q => q.ask.isSome) then
    (List.finRange 32).foldl (fun s (p : Fin 32) =>
      match (s.pair[p]).ask with
      | some true => s.armPair p
      | some false => s.modPair p (fun q => { q with ask := none })
      | none => s) s
  else s

/-- A switch has changed PHASE of pair `p` from `old`: its frontier moves by the step of φ (R249). -/
def State.phaseStep (s : State) (p : Fin 32) (old : Word) : State :=
  let d := old.setWidth 48 - (s.rd (GOU_PAIR_PHASE.adr p)).setWidth 48
  s.modPair p (fun q => { q with frontier := q.frontier + d })

/-! ### The edge placer (R245 to R248) -/

/-- An output becomes active after its dead time (R245); the peak terminator watches from the
high-side turn-on (R219). -/
def State.activate (s : State) (p : Fin 32) (t : Nat) (high : Bool) : State :=
  s.modPair p (fun q =>
    let q := { q with owed := none }
    if high then { q with hi := true, term := q.term.map (fun m => { m with onAt := some t }) }
    else { q with lo := true })

/-- The window of a peak terminator closes at a turn-off at instant `t` (R219). -/
def Term.close (m : Term) (t : Nat) : Term :=
  match m.onAt with
  | some on => { m with onAt := none, past := m.past.filter (fun w => decide (t < w.2 + 512)) ++ [(on, t)] }
  | none => m

/-- A change of the command at instant `t` (R245, R247). -/
def State.commandChange (s : State) (p : Fin 32) (t : Nat) (on : Bool) : State :=
  let dead := s.get (GOU_PAIR_DEAD.TIME p)
  let ls := s.on (GOU_PAIR_CFG.LSMODE p)
  let s := (s.set (GOU_PAIR_STAT.HCMD p) (if on then 1 else 0)).modPair p (fun q =>
    if on then { q with lo := false, begun := true, lastT := some t, owed := some (t + dead, true) }
    else { q with
      hi := false, lastT := some t, pulse := none, owed := if ls then none else some (t + dead, false),
      term := q.term.map (fun m => m.close t) })
  let s := if dead = 0 then
      (if on then s.activate p t true else if ls then s else s.activate p t false)
    else s
  s.grnEdge p t on

/-- The next output change of a pair: its instant, and the edge that makes it, with whether it was delayed and what stands
behind it; none for an output that has waited for its dead time (R245, R246). -/
def State.nextChange (s : State) (p : Fin 32) : Option (Nat × Option (Edge × Bool × List Edge)) :=
  let q := s.pair[p]
  match nextEdge (s.on (GOU_PAIR_STAT.HCMD p)) q.edges.length q.edges with
  | none => q.owed.map (fun o => (o.1, none))
  | some (e, rest) =>
    let (t, moved) := s.adjustEdge p q.lastT e
    match q.owed with
    | some o => if o.1 < t then some (o.1, none) else some (t, some (e, moved, rest))
    | none => some (t, some (e, moved, rest))

/-- The next output change of pair `p` is made, if its instant lies in the present cycle or before; the answer says
whether it was. -/
def State.placeOne (s : State) (p : Fin 32) : Bool × State :=
  match s.nextChange p with
  | none => (false, s)
  | some (t, c) =>
    if s.now < t / 16 then (false, s)
    else match c with
      | some (e, moved, rest) =>
        let s := s.modPair p (fun q => { q with edges := rest })
        (true, (if moved then s.raise (GOU_PAIR_STAT.MINSTR p) else s).commandChange p t e.lvl)
      | none => (true, match (s.pair[p]).owed with
        | some o => s.activate p o.1 o.2
        | none => s)

/-- Every output change of the present cycle is made, in instant order (R247); `k` bounds them. -/
def State.placeLoop (p : Fin 32) : Nat → State → State
  | 0, s => s
  | k + 1, s =>
    let r := s.placeOne p
    if r.1 then State.placeLoop p k r.2 else r.2

def State.placeCycle (s : State) (p : Fin 32) : State :=
  let q := s.pair[p]
  if q.edges.isEmpty && q.owed.isNone then s else State.placeLoop p (2 * q.edges.length + 2) s

/-! ### Crossings -/

/-- What a crossing of a pair is: a latch angle or an edge (R251, R252, R255). -/
inductive CrossKind
  | start | half | edge (lvl : Bool) (base : Bool)
  deriving DecidableEq, Repr

/-- Order crossings by distance, keeping the given order among equals. -/
def orderCrossings (l : List (Nat × CrossKind)) : List (Nat × CrossKind) :=
  sortBy (fun a b => decide (a.1 < b.1)) l

/-- The pair is scanned (R249). -/
def State.pairScans (s : State) (p : Fin 32) : Bool :=
  let n := s.pairTrack p
  let t := s.trk[n]
  s.fastUp && s.runs blkGOU && s.pairState p == pRun && s.trkEn n && t.valid && !t.lost

/-- Duty in force as an integer from 0 to 2^30 (R251). -/
def dutyOf (w : Word) : Nat := (clampInt 0 (2 ^ 30) w.toInt).toNat

/-- An edge of carrier mode is dropped (R253): `v` is the carrier's speed in Q32.16. -/
def State.dropsEdge (s : State) (p : Fin 32) (lvl : Bool) (d v : Nat) : Bool :=
  if lvl then d == 0 || decide (4 * d * 1048576 < s.get (GOU_PAIR_MINON.TIME p) * v)
  else d == 2 ^ 30 || decide ((2 ^ 32 - 4 * d) * 1048576 < s.get (GOU_PAIR_MINOFF.TIME p) * v)

/-- The crossings of one scan in order, with instant and position, and the frontier behind the last of them: `f0` is the
frontier before them, `pos` the position, `v` the velocity, `hz` the horizon. -/
def pairLoop (rev : Bool) (f0 pos : BitVec 48) (v : Int) (hz now : Nat) :
    List (Nat × CrossKind) → List (Nat × CrossKind × BitVec 48) × BitVec 48
  | [] => ([], f0)
  | (d, k) :: l =>
    let x := posAhead rev f0 d
    match crossAt rev x pos v hz now with
    | none => ([], f0)
    | some (t, _) =>
      let (r, f) := pairLoop rev f0 pos v hz now l
      ((t, k, x) :: r, if r.isEmpty then x else f)

/-- The frontier after a scan: never behind the position (R146). -/
def frontierAfter (rev : Bool) (f pos : BitVec 48) : BitVec 48 :=
  if (if rev then posGt f pos else posGt pos f) then pos else f

/-- The committed crossings of a carrier period from the frontier on, with ALIGN and UPD in force (R251, R252): the duty
in force, and what `pairLoop` gives. -/
def State.carrierItems (s : State) (p : Fin 32) (rev : Bool) (pos : BitVec 48) (v : Int) :
    Nat × Word × (List (Nat × CrossKind × BitVec 48) × BitVec 48) :=
  let q := s.pair[p]
  let f0 := q.frontier
  let sAng : Word := if q.align then 0 else 0x80000000#32
  let ds := aheadOf rev f0 sAng
  let dh := aheadOf rev f0 (sAng + 0x80000000#32)
  let commits (d : Nat) : Bool := (crossAt rev (posAhead rev f0 d) pos v 2 s.now).isSome
  let held := s.rd (GOU_PAIR_WORD.adr p)
  let latched := if (q.upd = 1 ∧ commits ds) ∨ (2 ≤ q.upd ∧ (commits ds ∨ commits dh)) then held else q.duty
  let d := dutyOf (if q.upd = 0 then held else latched)
  let onA : Word := if q.align then 0 else BitVec.ofInt 32 (2 ^ 32 - 2 * (d : Int))
  let offA : Word := if q.align then BitVec.ofNat 32 (4 * d) else BitVec.ofNat 32 (2 * d)
  (d, latched, pairLoop rev f0 pos v 2 s.now (orderCrossings [(ds, .start), (dh, .half),
    (aheadOf rev f0 onA, .edge true false), (aheadOf rev f0 offA, .edge false false)]))

/-- The crossings up to that of the period start S, if there is one. -/
def upToStart : List (Nat × CrossKind × BitVec 48) → Option (List (Nat × CrossKind × BitVec 48) × BitVec 48)
  | [] => none
  | x :: l =>
    if x.2.1 = .start then some ([x], x.2.2) else (upToStart l).map (fun r => (x :: r.1, r.2))

/-- Commit the crossings of a carrier scan (R253, R272). -/
def State.carrierCommit (s : State) (p : Fin 32) (rev : Bool) (v d : Nat)
    (l : List (Nat × CrossKind × BitVec 48)) : State :=
  l.foldl (fun s x => match x.2.1 with
    | .start => s.signal (0x160 + p)
    | .half => s
    | .edge lvl _ =>
      if s.dropsEdge p lvl d v then s else s.addEdges p [{ t := x.1, lvl := lvl != rev }]) s

/-- A carrier-mode scan (R249 to R253, R272). A change of ALIGN or UPD takes effect at the crossing of S that ends the
period under way (R86), from which the scan goes on; `k` bounds those. -/
def State.carrierScan (p : Fin 32) (tr : Fin 16) : Nat → State → State
  | 0, s => s
  | k + 1, s =>
    let t := s.trk[tr]
    let v := t.ovel.toInt
    let pos := s.phi p
    let (d, latched, done, f) := s.carrierItems p t.rev pos v
    let s := s.modPair p (fun q => { q with duty := latched })
    let al := s.on (GOU_PAIR_CFG.ALIGN p)
    let up := s.get (GOU_PAIR_CFG.UPD p)
    let now := s.pair[p]
    match (if now.align = al ∧ now.upd = up then none else upToStart done) with
    | some (part, f1) =>
      State.carrierScan p tr k ((s.carrierCommit p t.rev v.natAbs d part).modPair p (fun q => { q with
        frontier := f1, align := al, upd := up }))
    | none =>
      (s.carrierCommit p t.rev v.natAbs d done).modPair p (fun q => { q with
        frontier := frontierAfter t.rev f pos })

/-- The address of pattern entry `i` (R254). -/
def patAddr (i : Nat) : Nat := 0x30408000 + 4 * (i % 4096)

/-- The pattern entries of pair `p`, with their distances (R254, R255); one that cannot be read is dropped (R333). -/
def State.patternItems (s : State) (p : Fin 32) (rev : Bool) (f0 : BitVec 48) :
    List (Nat × CrossKind) :=
  let n := s.get (GOU_PAIR_PAT.LEN p)
  let n := if n = 0 ∨ 4096 < n then 4096 else n
  let base := s.get (GOU_PAIR_PAT.BASE p)
  (List.range n).filterMap (fun k =>
    if s.spoilt (patAddr (base + k)) then none
    else
      let w := s.rd (patAddr (base + k))
      some (aheadOf rev f0 (w &&& 0xFFFFFFFE#32), .edge (w.getLsbD 0) (k == 0)))

/-- The reads of the pattern entries of pair `p` (R333). -/
def State.patternReads (s : State) (p : Fin 32) : State :=
  if s.upset.isEmpty then s
  else (List.range 4096).foldl (fun (s : State) (k : Nat) =>
    if k < s.get (GOU_PAIR_PAT.LEN p) ∨ s.get (GOU_PAIR_PAT.LEN p) = 0 then
      s.eccRead (patAddr (s.get (GOU_PAIR_PAT.BASE p) + k))
    else s) s

/-- A pattern-mode scan (R249, R254 to R256, R272). -/
def State.patternScan (s : State) (p : Fin 32) (tr : Fin 16) : State :=
  let s := s.patternReads p
  let t := s.trk[tr]
  let rev := t.rev
  let q := s.pair[p]
  let pos := s.phi p
  let lead := s.get (GOU_PAIR_CFG.LEAD p)
  let fresh := decide (q.trimAt = some s.now)
  let trim := (if fresh then q.trimPrev else s.rd (GOU_PAIR_TRIM.adr p)).toInt
  let lim := clampInt (-(16 * lead)) 32767 trim
  let (done, f) := pairLoop rev q.frontier pos t.ovel.toInt (2 + lead) s.now
    (orderCrossings (s.patternItems p rev q.frontier))
  let s := s.modPair p (fun q => { q with frontier := frontierAfter rev f pos })
  if done.isEmpty then s
  else
    let s := if lim = trim then s else s.raise (GOU_PAIR_STAT.TRIMLIM p)
    let first := 16 * (s.now + 1)
    let s := done.foldl (fun s x => match x.2.1 with
      | .edge lvl base =>
        let s := s.addEdges p [{ t := max first ((x.1 : Int) + lim).toNat, lvl := lvl != rev }]
        if base then s.signal (0x160 + p) else s
      | _ => s) s
    if !s.on (GOU_PAIR_CFG.TCONS p) then s
    else if fresh then s.modPair p (fun q => { q with trimPrev := 0 })
    else s.wr (GOU_PAIR_TRIM.adr p) 0

/-- `PAIR_CROSSING_COMMIT`: the scan of pair `p` in the present cycle, which is made once in each cycle (R249). In carrier
mode a track that is no clock track sets CARERR in every cycle (R250). -/
def State.pairScan (s : State) (p : Fin 32) : State :=
  if (s.pair[p]).scanned = some s.now then s
  else
    let now := s.now
    let n := s.pairTrack p
    let m := s.gMode p
    if m = gmCarrier ∧ s.trkType n ≠ 0 then
      (if s.fastUp && s.runs blkGOU then s.raise (GOU_PAIR_STAT.CARERR p) else s)
    else if s.pairScans p then
      let s := s.modPair p (fun q => { q with scanned := some now })
      if m = gmCarrier then State.carrierScan p n 2 s else if m = gmPattern then s.patternScan p n else s
    else s

/-! ### Direct mode -/

/-- The timed-edge tasks of one cycle reach pair `p` (R258 to R260, R281). -/
def State.pulseTasks (s : State) (p : Fin 32) (l : List Arrival) : State :=
  if !s.runs blkGOU then s.taskLost (0x68 + p)
  else if s.pairState p ≠ pRun then s
  else if s.gMode p ≠ gmDirect then s.raise (GOU_PAIR_STAT.TASKIGN p)
  else
    let s := if laterInsts l = 0 then s else (s.raise (GOU_PAIR_STAT.STARTOVR p)).taskLost (0x68 + p)
    s.pulseStart p (earliestInst l) true

/-! ### The peak terminator -/

/-- A terminator acts on a result with instant `inst` (R219): its window is open, or a scheduled turn-off has closed it
since. -/
def Term.hits (m : Term) (q : PairSt) (inst : Nat) : Bool :=
  (match m.onAt with
   | some on => decide (on + 16 * m.blank ≤ inst) && !(q.edges.any (fun e => !e.lvl && decide (e.t ≤ inst)))
   | none => false) ||
  m.past.any (fun w => decide (w.1 + 16 * m.blank ≤ inst ∧ inst < w.2))

/-- A result with instant `inst` and value `val` reaches port `k` of slice `n`: every terminator of a pair in carrier or
direct mode that watches it may act (R219, R259). -/
def State.terminators (s : State) (n k : Nat) (val : Int) (inst : Nat) : State :=
  (List.finRange 32).foldl (fun s (p : Fin 32) =>
    let q := s.pair[p]
    match q.term with
    | some m =>
      if m.slice = n ∧ m.port = k ∧ s.gMode p ≠ gmPattern ∧ m.ref.toInt ≤ val ∧ m.hits q inst then
        let off := 16 * (inst / 16 + 17)
        let l := if m.onAt.isNone then q.edges
          else match moveOff (fun t => min t off) q.edges with
            | some l => l
            | none => q.edges ++ [{ t := off, lvl := false }]
        (s.modPair p (fun q => { q with edges := l, term := none })).signal (0x0E0 + 6 * n + 5)
      else s
    | none => s) s

/-! ### The balls -/

/-- The level of gate output `k`, as the ball shows it. Until the fast domain leaves reset the outputs are inactive at
the polarity of the strap (R240, R241). -/
def State.gateLevel (s : State) (k : Fin 64) : Bool :=
  if (s.dom[(0 : Fin 3)]).level = 5 then s.ao.gpol
  else
    let q := s.pair[(⟨k / 2, by omega⟩ : Fin 32)]
    let act := if (k : Nat) % 2 = 0 then q.hi else q.lo
    let pol := if (k : Nat) < 32 then (s.rd GOU_POL_LO.adr).getLsbD k else (s.rd GOU_POL_HI.adr).getLsbD (k - 32)
    act != pol

/-- What the pairs still have to do in the present cycle: scans, then output changes (R247, R249). -/
def State.pairCycle (s : State) : State :=
  if s.fastUp then
    let s := (List.finRange 32).foldl (fun s (p : Fin 32) => s.pairScan p) s
    (List.finRange 32).foldl (fun s (p : Fin 32) => s.placeCycle p) s
  else s

end Sys2Proof.Machine
end

