-- ==== Sys2Proof/Machine/Sampling.lean ====
section
/-!
DEFINITION. Machine/Sampling.lean: channel selection and sampling of the converters (05, R171 to R180).
-/
namespace Sys2Proof.Machine

/-- Update converter `n`. -/
def State.modCv (s : State) (n : Fin 24) (f : CvSt → CvSt) : State :=
  { s with cv := s.cv.set n (f s.cv[n]) }

/-- The converter is enabled: EN is 1 and the block's clock enable is set (R188). -/
def State.cvEn (s : State) (n : Nat) : Bool := s.takes blkCNV && s.on (CV_CFG.EN n)

/-- CH changes: the channel holds from the next cycle (R177). -/
def State.setCh (s : State) (n : Fin 24) (ch : Nat) : State :=
  let old := s.get (CV_SEL.CH n)
  let s := if (s.cv[n]).chAt = some s.now then s
    else s.modCv n (fun c => { c with chPrev := old, chAt := some s.now })
  s.set (CV_SEL.CH n) ch

/-- The channel that a sample of the present cycle converts (R177). -/
def State.chNow (s : State) (n : Fin 24) : Nat :=
  if (s.cv[n]).chAt = some s.now then (s.cv[n]).chPrev else s.get (CV_SEL.CH n)

/-- The sequence length LEN (05, `CVn_SEQ`) and entry `j` (R179). -/
def State.seqLen (s : State) (n : Nat) : Nat :=
  if s.get (CV_SEQ.LEN n) = 0 then 8 else s.get (CV_SEQ.LEN n)
def State.seqEntry (s : State) (n j : Nat) : Nat := s.get (CV_SEQ.ENTRY n) / 2 ^ (3 * j) % 8

/-- A step task or an automatic step (R179, R180). -/
def State.cvAdvance (s : State) (n : Fin 24) : State :=
  let c := s.cv[n]
  if c.rewound = some s.now ∨ c.advanced = some s.now then s
  else
    let pos := s.get (CV_STAT.POS n)
    let s := s.modCv n (fun c => { c with advanced := some s.now })
    let s := if c.selWritten = some s.now then s.raise (CV_STAT.SELCOL n)
      else s.setCh n (s.seqEntry n pos)
    s.set (CV_STAT.POS n) ((pos + 1) % s.seqLen n)

/-- A rewind of the sequence (R179, R180). -/
def State.cvRewind (s : State) (n : Fin 24) : State :=
  let c := s.cv[n]
  let s := s.modCv n (fun c => { c with rewound := some s.now })
  let s := if c.selWritten = some s.now then s.raise (CV_STAT.SELCOL n)
    else s.setCh n (s.seqEntry n 0)
  s.set (CV_STAT.POS n) (1 % s.seqLen n)

/-- A core write of `CVn_SEL` (R180). -/
def State.cvSelect (s : State) (n : Fin 24) (ch : Nat) : State :=
  let c := s.cv[n]
  let s := (s.setCh n ch).modCv n (fun c => { c with selWritten := some s.now })
  if c.rewound = some s.now ∨ c.advanced = some s.now then s.raise (CV_STAT.SELCOL n) else s

/-- A partial averaging set is discarded (R186, R188). -/
def State.cvSetBreak (s : State) (n : Fin 24) : State :=
  s.modCv n (fun c => { c with sum := 0, sumN := 0 })

/-- The analogue input that channel `c` of converter `n` connects to: the input multiplexer (R176). -/
def ainOf (n c : Nat) : Nat :=
  let k := n / 2
  if c < 4 then 4 * k + c
  else if c < 6 then 4 * ((k + 1) % 12) + (c - 4) + (if n % 2 = 0 then 0 else 2)
  else if c = 6 then 48 + n % 16
  else 48 + (n + 8) % 16

/-- The code that a converter gives at GAIN `g` for an input in eighths of a code at ×1 (R181, R631): the limiting code
for an input beyond the range. A fraction of a code is dropped (DESIGN CHOICE: the spec gives no rounding). -/
def gainCode (g : Nat) (input : Int) : Int := clampInt (-2048) 2047 (input * 2 ^ g / 8)

/-- A sample at instant `inst` of the present cycle (R171, R176, R177, R179). -/
def State.cvTake (s : State) (n : Fin 24) (inst : Nat) : State :=
  let ch := s.chNow n
  let x : Sample := { inst := inst, tag := ch, ain := ainOf n ch, gain := s.get (CV_CFG.GAIN n),
                      trim := s.getInt (CV_TRIM.OFFS n), tail := false }
  let s := s.modCv n (fun c => { c with flight := c.flight ++ [x] })
  if s.on (CV_SEQ.AUTO n) then s.cvAdvance n else s

/-- Samples at the given instants: those of the present cycle are taken, later ones become due. -/
def State.cvTakeAt (s : State) (n : Fin 24) (insts : List Nat) : State :=
  insts.foldl (fun (s : State) (t : Nat) =>
    if t / 16 ≤ s.now then s.cvTake n t
    else { s with dues := s.dues ++ [{ cycle := t / 16, act := .sample n t }] }) s

/-- A sampling task reaches an enabled, task-started converter with the instant at which it acts
(R171, R172). -/
def State.cvTask (s : State) (n : Fin 24) (t : Nat) : State :=
  let c := s.cv[n]
  if c.busyFrom ≤ t ∧ t < c.busyTo then (s.raise (CV_STAT.TASKOVR n)).taskLost n
  else
    let b := s.get (CV_CFG.BURST n)
    (s.modCv n (fun c => { c with busyFrom := t, busyTo := t + 32 * (b + 1) })).cvTakeAt n
      ((List.range (b + 1)).map (fun j => t + 32 * j))

/-- The instant at which a sampling task acts that arrived in `cycle` with `inst`, and whether it came
late (R173). -/
def sampleAt (inst : Option Nat) (cycle : Nat) : Nat × Bool :=
  match inst with
  | none => (16 * (cycle + 1), false)
  | some t => if t / 16 < cycle then (16 * (cycle + 1), true) else (t, false)

/-- A task reaches a converter that discards it (R188, R282). -/
def State.cvTaskOff (s : State) (n : Fin 24) (task : Nat) : State :=
  (if s.runs blkCNV then s.raise (CV_STAT.TASKOFF n) else s).taskLost task

/-- The sampling tasks of one cycle reach converter `n` (R170 to R173, R188): each instant once, the earliest first. -/
def State.cvSampleTasks (s : State) (n : Fin 24) (l : List Arrival) : State :=
  if !s.cvEn n then s.cvTaskOff n n
  else if s.on (CV_CFG.MODE n) then (s.raise (CV_STAT.TASKOVR n)).taskLost n
  else
    let acts := l.map (fun a => sampleAt a.inst a.cycle)
    let s := if acts.any (·.2) then s.raise (CV_STAT.LATE n) else s
    (sortBy (fun x y => decide (x < y)) (acts.map (·.1)).eraseDups).foldl (fun (s : State) (t : Nat) => s.cvTask n t) s

/-- A step or rewind task reaches converter `n` (R179, R186, R188). -/
def State.cvSeqTask (s : State) (n : Fin 24) (rew : Bool) : State :=
  if !s.cvEn n then s.cvTaskOff n ((if rew then 0x30 else 0x18) + (n : Nat))
  else if rew then (s.cvRewind n).cvSetBreak n else s.cvAdvance n

/-- Cycle `c` is a sampling cycle of the free-running converters: its number, counted from the first loop cycle after
the fast domain left reset, is even (R170). -/
def State.evenPhase (s : State) (c : Nat) : Bool := decide ((c - s.fastFrom) % 2 = 0)

/-- A free-running converter samples at the start of the present cycle, if that is a sampling cycle; once (R170). -/
def State.cvFreeNow (s : State) (n : Fin 24) : State :=
  if s.cvEn n && s.on (CV_CFG.MODE n) && s.evenPhase s.now && decide ((s.cv[n]).lastFree ≠ some s.now) then
    (s.modCv n (fun c => { c with lastFree := some s.now })).cvTake n s.now16
  else s

/-- Converter `n` stops: it takes no sample from the next cycle, and those in flight are delivered as
TAIL (R187, R188). -/
def State.cvStop (s : State) (n : Fin 24) : State :=
  let s := s.modCv n (fun c => { c with
    flight := c.flight.map (fun x => { x with tail := true }), sum := 0, sumN := 0, busyFrom := 0,
    busyTo := 0 })
  { s with dues := s.dues.filter (fun d => match d.act with
    | .sample k _ => k != n
    | _ => true) }

/-- `CVn_STAT.RUN` (R187). -/
def State.cvRun (s : State) (n : Fin 24) : Bool := s.cvEn n || !(s.cv[n]).flight.isEmpty

end Sys2Proof.Machine
end

