-- ==== Sys2Proof/Machine/SliceOps.lean ====
section
/-!
DEFINITION. Machine/SliceOps.lean: the arithmetic and the micro-ops of a loop slice (06, R209 to R224).
Values are Q1.30 integers.
-/
namespace Sys2Proof.Machine

/-! ### Q1.30 arithmetic (R209) -/

/-- A value with a mark of saturation on the way to it. -/
structure Q where
  v : Int
  sat : Bool
  deriving DecidableEq, Repr

/-- Saturate to 32 bits. -/
def qOf (x : Int) : Q := { v := satInt 32 x, sat := satHit 32 x }

def Q.add (a b : Q) : Q := let r := qOf (a.v + b.v); { r with sat := r.sat || a.sat || b.sat }
def Q.sub (a b : Q) : Q := let r := qOf (a.v - b.v); { r with sat := r.sat || a.sat || b.sat }
def Q.neg (a : Q) : Q := let r := qOf (-a.v); { r with sat := r.sat || a.sat }
def Q.mul (a b : Q) : Q :=
  let r := qOf (roundDiv (a.v * b.v) (2 ^ 30))
  { r with sat := r.sat || a.sat || b.sat }
/-- Quotient by a positive integer. -/
def Q.over (a : Q) (d : Int) : Q := { a with v := roundDiv a.v d }
/-- Quotient of two values, the second positive. -/
def Q.div (a b : Q) : Q :=
  let r := qOf (roundDiv (a.v * 2 ^ 30) b.v)
  { r with sat := r.sat || a.sat || b.sat }
/-- Square root of a value at or above 0. -/
def Q.sqrt (a : Q) : Q := { a with v := roundSqrt (a.v.toNat * 2 ^ 30) }

/-- Rounded `|x| · √(p/q)` with the sign of `x`; the root is irrational, so that no tie arises. -/
def timesRoot (x : Int) (p q : Nat) : Int :=
  let r : Int := ((isqrt (4 * p * x.natAbs * x.natAbs / q) + 1) / 2 : Nat)
  if x < 0 then -r else r

/-- Quotient by √3 and product with √3/2. -/
def Q.overRoot3 (a : Q) : Q := { a with v := timesRoot a.v 1 3 }
def Q.timesHalfRoot3 (a : Q) : Q := { a with v := timesRoot a.v 3 4 }

/-- A coordinate of a rotation by the angle `c`: `A cos ± B sin` to within 2^-26 (R210); `u` and `w` are
its factors of cosine and sine. -/
def rotate (choice : Nat) (u w : Int) (c : Word) : Q :=
  let (sn, cs) := sinCosAu c.toNat
  let x := u * cs + w * sn
  let lo := -((-(x - 16 * 2 ^ 64)) / 2 ^ 64)
  let hi := (x + 16 * 2 ^ 64) / 2 ^ 64
  qOf (lo + (choice : Int) % (hi - lo + 1))

/-! ### A run -/

/-- Working register `i`; those beyond w15 read as zero (R213). -/
def Run.wd (r : Run) (i : Nat) : Word := if h : i < 16 then r.w[i] else 0

/-- Operand code `k` as its 32-bit pattern (R212). -/
def Run.operand (r : Run) (k : Nat) : Word :=
  if h : k < 16 then r.w[k]
  else if h : k - 16 < 4 then BitVec.ofInt 32 (r.ins[k - 16])
  else if k = 20 then r.thetaS
  else if k = 21 then r.thetaA
  else if k = 22 then r.omega
  else 0

def Run.q (r : Run) (k : Nat) : Q := { v := (r.operand k).toInt, sat := false }

/-- Parameter `x`, modulo 32 (R214). -/
def Run.par (r : Run) (x : Nat) : Word := r.pars.getD (x % 32) 0
def Run.parQ (r : Run) (x : Nat) : Q := { v := (r.par x).toInt, sat := false }

/-- The present micro-op writes a compared value (R232). -/
def Run.writes (r : Run) : Run := { r with wrote := true }

/-- Write `wD` (R213); a result beyond w15 is discarded. -/
def Run.put (r : Run) (d : Nat) (x : Q) : Run :=
  let r := { r with sat := r.sat || x.sat }
  if h : d < 16 then { r with w := r.w.set d (BitVec.ofInt 32 x.v) }.writes else r

/-- Write results to wD, wD+1 and so on; nothing when D is 16 or more. -/
def Run.putAll (r : Run) (d : Nat) : List Q → Run
  | [] => r
  | x :: l => Run.putAll (r.put d x) (if d < 16 then d + 1 else d) l

/-- LIM is set. -/
def Run.limit (r : Run) : Run := { r with lim := true }

def qMin (a b : Q) : Q := { v := min a.v b.v, sat := a.sat || b.sat }
def qMax (a b : Q) : Q := { v := max a.v b.v, sat := a.sat || b.sat }

/-- `PI` (R215). -/
def Run.pi (r : Run) (d a p k : Nat) : Run :=
  let e := (r.parQ p).sub (r.q a)
  let up := (r.parQ (p + 1)).mul e
  let di := (r.parQ (p + 2)).mul e
  let lo := r.parQ (p + 3)
  let hi := r.parQ (p + 4)
  let i : Q := { v := r.ints.getD k 0, sat := false }
  let it := i.add di
  let u := up.add it
  let halt := (hi.v < u.v ∧ 0 < di.v) ∨ (u.v < lo.v ∧ di.v < 0)
  let it' := if halt then i else it
  let u' := if halt then up.add i else u
  let r := { r with
    ints := r.ints.set k (min (max it'.v lo.v) hi.v),
    sat := r.sat || e.sat || up.sat || di.sat || it.sat || u.sat || u'.sat }
  let r := if u'.v < lo.v ∨ hi.v < u'.v then r.limit else r
  r.writes.put d { v := min (max u'.v lo.v) hi.v, sat := false }

/-- The sign of a value. -/
def signOf (x : Int) : Int := if x < 0 then -1 else if x = 0 then 0 else 1

/-- `LIMC` (R216). -/
def Run.limc (r : Run) (d p : Nat) (dfirst : Bool) : Run :=
  let x : Q := { v := (if d < 16 then r.wd d else 0 : Word).toInt, sat := false }
  let y : Q := { v := (if d < 16 then r.wd (d + 1) else 0 : Word).toInt, sat := false }
  let m := ((x.mul x).add (y.mul y)).sqrt
  let vmax : Q := { v := max 0 (r.par p).toInt, sat := false }
  let r := { r with sat := r.sat || m.sat }
  if m.v ≤ vmax.v then r
  else
    let r := r.limit
    if dfirst then
      let x' : Q := { x with v := min (max x.v (-vmax.v)) vmax.v }
      let root := ((vmax.mul vmax).sub (x'.mul x')).sqrt
      r.putAll d [x', { root with v := signOf y.v * root.v }]
    else
      let k := vmax.div { m with sat := false }
      r.putAll d [x.mul k, y.mul k]

/-- The three phase values of (A, B) (R217). -/
def phases (a b : Q) : Q × Q × Q :=
  let h := (a.over 2).neg
  (a, h.add b.timesHalfRoot3, h.sub b.timesHalfRoot3)

/-- `SVM` (R217). -/
def Run.svm (r : Run) (d a b p : Nat) : Run :=
  let (va, vb, vc) := phases (r.q a) (r.q b)
  let off := ((qMax va (qMax vb vc)).add (qMin va (qMin vb vc))).over 2
  let half : Q := { v := 2 ^ 29, sat := false }
  let raw := [va, vb, vc].map (fun v => half.add ((r.parQ p).mul (v.sub off)))
  let r := if raw.any (fun x => decide (x.v < 0) || decide (2 ^ 30 < x.v)) then r.limit else r
  r.putAll d (raw.map (fun x => { x with v := min (max x.v 0) (2 ^ 30) }))

/-- `ACM` (R218). -/
def Run.acm (r : Run) (d p k : Nat) : Run :=
  let (sum, cnt) := r.sums[(⟨k % 4, Nat.mod_lt _ (by decide)⟩ : Fin 4)]
  let mean := if cnt = 0 then qOf 0 else qOf (roundDiv sum cnt)
  { r with skew := decide (cnt = 0) }.put d ((r.parQ p).sub mean)

/-- `EDGE` (R221): a later word for a slot replaces an earlier one. -/
def Run.edge (r : Run) (a slot m : Nat) : Run :=
  let kind := m % 4
  let n := m / 4 % 4 + 1
  (List.range n).foldl (fun (r : Run) (j : Nat) =>
    let x : Word := if a + j < 32 then r.operand (a + j) else 0
    let x : Word := if kind = 0 then BitVec.ofInt 32 (min (max x.toInt 0) (2 ^ 30)) else x
    if slot + j < 4 ∧ kind ≠ 3 then
      { r with cset := { r.cset with
        edges := r.cset.edges.filter (fun e => e.slot != slot + j) ++ [⟨slot + j, kind, x⟩] } }
    else r) r

/-- The operation code and the cost in lc of a micro-op (R211, R214); a reserved one costs 1. -/
def opOf (w0 : Word) : Nat := fieldOf w0 31 26

def opCost (w0 : Word) : Nat :=
  let o := opOf w0
  if o = 0x12 ∨ o = 0x13 then 4
  else if o = 0x16 then 3
  else if o = 0x14 ∨ o = 0x15 ∨ o = 0x17 ∨ o = 0x18 ∨ o = 0x3F then 2
  else 1

/-- A micro-op begins: nothing of what it does has happened. -/
def Run.clear (r : Run) : Run :=
  { r with sat := false, lim := false, badOp := false, skew := false, wrote := false }

/-- The commit set holds a word (R232). -/
def CommitSet.any (c : CommitSet) : Bool :=
  !c.edges.isEmpty || !c.terms.isEmpty || !c.outs.isEmpty || c.obs.isSome

/-- One micro-op with its words (R211, R214). -/
def Run.op (r : Run) (w0 w1 : Word) : Run :=
  let d := fieldOf w0 25 21
  let a := fieldOf w0 20 16
  let b := fieldOf w0 15 11
  let c := fieldOf w0 10 6
  let p := fieldOf w1 31 27
  let k := fieldOf w1 26 24
  let m := fieldOf w1 23 16
  let old (i : Nat) : Q := { v := (if d < 16 then r.wd (d + i) else 0 : Word).toInt, sat := false }
  let r := r.clear
  match opOf w0 with
  | 0x00 => r
  | 0x01 => r.put d (r.q a)
  | 0x02 => r.put d ((r.q a).add (r.q b))
  | 0x03 => r.put d ((r.q a).sub (r.q b))
  | 0x04 => r.put d ((r.q a).mul (r.q b))
  | 0x05 => r.put d ((old 0).add ((r.q a).mul (r.q b)))
  | 0x06 => r.put d (r.parQ p)
  | 0x07 => r.put d ((r.q a).add (r.parQ p))
  | 0x08 => r.put d ((r.q a).mul (r.parQ p))
  | 0x09 => r.put d (qMin (qMax (r.q a) (r.parQ p)) (r.parQ (p + 1)))
  | 0x0A => r.put d (if 0 ≤ (r.q c).v then r.q a else r.q b)
  | 0x10 =>
    let two : Q := { v := 2, sat := false }
    let dbl (x : Q) : Q := qOf (two.v * x.v)
    if m % 2 = 0 then r.putAll d [r.q a, ((r.q a).add (dbl (r.q b))).overRoot3]
    else r.putAll d [(((dbl (r.q a)).sub (r.q b)).sub (r.q c)).over 3,
      ((r.q b).sub (r.q c)).overRoot3]
  | 0x11 =>
    let (x, y, z) := phases (r.q a) (r.q b)
    r.putAll d [x, y, z]
  | 0x12 =>
    let g := r.operand c
    r.putAll d
      [rotate (Config.cordic 0 false (r.operand a) (r.operand b) g) (r.q a).v (r.q b).v g,
       rotate (Config.cordic 1 false (r.operand a) (r.operand b) g) (r.q b).v (-(r.q a).v) g]
  | 0x13 =>
    let g := r.operand c
    r.putAll d
      [rotate (Config.cordic 0 true (r.operand a) (r.operand b) g) (r.q a).v (-(r.q b).v) g,
       rotate (Config.cordic 1 true (r.operand a) (r.operand b) g) (r.q b).v (r.q a).v g]
  | 0x14 => r.pi d a p k
  | 0x15 =>
    r.putAll d
      [(old 0).sub (((r.q c).mul (r.parQ p)).mul (r.q b)),
       (old 1).add ((r.q c).mul (((r.parQ (p + 1)).mul (r.q a)).add (r.parQ (p + 2))))]
  | 0x16 => r.limc d p (m % 2 == 1)
  | 0x17 => r.svm d a b p
  | 0x18 => r.acm d p m
  | 0x19 =>
    { r with cset := { r.cset with terms := r.cset.terms.filter (fun t => t.slot != k) ++
        [{ slot := k, ref := r.operand a, port := m % 4, blank := (r.par p).toNat % 65536 }] } }
  | 0x1A =>
    let x := ((r.q a).mul (r.q b)).mul (r.parQ p)
    { r with energy := r.energy + BitVec.ofInt 64 x.v, sat := r.sat || x.sat }.writes
  | 0x1B =>
    { r with cset := { r.cset with outs := r.cset.outs.filter (fun o => o.1 != k % 4) ++
        [(k % 4, r.operand a)] } }
  | 0x1C =>
    { r with cset := { r.cset with obs := some (r.operand a, r.operand b, r.operand c) } }
  | 0x1D => r.edge a k m
  | 0x3F => { r with done := true, wrote := r.cset.any }
  | _ => { r with badOp := true }

/-- The cost of a program up to the end of its `COMMIT`, or of its last micro-op (R200). -/
def progCost : List (Word × Word) → Nat
  | [] => 0
  | x :: l => opCost x.1 + (if opOf x.1 = 0x3F then 0 else progCost l)

end Sys2Proof.Machine
end

