-- ==== Sys2Proof/Machine/Runs.lean ====
section
/-!
DEFINITION. Machine/Runs.lean: the loop slices (06) in one loop cycle: triggers, ports, the micro-ops of a run, the
transfer of its commit set, twin mismatch, stop.
-/
namespace Sys2Proof.Machine

/-- Update slice `n`. -/
def State.modSlc (s : State) (n : Fin 16) (f : SliceSt → SliceSt) : State :=
  { s with slc := s.slc.set n (f s.slc[n]) }

/-- The pair in slot `j` of slice `n`, if the slot is valid. -/
def State.slotPair (s : State) (n j : Nat) : Option (Fin 32) :=
  if j = 0 then if s.on (SLC_PAIRS.V0 n) then some (Fin.ofNat 32 (s.get (SLC_PAIRS.PAIR0 n))) else none
  else if j = 1 then if s.on (SLC_PAIRS.V1 n) then some (Fin.ofNat 32 (s.get (SLC_PAIRS.PAIR1 n))) else none
  else if j = 2 then if s.on (SLC_PAIRS.V2 n) then some (Fin.ofNat 32 (s.get (SLC_PAIRS.PAIR2 n))) else none
  else if j = 3 then if s.on (SLC_PAIRS.V3 n) then some (Fin.ofNat 32 (s.get (SLC_PAIRS.PAIR3 n))) else none
  else none

/-- The pairs that slice `n` names. -/
def State.slcPairs (s : State) (n : Nat) : List (Fin 32) :=
  ((List.range 4).filterMap (s.slotPair n)).eraseDups

/-- An enabled slice below `n` names pair `p` (R224). -/
def State.ownedBelow (s : State) (n p : Nat) : Bool :=
  (List.range n).any (fun k => s.on (SLC_CTRL.EN k) && s.sliceNames k p)

/-! ### Triggers (R201 to R203) -/

def State.slcMode (s : State) (n : Nat) : Nat := s.get (SLC_TRIG.MODE n)

/-- PER as it acts (R203). -/
def State.slcPer (s : State) (n : Nat) : Nat := max 625 (s.get (SLC_PER.PER n))

/-- The period timer starts in the present cycle (R203). -/
def State.timerStart (s : State) (n : Fin 16) : State :=
  s.modSlc n (fun x => { x with timerFrom := s.now, timerPer := s.slcPer n })

/-- A trigger in the present cycle would start a run (R202, R234, R237). -/
def State.trigOk (s : State) (n : Fin 16) : Bool :=
  let x := s.slc[n]
  s.takes blkSLC && s.on (SLC_CTRL.EN n) && !s.on (SLC_STAT.TWIN n) && decide (x.opens ≤ s.now) && x.run.isNone &&
    (match x.lastStart with
     | none => true
     | some c => decide (c + 625 ≤ s.now) && decide (x.periodEnd < s.now))

/-- A trigger is dropped (R202). -/
def State.trigDrop (s : State) (n : Fin 16) : State :=
  (s.raise (SLC_STAT.TRGOVR n)).signal (0x0E0 + 6 * n + 2)

/-- A trigger for a run with instant `inst` in the present cycle (R201, R202). -/
def State.trigger (s : State) (n : Fin 16) (inst : Nat) : State :=
  if s.trigOk n then
    (s.modSlc n (fun x => { x with
      trigs := x.trigs ++ [{ inst := inst, cycle := s.now }], lastStart := some s.now })).timerStart n
  else if s.runs blkSLC then s.trigDrop n else s

/-- The start tasks of one cycle reach slice `n` (R201, R281, R282). -/
def State.startTasks (s : State) (n : Fin 16) (l : List Arrival) : State :=
  if !s.runs blkSLC then s.taskLost (0x48 + n)
  else if s.slcMode n ≠ 1 then s
  else
    let ok := s.trigOk n
    let s := s.trigger n (earliestInst l)
    let s := if ok then s else s.taskLost (0x48 + n)
    if laterInsts l = 0 then s else (s.trigDrop n).taskLost (0x48 + n)

/-- The cycle in which the period timer of slice `n` expires, while it runs (R203). -/
def State.timerAt (s : State) (n : Fin 16) : Option Nat :=
  if s.slcMode n = 2 ∧ s.on (SLC_CTRL.EN n) ∧ s.takes blkSLC then
    some ((s.slc[n]).timerFrom + (s.slc[n]).timerPer)
  else none

/-- The period timer of slice `n` expires in the present cycle, if that is its cycle (R203). -/
def State.timerDue (s : State) (n : Fin 16) : State :=
  match s.timerAt n with
  | some c => if c ≤ s.now then (s.trigger n s.now16).timerStart n else s
  | none => s

/-! ### Ports (R204 to R206) -/

/-- A result on the direct path reaches the ports of slice `n`: converter `c`, slot, tag, value and
instant. -/
def State.slicePorts (s : State) (n : Fin 16) (c : Nat) (avg : Bool) (tag : Nat) (val : Int)
    (inst : Nat) : State :=
  let hit (k : Nat) : Bool :=
    s.on (SLC_IN.EN n k) && s.get (SLC_IN.CV n k) == c && (s.on (SLC_IN.SLOT n k) == avg) &&
      (s.on (SLC_IN.TAGANY n k) || s.get (SLC_IN.TAG n k) == tag)
  let s := s.modSlc n (fun x => { x with
    ports := (List.finRange 4).foldl (fun (v : Vector PortSt 4) (k : Fin 4) =>
      if hit k then
        let p := v[k]
        let q := satInt 32 (val * 2 ^ s.get (SLC_IN.SHIFT n k))
        v.set k { p with
          val := some (BitVec.ofInt 32 q), inst := inst, cv := c, avg := avg, fresh := true,
          sum := clampInt (-(2 ^ 47)) (2 ^ 47) (p.sum + q), cnt := min 65535 (p.cnt + 1) }
      else v) x.ports })
  if hit 0 && s.slcMode n == 0 then s.trigger n inst else s

/-- The result that port value `p` came from is taken (R182, R205). -/
def State.takePort (s : State) (p : PortSt) : State :=
  if h : p.cv < 24 then
    let c : Fin 24 := ⟨p.cv, h⟩
    let mark (r : CvResult) : CvResult := if r.inst = p.inst then { r with taken := true } else r
    s.modCv c (fun x => if p.avg then { x with avg := x.avg.map mark } else { x with raw := x.raw.map mark })
  else s

/-- Port `k` is disabled: it holds no result (R204). -/
def State.portOff (s : State) (n : Fin 16) (k : Fin 4) : State :=
  s.modSlc n (fun x => { x with ports := x.ports.set k PortSt.reset })

/-! ### The start of a run (R200, R205 to R208, R227 to R231) -/

/-- The address of word `w` of micro-op `j` of program `k` of slice `n` (R225). -/
def storeAddr (n k j w : Nat) : Nat := 0x30308000 + 0x800 * n + 0x100 * k + 8 * j + 4 * w

/-- The micro-ops of program `k` of slice `n`. -/
def State.program (s : State) (n k : Nat) : List (Word × Word) :=
  (List.range 32).map (fun j => (s.rd (storeAddr n k j 0), s.rd (storeAddr n k j 1)))

/-- Reference latches written before cycle `c` replace their parameters (R230). -/
def State.takeRefs (s : State) (n : Fin 16) (c : Nat) : State :=
  let l := (s.slc[n]).refs.filter (fun r => decide (r.cycle < c))
  (l.foldl (fun (s : State) (r : RefLatch) => s.wr (SLC_PAR.adr n r.k) r.val) s).modSlc n
    (fun x => { x with refs := x.refs.filter (fun r => decide (c ≤ r.cycle)) })

/-- Integrators are zeroed by the requests made before cycle `c` (R228). -/
def State.takeIzero (s : State) (n : Fin 16) (c : Nat) : State :=
  let m := (s.slc[n]).izeros.foldl (fun m x => if x.2 < c then m ||| x.1 else m) 0
  let s := forNat (fun k s => if m.testBit k then s.wr (SLC_INT.adr n k) 0 else s) 8 s
  s.modSlc n (fun x => { x with izeros := x.izeros.filter (fun y => decide (c ≤ y.2)) })

/-- The operands of the run with instant `inst` that starts in the present cycle, as they stand at the end of it. -/
def State.runOf (s : State) (n : Fin 16) (inst : Nat) : Run :=
  let x := s.slc[n]
  let en (k : Nat) : Bool := s.on (SLC_IN.EN n k)
  let port (k : Fin 4) : PortSt := x.ports[k]
  let tr := s.trk[(Fin.ofNat 16 (s.get (SLC_TRK.TRACK n)))]
  let ten := s.on (SLC_TRK.TEN n)
  let v := tr.ovel.toInt
  let thS : Word := tr.oang - BitVec.ofInt 32 (roundDiv (v * ((s.now16 : Int) - inst)) (2 ^ 20))
  let thA : Word := thS + BitVec.ofInt 32 (roundDiv (v * (s.rd (SLC_ADV.adr n)).toNat) (2 ^ 20))
  let om : Word := BitVec.ofInt 32 (satInt 32 (v / 2 ^ s.get (SLC_TRK.VSH n)))
  { ins := Vector.ofFn (fun k => if en k then ((port k).val.getD 0).toInt else 0),
    sums := Vector.ofFn (fun k => if en k then ((port k).sum, (port k).cnt) else (0, 0)),
    thetaS := if ten then thS else 0, thetaA := if ten then thA else 0, omega := if ten then om else 0,
    pars := (List.range 32).map (fun k => s.rd (SLC_PAR.adr n k)),
    w := x.w, ints := (List.range 8).map (fun k => (s.rd (SLC_INT.adr n k)).toInt),
    energy := x.energy, cset := { CommitSet.empty with inst := inst, slots := (List.range 4).map (s.slotPair n) },
    sat := false, lim := false, badOp := false, skew := false, wrote := false, done := false }

/-- An enabled port supplies a value of another instant, or one that is not new (R205). -/
def State.portSkew (s : State) (n : Fin 16) (inst : Nat) : Bool :=
  (List.finRange 4).any (fun (k : Fin 4) =>
    let p := (s.slc[n]).ports[k]
    s.on (SLC_IN.EN n k) && (!p.fresh || decide (p.inst ≠ inst)))

/-- A twin mismatch of slice `n` is detected in the present cycle (R233): the trip matrix latches it in the next. -/
def State.twinTrip (s : State) (n : Fin 16) : State :=
  ((s.raise (SLC_STAT.TWIN n)).signal (0x0E0 + 6 * n + 3)).modSlc n (fun x => { x with
    trigs := [], run := none, periodEnd := s.now })

/-- Some parameter of slice `n` cannot be read (R333). -/
def State.parSpoilt (s : State) (n : Nat) : Bool :=
  !s.upset.isEmpty && (List.range 32).any (fun k => s.spoilt (SLC_PAR.adr n k))

/-- The run that trigger `t` starts begins in the present cycle, its start cycle, and captures its operands at the end of
it (R200, R205 to R208). -/
def State.runBegin (s : State) (n : Fin 16) (t : Trig) : State :=
  let s := (s.takeRefs n t.cycle).takeIzero n t.cycle
  let k := s.get (SLC_CTRL.PROG n)
  let s := ((s.wr (SLC_RUNS.adr n) (s.rd (SLC_RUNS.adr n) + 1)).set (SLC_STAT.APROG n) k).signal (0x0E0 + 6 * n)
  let s := s.eccReads (SLC_PAR.adr n 0) 128
  if s.parSpoilt n then s.twinTrip n
  else
    let r := s.runOf n t.inst
    let s := if s.portSkew n t.inst then s.raise (SLC_STAT.SKEW n) else s
    let s := (List.finRange 4).foldl (fun (s : State) (k : Fin 4) =>
      if s.on (SLC_IN.EN n k) then s.takePort ((s.slc[n]).ports[k]) else s) s
    let prog := s.program n k
    s.modSlc n (fun x => { x with
      run := some { r := r, prog := prog, next := t.cycle }, periodEnd := t.cycle + progCost prog - 1,
      ports := x.ports.map (fun p => { p with fresh := false, sum := 0, cnt := 0 }) })

/-! ### The micro-ops of a run (R213, R222, R232, R236) -/

/-- What a micro-op leaves in the slice: registers, integrators, energy, and the flags it sets (R209, R214 to R218). -/
def State.runWrite (s : State) (n : Fin 16) (r0 r : Run) : State :=
  let s := s.modSlc n (fun x => { x with w := r.w, energy := r.energy })
  let s := if r.ints = r0.ints then s
    else forNat (fun k s => s.wr (SLC_INT.adr n k) (BitVec.ofInt 32 (r.ints.getD k 0))) 8 s
  let s := if r.sat then s.raise (SLC_STAT.SAT n) else s
  let s := if r.skew then s.raise (SLC_STAT.SKEW n) else s
  let s := if r.badOp then s.raise (SLC_STAT.BADOP n) else s
  if r.lim then (s.raise (SLC_STAT.LIM n)).signal (0x0E0 + 6 * n + 4) else s

/-- The run of slice `n` has reached its period end (R200, R222): a commit set is transferred in the next cycle. -/
def State.runEnd (s : State) (n : Fin 16) (r : Run) : State :=
  let s := (s.modSlc n (fun x => { x with run := none, cset := r.cset })).signal (0x0E0 + 6 * n + 1)
  if r.done then s.later (s.now + 1) (.transfer n) else s.raise (SLC_STAT.NOCOMMIT n)

/-- An injection is pending and the present cycle is the first of a `COMMIT` with a commit set (R236). -/
def injectCommit (inject : Bool) (x : RunSt) (w0 : Word) (now : Nat) : Bool :=
  inject && opOf w0 == 0x3F && decide (x.next = now) && x.r.cset.any

/-- The next micro-op of slice `n` cannot be read (R333). -/
def State.opSpoilt (s : State) (n : Nat) (x : RunSt) : Bool :=
  s.spoilt (storeAddr n (s.get (SLC_STAT.APROG n)) (32 - x.prog.length) 0)

/-- The run of slice `n` in the present cycle: the micro-op that ends in it writes its results (R213). With an injection
pending, the first compared value that is written is a mismatch (R236). -/
def State.runStep (s : State) (n : Fin 16) : State :=
  match (s.slc[n]).run with
  | none => s
  | some x =>
    match x.prog with
    | [] => s.runEnd n x.r
    | (w0, w1) :: l =>
      let inject := (s.slc[n]).inject
      let s := if x.next = s.now then s.eccRead (storeAddr n (s.get (SLC_STAT.APROG n)) (32 - x.prog.length) 0) else s
      if x.next = s.now ∧ s.opSpoilt n x then s.twinTrip n
      else if injectCommit inject x w0 s.now then (s.twinTrip n).modSlc n (fun x => { x with inject := false })
      else if s.now + 1 < x.next + opCost w0 then s
      else
        let r := x.r.op w0 w1
        let s := s.runWrite n x.r r
        if inject && r.wrote && !r.done then (s.twinTrip n).modSlc n (fun x => { x with inject := false })
        else if r.done || l.isEmpty then s.runEnd n r
        else s.modSlc n (fun x => { x with run := some { r := r, prog := l, next := s.now + 1 } })

/-- What slice `n` still has to do in the present cycle. -/
def State.slcCycle (s : State) (n : Fin 16) : State :=
  let s := s.timerDue n
  let s := match (s.slc[n]).trigs with
    | [] => s
    | t :: _ => (s.modSlc n (fun x => { x with trigs := [] })).runBegin n t
  s.runStep n

/-! ### Transfer (R219 to R224) -/

/-- The pair of a slot of a commit set. -/
def CommitSet.pairAt (c : CommitSet) (j : Nat) : Option (Fin 32) := (c.slots[j]?).join

/-- The words of a commit set reach their pairs (R221 to R224). -/
def State.giveWords (s : State) (n : Fin 16) (c : CommitSet) : State :=
  c.edges.foldl (fun (s : State) (e : EdgeWord) =>
    match c.pairAt e.slot with
    | none => s
    | some p =>
      if s.ownedBelow n p then s.raise (SLC_STAT.PAIRCOL n) else s.pairWord p e.kind e.word) s

/-- The terminator arms of a commit set (R219, R224). -/
def State.armTerms (s : State) (n : Fin 16) (c : CommitSet) : State :=
  c.terms.foldl (fun (s : State) (t : TermArm) =>
    match c.pairAt t.slot with
    | none => s
    | some p =>
      if s.ownedBelow n p then s.raise (SLC_STAT.PAIRCOL n)
      else s.modPair p (fun q => { q with
        term := some { ref := t.ref, slice := n, port := t.port, blank := t.blank, onAt := none, past := [] } })) s

/-- The observer load of a commit set reaches every track that takes it (R223). -/
def State.giveObs (s : State) (n : Fin 16) (o : Word × Word × Word) : State :=
  (List.finRange 16).foldl (fun (s : State) (k : Fin 16) =>
    if s.on (TRK_SRCA.SLV k) && s.get (TRK_SRCA.SLN k) == n then
      s.sliceLoad k o.1 (o.2.1.signExtend 48) o.2.2
    else s) s

/-- The four outputs of slice `n` as one number, output 0 lowest. -/
def State.slcOuts (s : State) (n : Nat) : Nat :=
  (List.range 4).foldl (fun a k => a + (s.rd (SLC_OUT.adr n k)).toNat * 2 ^ (32 * k)) 0

/-- The cycle after `COMMIT`: its commit set takes effect (R222). -/
def State.transfer (s : State) (n : Fin 16) : State :=
  let c := (s.slc[n]).cset
  let s := c.outs.foldl (fun (s : State) (o : Nat × Word) => s.wr (SLC_OUT.adr n o.1) o.2) s
  let s := (s.armTerms n c).giveWords n c
  let s := match c.obs with
    | some o => s.giveObs n o
    | none => s
  (s.grnSlice n c.inst (s.slcOuts n)).modSlc n (fun x => { x with cset := CommitSet.empty })

/-! ### Stop (R238) -/

/-- The slice stops at its commit point: a `COMMIT` that ends in the present cycle completes, any other run is abandoned;
its pairs leave RUN in the next cycle (R238). -/
def State.slcStop (s : State) (n : Fin 16) : State :=
  let keep (x : RunSt) : Bool := x.prog.any (fun w => opOf w.1 == 0x3F)
  let now := s.now
  (s.modSlc n (fun x => { x with
    trigs := [], stopAt := now + 2,
    run := if x.periodEnd = now then x.run.filter keep else none,
    periodEnd := if x.run.isSome && x.periodEnd != now then now else x.periodEnd })).later (now + 1) (.slcSafe n)

/-- The cycle after a stop: the pairs of the slice that are in RUN leave it for their safe state (R238). -/
def State.slcSafe (s : State) (n : Fin 16) : State :=
  let l : List (Fin 32) := (s.slcPairs n).filter (fun (p : Fin 32) => s.pairState p == pRun)
  (l.foldl (fun (s : State) (p : Fin 32) => s.leaveRun p) s).raise (SLC_STAT.OFFSAFE n)

end Sys2Proof.Machine
end

