-- ==== Sys2Proof/Machine/Slices.lean ====
section
/-!
DEFINITION. Machine/Slices.lean: the loop slices (06): references, integrators, twin datapaths, enable and disable.
-/
namespace Sys2Proof.Machine

/-! ### References and commands -/

/-- The order of R230 among agents. -/
def refRank : Agent → Nat
  | .core .ctl0 => 0
  | .core .ctl1 => 1
  | .core .mgt0 => 2
  | _ => 3

/-- A write of `SLCn_REFk` (R230); one in the switch cycle of a commit that holds the parameter is older than that
(R231). -/
def State.refWrite (s : State) (n : Fin 16) (k : Nat) (v : Word) (rank : Nat) : State :=
  let x := s.slc[n]
  if x.switched.1 = s.now ∧ x.switched.2.contains k then s.raise (SLC_STAT.REFCOL n)
  else if x.refs.any (fun r => r.k == k && r.cycle == s.now && decide (rank < r.rank)) then s
  else
    let l : RefLatch := { k := k, val := v, cycle := s.now, rank := rank }
    s.modSlc n (fun x => { x with refs := x.refs.filter (fun r => r.k != k) ++ [l] })

/-- The switch cycle of a commit that holds a value for `SLCn_PARk` (R231). -/
def State.refOverruled (s : State) (n : Fin 16) (k : Nat) : State :=
  let now := s.now
  let had := (s.slc[n]).refs.any (fun r => r.k == k)
  let s := s.modSlc n (fun x => { x with
    refs := x.refs.filter (fun r => r.k != k),
    switched := (now, (if x.switched.1 = now then x.switched.2 else []) ++ [k]) })
  if had then s.raise (SLC_STAT.REFCOL n) else s

/-- A request to zero the integrators of a mask at the next run start (R228). -/
def State.izero (s : State) (n : Fin 16) (mask : Nat) : State :=
  if mask = 0 then s else s.modSlc n (fun x => { x with izeros := x.izeros ++ [(mask, s.now)] })

/-- The zero-integrators tasks of one cycle reach slice `n` (R228). -/
def State.izeroTasks (s : State) (n : Fin 16) : State :=
  if s.runs blkSLC then s.izero n 0xFF else s.taskLost (0x58 + n)

/-- Every pair that the slice names is disarmed (R236, R237). -/
def State.slcDisarmed (s : State) (n : Nat) : Bool :=
  (s.slcPairs n).all (fun p => s.pairState p != pRun)

/-- A write of 1 to `SLCn_CMD.INJ` (R236). -/
def State.slcInject (s : State) (n : Fin 16) : State :=
  if s.slcDisarmed n then s.modSlc n (fun x => { x with inject := true })
  else s.raise (SLC_STAT.CDREF n)

/-- Working registers, integrators, energy and port accumulators are zeroed (R234, R237). -/
def State.slcZero (s : State) (n : Fin 16) : State :=
  let s := s.passEnergy n
  let s := s.modSlc n (fun x => { x with
    w := Vector.replicate 16 0, energy := 0, ports := x.ports.map (fun p => { p with sum := 0, cnt := 0 }) })
  forNat (fun k s => s.wr (SLC_INT.adr n k) 0) 8 s

/-- Triggers are accepted from the next cycle (R234, R237). -/
def State.slcOpen (s : State) (n : Fin 16) : State := s.modSlc n (fun x => { x with opens := s.now + 1 })

/-- A write of 1 to `SLCn_STAT.TWIN` (R234). -/
def State.twinClr (s : State) (n : Fin 16) : State :=
  if s.on (SLC_STAT.TWIN n) && s.clearable (SLC_STAT.TWIN n) then ((s.set (SLC_STAT.TWIN n) 0).slcZero n).slcOpen n
  else s

/-- EN is set (R237): without effect while a named pair is armed. -/
def State.slcEnable (s : State) (n : Fin 16) : State :=
  if s.on (SLC_CTRL.EN n) then s
  else if s.slcDisarmed n then
    (((s.set (SLC_CTRL.EN n) 1).slcZero n).slcOpen n).timerStart n
  else s.raise (SLC_STAT.CDREF n)

/-- EN is cleared (R238). -/
def State.slcDisable (s : State) (n : Fin 16) : State :=
  if s.on (SLC_CTRL.EN n) then (s.set (SLC_CTRL.EN n) 0).slcStop n else s

/-- `SLCn_STAT.RUN` (R238). -/
def State.slcRun (s : State) (n : Fin 16) : Bool :=
  (s.on (SLC_CTRL.EN n) && s.takes blkSLC) || decide (s.now < (s.slc[n]).stopAt)

/-- A read of `SLCn_ENERGY_LO` by core `c` latches the upper word for it (R220). -/
def State.energyRead (s : State) (n : Fin 16) (c : Fin 5) : Word × State :=
  let e := (s.slc[n]).energy
  (e.setWidth 32, s.modSlc n (fun x => { x with eLatch := x.eLatch.set c ((e >>> 32).setWidth 32) }))

end Sys2Proof.Machine
end

