-- ==== Sys2Proof/Machine/Converters.lean ====
section
/-!
DEFINITION. Machine/Converters.lean: results of the converters, plausibility pairs and comparators (05).
-/
namespace Sys2Proof.Machine

/-! ### Results (R181 to R186) -/

/-- The track, the slices and the Granary take the direct-path result: some track or the Granary uses
it at once; a slice takes it at its run start (R182, R205, R346). -/
def State.usedNow (s : State) (c tag : Nat) (avg : Bool) : Bool :=
  if avg then s.grnRecords 3 c tag
  else s.grnRecords 1 c tag || s.grnRecords 2 c tag ||
    (List.range 16).any (fun n => !(s.sourceRoles n c tag).isEmpty)

/-- The result in a slot has not been taken (R183). -/
def notTaken : Option CvResult → Bool
  | some o => !o.taken
  | none => false

/-- A raw result enters its slot (R183). -/
def State.rawSlot (s : State) (n : Fin 24) (r : CvResult) : State :=
  let missed := notTaken (s.cv[n]).raw
  let s := s.modCv n (fun c => { c with raw := some { r with ovr := missed } })
  if missed then (s.raise (CV_STAT.ROVR n)).signal (0x078 + n) else s

/-- An averaged result enters its slot (R183, R185). -/
def State.avgSlot (s : State) (n : Fin 24) (r : CvResult) : State :=
  let missed := notTaken (s.cv[n]).avg
  let s := s.modCv n (fun c => { c with avg := some { r with ovr := missed } })
  if missed then (s.raise (CV_STAT.AOVR n)).signal (0x078 + n) else s

/-- K and SHIFT as they act (05, `CVn_AVG`). -/
def State.avgK (s : State) (n : Nat) : Nat := min 8 (s.get (CV_AVG.K n))
def State.avgShift (s : State) (n : Nat) : Nat := min 8 (s.get (CV_AVG.SHIFT n))

/-- A result on the direct path reaches the slices and the terminators that watch their ports
(R204, R219). -/
def State.toSlices (s : State) (n : Fin 24) (avg : Bool) (tag : Nat) (val : Int) (inst : Nat) : State :=
  (List.finRange 16).foldl (fun (s : State) (k : Fin 16) =>
    let s := s.slicePorts k n avg tag val inst
    (List.finRange 4).foldl (fun (s : State) (j : Fin 4) =>
      let p := (s.slc[k]).ports[j]
      if p.fresh && p.inst == inst && p.cv == n && p.avg == avg then
        s.terminators k j ((p.val.getD 0).toInt) inst
      else s) s) s

/-- The averaging of one raw result (R185, R186). -/
def State.average (s : State) (n : Fin 24) (tag : Nat) (val : Int) (inst : Nat) : State :=
  let k := s.avgK n
  if k = 0 then s
  else
    let c := s.cv[n]
    let brk := decide (0 < c.sumN) && decide (c.sumTag ≠ tag)
    let s := if brk then s.raise (CV_STAT.AVGBRK n) else s
    let sum := if brk || c.sumN == 0 then val else c.sum + val
    let cnt := if brk then 1 else c.sumN + 1
    if cnt < 2 ^ k then s.modCv n (fun c => { c with sum := sum, sumN := cnt, sumTag := tag })
    else
      let v := satInt 16 (sum / 2 ^ s.avgShift n)
      let s := s.modCv n (fun c => { c with sum := 0, sumN := 0 })
      let used := s.usedNow n tag true
      let s := s.avgSlot n { val := v, tag := tag, ovr := false, avg := true, tail := false, inst := inst,
                             taken := used }
      ((s.signal (0x060 + n)).grnAvg n inst tag v).toSlices n true tag v inst

/-! ### Plausibility pairs (R189 to R192) -/

/-- The two gains of pair `k` differ (R190). -/
def State.gainMm (s : State) (k : Nat) : Bool :=
  s.get (CV_CFG.GAIN (2 * k)) != s.get (CV_CFG.GAIN (2 * k + 1))

/-- One comparison of pair `k` with difference `d` (R191). -/
def State.compare (s : State) (k : Nat) (d : Int) : State :=
  let s := (s.set (CVPAIR_STAT.DIFF k) (bitsOf 16 d).toNat).wr (CVPAIR_CNT.adr k)
    (s.rd (CVPAIR_CNT.adr k) + 1)
  if d.natAbs ≤ s.get (CVPAIR_WIN.WIN k) then s.set (CVPAIR_STAT.RUN k) 0
  else
    let r := s.get (CVPAIR_STAT.RUN k) + 1
    if s.get (CVPAIR_CFG.CNT k) + 1 ≤ r then
      ((s.raise (CVPAIR_STAT.FAULT k)).set (CVPAIR_STAT.RUN k) 0).signalAt (0x090 + k) (s.now + 1)
    else s.set (CVPAIR_STAT.RUN k) r

/-- The newest raw result of converter `n` meets its partner's (R189). -/
def State.plausible (s : State) (n : Fin 24) (x : PlausItem) : State :=
  let s := s.modCv n (fun c => { c with plaus := some x })
  let k := (n : Nat) / 2
  let other : Fin 24 := if (n : Nat) % 2 = 0 then Fin.ofNat 24 (n + 1) else Fin.ofNat 24 (n - 1)
  match (s.cv[other]).plaus with
  | none => s
  | some y =>
    if s.on (CVPAIR_CFG.EN k) && x.inst == y.inst && x.tag == y.tag && decide (x.tag < 4) && !s.gainMm k then
      s.compare k (if (n : Nat) % 2 = 0 then x.val - y.val else y.val - x.val)
    else s

/-- The result of sample `x` of converter `n`, whose input was at level `input` in eighths of a code at ×1, reaches its
consumers in the present cycle (R174, R175, R181, R199). -/
def State.deliverSample (s : State) (n : Fin 24) (x : Sample) (input : Int) : State :=
  let v := satInt 12 (gainCode x.gain input + x.trim)
  let used := s.usedNow n x.tag false
  let s := s.rawSlot n { val := v, tag := x.tag, ovr := false, avg := false, tail := x.tail,
                         inst := x.inst, taken := used }
  let ovr := match (s.cv[n]).raw with
    | some r => r.ovr
    | none => false
  let s := (s.signal (0x048 + n)).grnRaw n x.inst (bitsOf 12 v).toNat x.tag ovr
  let s := s.toSlices n false x.tag v x.inst
  let s := s.trackResult n x.tag v x.inst
  let s := if x.tail then s else s.average n x.tag v x.inst
  s.plausible n { inst := x.inst, tag := x.tag, val := v }

/-- The word of `CVn_DATA`, and the state after its read (R184). -/
def State.dataRead (s : State) (n : Fin 24) : Word × State :=
  let avg := s.get (CV_AVG.K n) ≠ 0
  match (if avg then (s.cv[n]).avg else (s.cv[n]).raw) with
  | none => (0, s)
  | some r =>
    let b (x : Bool) (k : Nat) : Nat := if x then 2 ^ k else 0
    (BitVec.ofNat 32 ((bitsOf 16 r.val).toNat + r.tag * 2 ^ 16 + b (!r.taken) 28 + b r.tail 29 + b r.avg 30 +
        b r.ovr 31),
     s.modCv n (fun c => if avg then { c with avg := some { r with taken := true } }
       else { c with raw := some { r with taken := true } }))

/-- The switch cycle of a commit that holds a value for `CVn_SEQ` or `CVn_AVG` (R179, R186). -/
def State.seqCommitted (s : State) (n : Fin 24) : State := s.cvRewind n
def State.avgCommitted (s : State) (n : Fin 24) : State := s.cvSetBreak n

/-! ### Comparators (R194 to R198, R648) -/

/-- The converter code at ×1 that DAC code `d` stands for (R194). -/
def dacCode (d : Int) : Int := 4 * d - 2048

/-- The level of the input that comparator `m` watches, in converter codes at ×1 (R194). -/
def State.cmpLevel (s : State) (m : Fin 32) : Int :=
  s.ain[(Fin.ofNat 64 (m + 32 * s.get (CMP_CFG.INSEL m)))]

/-- The analogue state of the two halves of comparator `m` from its level (R195). -/
def State.cmpAnalogue (s : State) (m : Fin 32) (c : CmpSt) : Bool × Bool :=
  let v := s.cmpLevel m
  let hi : Int := s.get (CMP_THR.HI m)
  let lo : Int := s.get (CMP_THR.LO m)
  let hy : Int := s.get (CMP_CFG.HYST m)
  (if c.anaAbove then decide (dacCode (hi - hy) ≤ v) else decide (dacCode hi < v),
   if c.anaBelow then decide (v ≤ dacCode (lo + hy)) else decide (v < dacCode lo))

def State.modCmp (s : State) (m : Fin 32) (f : CmpSt → CmpSt) : State :=
  { s with cmp := s.cmp.set m (f s.cmp[m]) }

/-- The comparator compares: enabled, with the fast domain at H0 (R198, R647). -/
def State.cmpEn (s : State) (m : Nat) : Bool := s.fastUp && s.on (CMP_CFG.EN m)

/-- An output that has held its synchronised value `v` since cycle `c` for `f` cycles passes on; `old` is what has passed
before (R196). -/
def passed (v old : Bool) (c f now : Nat) : Bool := if c + f ≤ now then v else old

/-- The outputs of comparator `m` that have held their values for FILT cycles pass on to the matrix and the fabric (R196,
R198). -/
def State.cmpPass (s : State) (m : Fin 32) : State :=
  if s.cmpEn m then
    let a := s.on (CMP_STAT.ABOVE m)
    let b := s.on (CMP_STAT.BELOW m)
    let c := s.cmp[m]
    let f := s.get (CMP_CFG.FILT m)
    let o := passed (a || b) c.outOutside c.sinceOutside f s.now
    let s := s.modCmp m (fun c => { c with
      outAbove := passed a c.outAbove c.sinceAbove f s.now, outBelow := passed b c.outBelow c.sinceBelow f s.now,
      outOutside := o })
    if o && !c.outOutside then s.signal (0x0A0 + m) else if c.outOutside && !o then s.signal (0x0C0 + m) else s
  else s

/-- An output of comparator `m` has still to pass on. -/
def State.cmpWaits (s : State) (m : Fin 32) : Bool :=
  let a := s.on (CMP_STAT.ABOVE m)
  let b := s.on (CMP_STAT.BELOW m)
  let c := s.cmp[m]
  s.cmpEn m && (a != c.outAbove || b != c.outBelow || (a || b) != c.outOutside)

/-- The synchronised outputs follow the analogue state (R196 to R198). -/
def State.cmpSync (s : State) (m : Fin 32) : State :=
  let c := s.cmp[m]
  let a0 := s.on (CMP_STAT.ABOVE m)
  let b0 := s.on (CMP_STAT.BELOW m)
  let s := (s.set (CMP_STAT.ABOVE m) (if c.anaAbove then 1 else 0)).set (CMP_STAT.BELOW m)
    (if c.anaBelow then 1 else 0)
  let s := if c.anaAbove && !a0 then s.raise (CMP_STAT.ABOVESEEN m) else s
  let s := if c.anaBelow && !b0 then s.raise (CMP_STAT.BELOWSEEN m) else s
  (s.modCmp m (fun c => { c with
    sinceAbove := if c.anaAbove = a0 then c.sinceAbove else s.now,
    sinceBelow := if c.anaBelow = b0 then c.sinceBelow else s.now,
    sinceOutside := if (c.anaAbove || c.anaBelow) = (a0 || b0) then c.sinceOutside else s.now })).cmpPass m

/-- The analogue halves follow the level; while BLANK is 1 the synchronised outputs are held (R195, R197). -/
def State.cmpEval (s : State) (m : Fin 32) : State :=
  if s.cmpEn m then
    let (a, b) := s.cmpAnalogue m s.cmp[m]
    let s := s.modCmp m (fun c => { c with anaAbove := a, anaBelow := b })
    if s.on (CMP_STAT.BLANK m) then s else s.cmpSync m
  else s

/-- `COMPARATOR_INPUT_CHANGE`: the selected input goes to `level`, in converter codes at ×1 (R194). -/
def State.cmpInput (s : State) (m : Fin 32) (level : Int) : State :=
  let i : Fin 64 := Fin.ofNat 64 (m + 32 * s.get (CMP_CFG.INSEL m))
  ({ s with ain := s.ain.set i level } : State).cmpEval m

/-- The synchronised outputs are held for 25 lc, from cycle `c` on (R197, R648). -/
def State.cmpBlank (s : State) (m : Fin 32) (c : Nat) : State :=
  (s.set (CMP_STAT.BLANK m) 1).modCmp m (fun x => { x with blankAt := c })

/-- The cycle in which a hold of comparator `m` ends. -/
def CmpSt.releaseAt (c : CmpSt) : Nat := c.blankAt + 25

/-- A hold whose time is over ends, and an output that has held its value passes on (R196, R197). -/
def State.cmpDue (s : State) (m : Fin 32) : State :=
  if s.on (CMP_STAT.BLANK m) && decide ((s.cmp[m]).releaseAt ≤ s.now) then (s.set (CMP_STAT.BLANK m) 0).cmpEval m
  else if s.cmpWaits m then s.cmpPass m
  else s

/-- What falls due at the comparators in the present cycle (R647). -/
def State.cmpCycle (s : State) : State :=
  if s.fastUp then (List.finRange 32).foldl (fun (s : State) (m : Fin 32) => s.cmpDue m) s else s

/-- EN was set or cleared: a disabled comparator holds its outputs released and raises no events (R198). -/
def State.cmpEnChanged (s : State) (m : Fin 32) : State :=
  if s.on (CMP_CFG.EN m) then s.cmpEval m
  else
    ((s.set (CMP_STAT.ABOVE m) 0).set (CMP_STAT.BELOW m) 0).modCmp m (fun c => { c with
      anaAbove := false, anaBelow := false, outAbove := false, outBelow := false, outOutside := false })

/-- A change of the comparator's registers from `cfg0` and `thr0`, by a write or by a commit, which acts from cycle `c`
on (R197, R198, R648): of thresholds or hysteresis always, of the input on an enabled comparator. -/
def State.cmpChanged (s : State) (m : Fin 32) (cfg0 thr0 : Word) (c : Nat) : State :=
  let cfg := s.rd (CMP_CFG.adr m)
  let thr := decide (fieldOf cfg 14 12 ≠ fieldOf cfg0 14 12) || decide (s.rd (CMP_THR.adr m) ≠ thr0)
  let ins := decide (fieldOf cfg 1 1 ≠ fieldOf cfg0 1 1) && decide (fieldOf cfg 0 0 = 1 ∧ fieldOf cfg0 0 0 = 1)
  let s := if thr || ins then s.cmpBlank m c else s
  if fieldOf cfg 0 0 = fieldOf cfg0 0 0 then s.cmpEval m else s.cmpEnChanged m

end Sys2Proof.Machine
end

