-- ==== Sys2Proof/Machine/Access.lean ====
section
/-!
DEFINITION. Machine/Access.lean: who reaches which address (R24 to R31, R336, R341), the fields of a
register word, and the drives that a cold field affects (R16).
-/
namespace Sys2Proof.Machine

/-! ### Agents and regions -/

/-- An agent as the columns of R26 have them; the debug port acts with the rights of MGT0 (R391). -/
inductive Party
  | ctl (n : Fin 2)
  | mgt (n : Fin 2)
  | aoc
  | granary
  | ledger
  deriving DecidableEq, Repr

def partyOf : Agent → Party
  | .core .ctl0 => .ctl 0
  | .core .ctl1 => .ctl 1
  | .core .mgt0 => .mgt 0
  | .core .mgt1 => .mgt 1
  | .core .aoc => .aoc
  | .granary => .granary
  | .ledger => .ledger
  | .debug => .mgt 0

def Party.isMgt : Party → Bool
  | .mgt _ => true
  | _ => false

def Party.isCtl : Party → Bool
  | .ctl _ => true
  | _ => false

/-- The number of the core that an agent is or acts as; the engines have none. -/
def Party.core : Party → Fin 5
  | .ctl n => if n = 0 then 0 else 1
  | .mgt n => if n = 0 then 2 else 3
  | _ => 4

/-- The always-on domain has its supply. -/
def State.aoUp (s : State) : Bool := decide (s.ao.phase ≠ .off)

/-- A fast-side block with clock enable `b` answers accesses (R30). -/
def State.blockUp (s : State) (b : Nat) : Bool := s.fastUp && s.bit CPM_CLKEN.BLOCKS b

/-- The agent is a core of the fast domain. -/
def Party.isFastCore (x : Party) : Bool := x.isCtl || x.isMgt

/-- Who may access MRAM (R26, R336). -/
def State.mramPermits (s : State) (x : Party) (a : Nat) (wr : Bool) : Bool :=
  if !wr then
    (match x with
     | .granary => false
     | .ledger => decide (0x11100000 ≤ a ∧ a < 0x11900000)
     | _ => true)
  else if a < 0x10100000 then x.isMgt && (decide (s.lcs = .maker) || decide (s.lcs = .provisioned))
  else if a < 0x10900000 then x.isMgt && s.get CPM_BOOT.SLOT != 0
  else if a < 0x11100000 then x.isMgt && s.get CPM_BOOT.SLOT != 1
  else if a < 0x11900000 then x == .ledger
  else if a < 0x11B00000 then x.isMgt
  else x.isMgt || x == .aoc

/-- The tightly coupled memories of pair `n`: its own, or MGT0 and MGT1 while it is held (R26, R29). -/
def State.tcmPermits (s : State) (x : Party) (n : Fin 2) : Bool :=
  x == .ctl n || (x.isMgt && s.on (CPM_PAIR_RST.HOLD n))

/-- Who may access the fast-side register regions, from 0x30000000 to 0x30BFFFFF (R26). -/
def fastRegPermits (x : Party) (a : Nat) (wr : Bool) : Bool :=
  let k := (a - 0x30000000) / 0x100000
  if k < 6 then x.isFastCore
  else if k = 6 then x.isFastCore || x == .aoc
  else if k < 11 then x.isMgt || (x.isCtl && !wr)
  else x.isMgt

/-- Who may access the always-on register regions, from 0x40000000 to 0x4006FFFF (R26). -/
def aoRegPermits (x : Party) (a : Nat) (wr : Bool) : Bool :=
  if a < 0x40050000 then x.isMgt || x == .aoc
  else if a < 0x40060000 then x == .aoc || x == .ledger || (x.isMgt && !wr)
  else x.isFastCore || x == .aoc

/-- A region of R24 holds the address; an LPDDR6 address lies within the fitted size (R25, R341). -/
def State.mapped (s : State) (a : Nat) : Bool :=
  decide (a < 0x20000) || decide (0x10000000 ≤ a ∧ a < 0x12000000) || decide (0x20000000 ≤ a ∧ a < 0x20400000) ||
  decide (0x28000000 ≤ a ∧ a < 0x28080000) || decide (0x28100000 ≤ a ∧ a < 0x28180000) ||
  decide (0x30000000 ≤ a ∧ a < 0x30C00000) || decide (0x40000000 ≤ a ∧ a < 0x40070000) ||
  decide (0x41000000 ≤ a ∧ a < 0x41050000) ||
  decide (0x1000000000 ≤ a ∧ a < 0x3000000000 ∧ a - 0x1000000000 < s.fitted)

/-- The region filter of R26 with R29 and R336. -/
def State.permits (s : State) (ag : Agent) (a : Nat) (wr : Bool) : Bool :=
  let x := partyOf ag
  if a < 0x20000 then !wr && (x.isFastCore || x == .aoc)
  else if a < 0x12000000 then s.mramPermits x a wr
  else if a < 0x20400000 then x.isFastCore
  else if a < 0x28080000 then s.tcmPermits x 0
  else if a < 0x28180000 then s.tcmPermits x 1
  else if a < 0x30C00000 then fastRegPermits x a wr
  else if a < 0x40070000 then aoRegPermits x a wr
  else if a < 0x41050000 then x.isMgt || x == .aoc
  else x.isMgt || (x == .granary && wr)

/-- The always-on registers answer: supplied, and a block's clock enabled; U2 and U3 belong to the fast domain
(R30, R31). -/
def State.aoRegPowered (s : State) (a : Nat) : Bool :=
  let en (b : Nat) : Bool := s.aoUp && s.bit APM_CLKEN.BLOCKS b
  if 0x40010200 ≤ a ∧ a < 0x40010300 then s.blockUp blkU2
  else if 0x40010300 ≤ a ∧ a < 0x40010400 then s.blockUp blkU3
  else if a < 0x40010000 ∨ 0x40040000 ≤ a then s.aoUp
  else if a < 0x40010100 then en 0
  else if a < 0x40020000 then en 1
  else if a < 0x40030000 then en 2
  else en 3

/-- The region of a mapped address is at H0, with its clock (R30). The first 16 KB of the boot ROM, which hold
the AOC's boot path, answer the AOC whatever the fast domain does (19). -/
def State.powered (s : State) (ag : Agent) (a : Nat) : Bool :=
  if a < 0x20000 then s.fastUp || (partyOf ag == .aoc && decide (a < 0x4000))
  else if a < 0x12000000 then s.aoUp
  else if a < 0x30000000 then s.fastUp
  else if a < 0x30800000 then s.blockUp ((a - 0x30000000) / 0x100000)
  else if a < 0x30900000 then s.domUp .mem
  else if a < 0x30A00000 then s.domUp .link
  else if a < 0x40000000 then s.fastUp
  else if a < 0x40070000 then s.aoRegPowered a
  else if a < 0x41050000 then s.aoUp
  else s.domUp .mem

/-- The agent may make the access, and the region answers it (R25 to R31). -/
def State.allows (s : State) (ag : Agent) (a : Nat) (wr : Bool) : Bool :=
  s.mapped a && s.permits ag a wr && s.powered ag a

/-- Addresses that hold registers rather than memory. -/
def isRegAddr (a : Nat) : Bool :=
  decide (0x30000000 ≤ a ∧ a < 0x30C00000) || decide (0x40000000 ≤ a ∧ a < 0x40070000)

/-! ### The fields of a register word -/

/-- The array images: Almanac entries (R142, R144), program stores (R211, R225), pattern entries (07). -/
def imageFields (a : Nat) : Option (List FieldSpec) :=
  if a % 4 ≠ 0 then none
  else if 0x30108000 ≤ a ∧ a < 0x3010C000 then
    some (if a % 16 = 4 then [⟨25, 15, .st, 0⟩, ⟨11, 0, .st, 0⟩] else [⟨31, 0, .st, 0⟩])
  else if 0x30308000 ≤ a ∧ a < 0x30310000 then some (if a % 8 = 0 then [⟨31, 6, .cd, 0⟩] else [⟨31, 16, .cd, 0⟩])
  else if 0x30408000 ≤ a ∧ a < 0x3040C000 then some [⟨31, 0, .st, 0⟩]
  else none

/-- The fields of the register word at `a`; none where no register is defined (R25). -/
def fieldsAt (a : Nat) : Option (List FieldSpec) :=
  match imageFields a with
  | some l => some l
  | none => (regRow? a).map (·.fields)

/-- The bits of a word that fields with access code `c` hold. -/
def accMask (l : List FieldSpec) (c : Access) : Word :=
  l.foldl (fun m f => if f.acc = c then m ||| BitVec.ofNat 32 ((2 ^ (f.msb + 1 - f.lsb) - 1) * 2 ^ f.lsb) else m) 0

/-- `w` inside the mask `m`, `old` outside it. -/
def blend (m old w : Word) : Word := (old &&& ~~~m) ||| (w &&& m)

/-- The bits that a commit item holds: staged and cold ones, as a list of a word's fields has them (R80). -/
def itemMask (l : List FieldSpec) : Word := accMask l .st ||| accMask l .cd

/-- Item words of the device: words with a staged or cold field, the index window `ALM_W0` to `ALM_W3` apart
(R79, R80). -/
def itemAt (a : Nat) : Option Word :=
  if 0x30100004 ≤ a ∧ a < 0x30100014 then none
  else match fieldsAt a with
    | some l => if itemMask l = 0 then none else some (itemMask l)
    | none => none

/-- A write of `w` to the word at `a` as far as it has an effect. These field values have none: `TRKn_CTRL.TYPE` 7,
`SLCn_TRIG.MODE` and `GOU_PAIRp_CFG.MODE` 3, `ETH_PORTn_CTRL.MEDIUM` 2 and 3, `MEMC_CFG.CHEN` 0 and 2, `HRV_MODEL.TYPE` 2
and 3 (R104, 06, 07, 02, 10, 16); nor has a write to bits of `TRKn_SRCA` and `TRKn_SRCB` that are reserved for the type
of track n, which `ty` gives (R12, R140, R141). -/
def State.settleAs (s : State) (ty : Nat → Nat) (a : Nat) (w : Word) : Word :=
  let old := s.rd a
  let keep (bad : Bool) (msb lsb : Nat) : Word := if bad then withField w msb lsb (fieldOf old msb lsb) else w
  if 0x30000000 ≤ a ∧ a < 0x30001000 then
    let n := (a - 0x30000000) / 0x100
    if a % 0x100 = 0x20 then keep (fieldOf w 3 1 == 7) 3 1
    else if a % 0x100 = 0x30 then blend (srcaMask (ty n)) old w
    else if a % 0x100 = 0x34 then blend (srcbMask (ty n)) old w
    else w
  else if 0x30300000 ≤ a ∧ a < 0x30304000 ∧ a % 0x400 = 8 then keep (fieldOf w 1 0 == 3) 1 0
  else if 0x30400000 ≤ a ∧ a < 0x30400800 ∧ a % 0x40 = 0 then keep (fieldOf w 9 8 == 3) 9 8
  else if a = ETH_PORT_CTRL.adr 0 ∨ a = ETH_PORT_CTRL.adr 1 then keep (decide (2 ≤ fieldOf w 3 2)) 3 2
  else if a = MEMC_CFG.adr then keep (fieldOf w 1 0 == 0 || fieldOf w 1 0 == 2) 1 0
  else if a = HRV_MODEL.adr then keep (decide (2 ≤ fieldOf w 31 30)) 31 30
  else w

/-- A core write of `w` to the word at `a` as far as it has an effect. -/
def State.settle (s : State) (a : Nat) (w : Word) : Word := s.settleAs s.trkType a w

/-- The register words that a block's chapter defines, and all of memory (R25). -/
def State.defined (s : State) (a : Nat) : Bool := s.mapped a && (!isRegAddr a || (fieldsAt (a - a % 4)).isSome)

/-- The cause of a bus error (R488): 0 no region or register, 1 region filter, 2 powered down or gated. -/
def State.busCause (s : State) (ag : Agent) (a : Nat) (wr : Bool) : Nat :=
  if !s.defined a then 0 else if !s.permits ag a wr then 1 else 2

/-! ### Affected drives (R16) -/

/-- A drive that reads track `n`: its slice or its carrier or pattern does (R138). -/
def State.trkDrives (s : State) (n p : Nat) : Bool :=
  (List.range 16).any (fun k => s.on (SLC_TRK.TEN k) && s.get (SLC_TRK.TRACK k) == n && s.sliceNames k p) ||
    (s.gMode p != gmDirect && s.get (GOU_PAIR_CFG.TRACK p) == n)

/-- A drive in a group to which input `i` of the trip matrix is routed. -/
def State.routeDrives (s : State) (i p : Nat) : Bool := decide (s.routeOf i &&& s.get (GOU_PAIR_CFG.GRP p) ≠ 0)

/-- Track `n` measures with converter `c`. -/
def State.trkUsesCv (s : State) (n c : Nat) : Bool :=
  if s.trkType n = 1 then s.get (TRK_SRCA.SINCV n) == c || s.get (TRK_SRCA.COSCV n) == c
  else if s.trkType n = 4 then
    s.get (TRK_SRCA.CVA n) == c || s.get (TRK_SRCA.CVB n) == c || s.get (TRK_SRCA.CVC n) == c
  else false

/-- A drive whose slice, track or trip route uses converter `c` (05). -/
def State.cvDrives (s : State) (c p : Nat) : Bool :=
  (List.range 16).any (fun n =>
    s.sliceNames n p && (List.range 4).any (fun k => s.on (SLC_IN.EN n k) && s.get (SLC_IN.CV n k) == c)) ||
  (List.range 16).any (fun n => s.trkUsesCv n c && s.trkDrives n p) ||
  s.routeDrives (54 + c / 2) p

/-- Bit `i` differs. -/
def differ (x y : Word) (i : Nat) : Bool := x.getLsbD i != y.getLsbD i

/-- The register word at `a` holds cold fields that affect the drive of pair `p`, judged in `s`, where a
write changes the word from `old` to `new` (03, 05, 06, 07). A port setting affects every drive (R46). DESIGN CHOICE,
since the spec names no drives for them: the ring settings of ETH affect every drive, `MEMC_CFG` none, and `EXCk_CTRL`
those of the resolver tracks whose SRCA.EXC names the generator. -/
def State.drives (s : State) (a : Nat) (old new : Word) (p : Nat) : Bool :=
  let o := a % 0x100000
  if a < 0x30100000 then
    if o < 0x1000 then s.trkDrives (o / 0x100) p
    else (List.range 16).any (fun n =>
      s.trkType n == 1 && s.get (TRK_SRCA.EXC n) == (o - 0x1000) / 0x10 && s.trkDrives n p)
  else if a < 0x30200000 then false
  else if a < 0x30300000 then
    if o < 0x2000 then s.cvDrives (o / 0x100) p
    else if o < 0x3000 then
      let k := (o - 0x2000) / 0x10
      s.cvDrives (2 * k) p || s.cvDrives (2 * k + 1) p
    else s.routeDrives ((o - 0x3000) / 0x10) p
  else if a < 0x30400000 then s.sliceNames (if o < 0x8000 then o / 0x400 else (o - 0x8000) / 0x800) p
  else if a < 0x30500000 then
    let grp := s.get (GOU_PAIR_CFG.GRP p)
    if o < 0x1000 then o / 0x40 == p
    else if a = GOU_POL_LO.adr then decide (p < 16) && (differ old new (2 * p) || differ old new (2 * p + 1))
    else if a = GOU_POL_HI.adr then
      decide (16 ≤ p) && (differ old new (2 * (p - 16)) || differ old new (2 * (p - 16) + 1))
    else if a = GOU_TRIN_CFG.adr then
      (List.range 4).any (fun j =>
        fieldOf old (8 * j + 7) (8 * j) != fieldOf new (8 * j + 7) (8 * j) && s.routeDrives (32 + j) p)
    else if a = GOU_RTRIP.adr then decide ((fieldOf old 15 8 ^^^ fieldOf new 15 8) &&& grp ≠ 0)
    else (List.range 4).any (fun j => decide (fieldOf (s.rd a) (8 * j + 7) (8 * j) &&& grp ≠ 0))
  else if 0x30900000 ≤ a ∧ a < 0x30A00000 then true
  else false

/-- A change of cold bits at `a` to word `new` meets an armed drive, judged before and after it (R16). -/
def State.coldHit (s : State) (a : Nat) (new : Word) : Bool :=
  let old := s.rd a
  let t := s.wr a new
  (List.range 32).any (fun p => s.pairState p == pRun && (s.drives a old new p || t.drives a old new p))

end Sys2Proof.Machine
end

