-- ==== Sys2Proof/Machine/Items.lean ====
section
/-!
DEFINITION. Machine/Items.lean: what follows a change of a register word (03 to 07), the pending bank (R79 to R84), and
its switch (R85, R86).
-/
namespace Sys2Proof.Machine

/-! ### What follows a change of a register word -/

/-- A word of the TRK region has changed (R99, R105, R139, R644, R645). A switch that changes the control words of a
track is `trkSwitch`'s. -/
def State.trkHook (s : State) (a : Nat) (old : Word) (sw : Bool) : State :=
  let n : Fin 16 := Fin.ofNat 16 ((a - 0x30000000) / 0x100)
  let o := a % 0x100
  if 0x30001000 ≤ a then s
  else if o = 0x20 then (if sw then s else s.trkCtrlNote n old (s.rd (TRK_SRCA.adr n)))
  else if o = 0x30 then (if sw then s else s.trkCtrlNote n (s.rd (TRK_CTRL.adr n)) old)
  else if o = 0x2C then s.trkOffsChanged n
  else if o = 0x38 ∨ o = 0x3C then s.trkClkincChanged n
  else s

/-- A word of the CNV region has changed (R187, R197, R198, R648). A switch that changes the words of a comparator is
`cmpSwitch`'s. -/
def State.cnvHook (s : State) (a : Nat) (old : Word) (sw : Bool) : State :=
  let o := a - 0x30200000
  if o < 0x2000 then
    let n : Fin 24 := Fin.ofNat 24 (o / 0x100)
    if o % 0x100 = 8 ∧ old.getLsbD 0 ∧ !s.on (CV_CFG.EN n) then s.cvStop n else s
  else if 0x3000 ≤ o ∧ !sw then
    let m : Fin 32 := Fin.ofNat 32 ((o - 0x3000) / 0x10)
    if o % 0x10 = 0 then s.cmpChanged m old (s.rd (CMP_THR.adr m)) (s.now + 1)
    else if o % 0x10 = 4 then s.cmpChanged m (s.rd (CMP_CFG.adr m)) old (s.now + 1)
    else s
  else s

/-- A word of the SLC region has changed (R203, R204). -/
def State.slcHook (s : State) (a : Nat) : State :=
  let o := a - 0x30300000
  let n : Fin 16 := Fin.ofNat 16 (o / 0x400)
  let k := o % 0x400
  if 0x4000 ≤ o then s
  else if k = 8 ∧ s.get (SLC_TRIG.MODE n) = 2 then s.timerStart n
  else if 0x10 ≤ k ∧ k < 0x20 ∧ !s.on (SLC_IN.EN n ((k - 0x10) / 4)) then s.portOff n (Fin.ofNat 4 ((k - 0x10) / 4))
  else s

/-- The register word at `a` has changed from `old`, by a write or, with `sw`, at a switch (03, 05, 06, 07). -/
def State.regHook (s : State) (a : Nat) (old : Word) (sw : Bool) : State :=
  if s.rd a = old then s
  else if 0x30000000 ≤ a ∧ a < 0x30100000 then s.trkHook a old sw
  else if 0x30200000 ≤ a ∧ a < 0x30300000 then s.cnvHook a old sw
  else if 0x30300000 ≤ a ∧ a < 0x30400000 then s.slcHook a
  else if 0x30400000 ≤ a ∧ a < 0x30400800 ∧ a % 0x40 = 4 then s.phaseStep (Fin.ofNat 32 ((a - 0x30400000) / 0x40)) old
  else s

/-! ### The pending bank (R79 to R81) -/

/-- What an item holds while it is not staged. -/
def noItem (_ : Nat) : Word × Word := (0, 0)

/-- The staged bits of item `a` and their values. -/
def State.staged (s : State) (a : Nat) : Word × Word := SMap.get noItem s.bank a

/-- Stage the bits `m` of `w` for item `a` (R80). -/
def State.stage (s : State) (a : Nat) (m w : Word) : State :=
  let old := s.staged a
  { s with bank := SMap.set noItem s.bank a (old.1 ||| m, blend m old.2 w &&& (old.1 ||| m)) }

/-- The type of track `n` after a switch of the bank. -/
def State.typeAfter (s : State) (n : Nat) : Nat :=
  let e := s.staged (TRK_CTRL.adr n)
  let ty := fieldOf (blend e.1 (s.rd (TRK_CTRL.adr n)) e.2) 3 1
  if ty = 7 then s.trkType n else ty

/-- An item as its merge into the active word gives it. Bits of the source words of a track count as reserved by the type
that the track has after the switch (DESIGN CHOICE: R12 and R140 do not say which type decides where a commit changes it
too). -/
def State.itemWord (s : State) (e : Nat × (Word × Word)) : Word :=
  s.settleAs s.typeAfter e.1 (blend e.2.1 (s.rd e.1) e.2.2)

/-- The active word at `a` as a read of the item shows it. -/
def State.activeWord (s : State) (a : Nat) : Word :=
  if 0x30000000 ≤ a ∧ a < 0x30001000 ∧ a % 0x100 = 0x30 then s.rd a &&& srcaMask (s.trkType ((a - 0x30000000) / 0x100))
  else if 0x30000000 ≤ a ∧ a < 0x30001000 ∧ a % 0x100 = 0x34 then s.rd a &&& srcbMask (s.trkType ((a - 0x30000000) / 0x100))
  else if 0x30001000 ≤ a ∧ a < 0x30001080 then
    let k := (a - 0x30001000) / 0x10
    withField (s.rd a) 1 1 (if s.excRange k then 1 else 0)
  else if 0x30108000 ≤ a ∧ a < 0x3010C000 then s.almRead a
  else s.rd a

/-- The word of item `a` as `STAGE_READ` of the pending bank shows it: the staged fields over the active word (R80). -/
def State.pendingWord (s : State) (a : Nat) : Word :=
  let e := s.staged a
  let w := blend e.1 (s.activeWord a) e.2
  if 0x30000000 ≤ a ∧ a < 0x30001000 ∧ a % 0x100 = 0x30 then w &&& srcaMask (s.typeAfter ((a - 0x30000000) / 0x100))
  else if 0x30000000 ≤ a ∧ a < 0x30001000 ∧ a % 0x100 = 0x34 then w &&& srcbMask (s.typeAfter ((a - 0x30000000) / 0x100))
  else w

/-- A staged cold item would change the active value of a cold field that affects an armed drive (R84). -/
def State.bankCold (s : State) : Bool :=
  s.bank.any (fun e => match fieldsAt e.1 with
    | some l =>
      let new := s.itemWord e
      decide ((s.rd e.1 ^^^ new) &&& accMask l .cd ≠ 0) && s.coldHit e.1 new
    | none => false)

/-! ### The switch (R85, R86) -/

/-- Items that act at a switch even where their value is the active one (R179, R186, R231). -/
def State.itemActs (s : State) (a : Nat) : State :=
  let o := a % 0x100000
  if 0x30200000 ≤ a ∧ a < 0x30202000 then
    let n : Fin 24 := Fin.ofNat 24 (o / 0x100)
    if o % 0x100 = 0x14 then s.seqCommitted n else if o % 0x100 = 0x10 then s.avgCommitted n else s
  else if 0x30300000 ≤ a ∧ a < 0x30304000 ∧ 0x100 ≤ o % 0x400 ∧ o % 0x400 < 0x180 then
    s.refOverruled (Fin.ofNat 16 (o / 0x400)) ((o % 0x400 - 0x100) / 4)
  else s

/-- The word at `a` before a switch that replaced the words `olds`. -/
def State.before (s : State) (olds : List (Nat × Word)) (a : Nat) : Word :=
  match olds.find? (fun (y : Nat × Word) => y.1 == a) with
  | some y => y.2
  | none => s.rd a

/-- A switch has replaced control words of tracks (R139, R644, R645). -/
def State.trkSwitch (s : State) (olds : List (Nat × Word)) : State :=
  (List.finRange 16).foldl (fun (s : State) (n : Fin 16) =>
    let c0 := s.before olds (TRK_CTRL.adr n)
    let a0 := s.before olds (TRK_SRCA.adr n)
    let c1 := s.rd (TRK_CTRL.adr n)
    let a1 := s.rd (TRK_SRCA.adr n)
    if c0 = c1 ∧ a0 = a1 then s else s.trkCtrlChanged n c0 a0 c1 a1) s

/-- A switch has replaced words of comparators (R197, R198, R648). -/
def State.cmpSwitch (s : State) (olds : List (Nat × Word)) : State :=
  (List.finRange 32).foldl (fun (s : State) (m : Fin 32) =>
    let c0 := s.before olds (CMP_CFG.adr m)
    let t0 := s.before olds (CMP_THR.adr m)
    if c0 = s.rd (CMP_CFG.adr m) ∧ t0 = s.rd (CMP_THR.adr m) then s else s.cmpChanged m c0 t0 s.now) s

/-- Addresses of Almanac entry words. -/
def isAlmWord (a : Nat) : Bool := decide (0x30108000 ≤ a ∧ a < 0x3010C000)

/-- Every item of the bank becomes active, and the bank empties (R86). The blocks see the changes once all words are in
place. -/
def State.switchBank (s : State) : State :=
  let items := s.bank
  let rest := items.filter (fun (e : Nat × (Word × Word)) => !isAlmWord e.1)
  let olds := rest.map (fun (e : Nat × (Word × Word)) => (e.1, s.rd e.1))
  let alm := (items.filter (fun (e : Nat × (Word × Word)) => isAlmWord e.1)).map
    (fun (e : Nat × (Word × Word)) => (e.1, s.itemWord e))
  let t := rest.foldl (fun (t : State) (e : Nat × (Word × Word)) => t.wr e.1 (t.itemWord e)) ({ s with bank := [] } : State)
  let t := ((t.almSwitch alm).trkSwitch olds).cmpSwitch olds
  let t := olds.foldl (fun (t : State) (x : Nat × Word) => t.regHook x.1 x.2 true) t
  items.foldl (fun (t : State) (e : Nat × (Word × Word)) => t.itemActs e.1) t

/-- The final reply of a commit that switched in cycle `t` (R82, R89). -/
def State.commitDone (s : State) (t : Nat) : State :=
  ({ s with commit := none } : State).finishAll 0x0102 0
    (beBytes 2 s.epoch.toNat ++ List.replicate 6 0#8 ++ beBytes 8 (s.ptpOf t))

/-- The present cycle is the switch cycle of commit `c` (R86, R322). -/
def State.switchNow (s : State) (c : CommitSt) : State :=
  let split : Option SplitCheck :=
    if c.flags.testBit 1 then some { epoch := c.epoch, time := c.arg, members := c.parts } else s.split
  let s := { s.switchBank.signal 0x1E1 with epoch := c.epoch, split := split }
  if c.flags.testBit 0 then { s with commit := some { c with switched := true, switchAt := some s.now } }
  else s.commitDone s.now

/-- The run of slice `n` ends in the present cycle, if nothing abandons it (R200). -/
def State.periodEnds (s : State) (n : Fin 16) : Bool :=
  let x := s.slc[n]
  x.periodEnd == s.now && !s.on (SLC_STAT.TWIN n) && (x.run.isSome || x.lastStart == some s.now)

/-- The boundary that commit `c` names has come (R85): boundary 0 and, once its crossing is known, 2 by the cycle that is
set; 1 in the period end of the slice; 3 in the first cycle at or after its time. A two-phase commit waits for its
decision (R320). -/
def State.boundaryHere (s : State) (c : CommitSt) : Bool :=
  match c.switchAt with
  | some t =>
    if c.bound = 3 then decide (c.accepted < s.now) && decide (c.arg ≤ s.ptp) else decide (t ≤ s.now)
  | none => c.bound == 1 && decide (c.accepted < s.now) && s.periodEnds (Fin.ofNat 16 (c.arg / 2 ^ 56))

/-- The switch of the pending commit happens in its switch cycle, which lies within its timeout (R85 to R87). -/
def State.switchDue (s : State) : State :=
  match s.commit with
  | some c => if !c.switched && decide (s.now ≤ c.limit) && s.boundaryHere c then s.switchNow c else s
  | none => s

end Sys2Proof.Machine
end

