-- ==== Sys2Proof/Machine/Reset.lean ====
section
/-!
DEFINITION. Machine/Reset.lean: what a reset of each domain leaves (19, R509, R613, R615), and what a return
from H3 or H4 loses.
-/
namespace Sys2Proof.Machine

/-! ### Sessions end (R60, R328, R390) -/

/-- The injection of port `p` is cleared (R328); a held frame is released first. -/
def State.injClear (s : State) (p : Fin 2) : State :=
  ((s.releaseHeld p).set (RING_INJ.ACTIVE p) 0 |>.set (RING_INJ.KIND p) 0).set (RING_INJ.LEFT p) 0

/-- The session with a tag closes: debug that it unlocked is locked (R390), and in DEPLOYED the injections
that it set are cleared (R328). -/
def State.closeSession (s : State) (tag : Word) : State :=
  let s := { s with sessions := s.sessions.filter (fun x => x.tag != tag) }
  let s := if s.openBy = some tag then { s with openBy := none }.set SEC_DBG.OPEN 0 else s
  if s.lcs = .deployed then
    [0, 1].foldl (fun (s : State) (p : Fin 2) => if (s.inj[p]).owner = tag then s.injClear p else s) s
  else s

/-- Every session closes. -/
def State.closeAll (s : State) : State :=
  s.sessions.foldl (fun (s : State) (x : Session) => s.closeSession x.tag) s

/-! ### Commands that lose their answer -/

/-- Commands passed to firmware and not answered get INTERNAL_FAULT, and FCODE says why (R615). -/
def State.failWaiting (s : State) : State :=
  if s.waiting.isEmpty then s
  else
    let s := s.waiting.foldl (fun (s : State) (w : Waiting) => s.finish w 0x0F00 []) s
    if s.fcode = 0x0F01 then s else { s with fcode := 0x0F02 }

/-! ### Domains -/

/-- The levels of `GOU_POL` are latched from `STRAP_GPOL` (R241, R612). -/
def State.latchPol (s : State) : State :=
  let w : Word := if s.ao.gpol then 0xFFFFFFFF else 0
  (s.wr GOU_POL_LO.adr w).wr GOU_POL_HI.adr w

/-- The cores of the fast domain restart at the boot ROM; MGT1 waits for its release (R469, 19). -/
def State.restartCores (s : State) : State :=
  { s with
    core := (((s.core.set 0 (CoreSt.reset false)).set 1 (CoreSt.reset false)).set 2
      (CoreSt.reset false)).set 3 (CoreSt.reset true),
    locked := Vector.replicate 2 false }

/-- The on-die SRAM of the fast domain loses its contents (R470, R505). -/
def State.loseFastSram (s : State) : State :=
  { s.clearMem 0x20000000 0x28180000 with upset := SMap.keep (fun a => decide (a < 0x20000000) || decide (0x28180000 ≤ a)) s.upset }

/-- Every gate pair is OFF, its outputs inactive (R242, R509). -/
def State.pairsOff (s : State) : State :=
  (List.finRange 32).foldl (fun (s : State) (p : Fin 32) =>
    (s.set (GOU_PAIR_STAT.STATE p) pOff).set (GOU_PAIR_STAT.HCMD p) 0)
    { s with pair := Vector.replicate 32 PairSt.reset }

/-- Errors in the words from `lo` to `hi - 1` are gone with their contents. -/
def State.clearUpset (s : State) (lo hi : Nat) : State :=
  { s with upset := SMap.keep (fun a => decide (a < lo) || decide (hi ≤ a)) s.upset }

/-- What is due and does not belong to the fast domain. -/
def dueBeyondFast (d : Due) : Bool :=
  match d.act with
  | .descend k => k != 0
  | .aoTask _ => true
  | _ => false

/-- A reset of the fast domain (R509, R613, R615): registers, block state and SRAM are as after power-up;
a commit that waits is lost, and the active epoch is 0 until a configuration is restored (DEDUCED). -/
def State.resetFast (s : State) : State :=
  let s := s.failWaiting
  let s := ((s.clearRegs 0x30000000 0x30800000).clearRegs 0x30A00000 0x30C00000).clearRegs 0x40010200 0x40010400
  let s := ((s.clearUpset 0x30000000 0x30C00000).clearUpset (2 ^ 40) (2 ^ 41)).loseFastSram.restartCores
  { s with
    bank := [], arrived := s.arrived.filter (fun a => decide (0xC0 ≤ a.task)), evtAt := SMap.keep (fun t => decide (0xC0 ≤ t)) s.evtAt,
    raised := (0, []), trk := Vector.replicate 16 TrkSt.reset, alm := Vector.replicate 16 AlmSt.reset,
    almc := AlmCycle.reset, cv := Vector.replicate 24 CvSt.reset, cmp := Vector.replicate 32 CmpSt.reset,
    slc := Vector.replicate 16 SliceSt.reset, stops := 0, dues := s.dues.filter dueBeyondFast,
    pair := Vector.replicate 32 PairSt.reset, gen := false, lockLow := false, chan := Vector.replicate 16 ChanSt.reset,
    commit := none, epoch := 0, grn := GrnSt.reset,
    openBy := none, puts := Vector.replicate 2 none, prov := [], restored := false,
    wdog := { since := 0, expired := none }, pll := { holdAt := 0, waitHrc := false, undo := none },
    uart := (s.uart.set 2 UartSt.reset).set 3 UartSt.reset,
    meter := s.meter.map (fun m => { m with prev := none }) }

/-- LPDDR6 loses its contents, with the errors in it (R343). -/
def State.clearDram (s : State) : State :=
  (s.clearMem 0x1000000000 0x3000000000).clearUpset 0x1000000000 0x3000000000

/-- A reset of the memory domain (R505, R509): LPDDR6 and with it a frozen record are lost (R343). -/
def State.resetMem (s : State) : State := (s.clearRegs 0x30800000 0x30900000).clearDram

/-- LPDDR6 content is lost, and with it the record it holds (R343); a freeze that a command armed cannot come
(DESIGN CHOICE: NOT_IN_MODE). -/
def State.loseDram (s : State) : State :=
  ({ s.clearDram with grn := GrnSt.reset }.set GRN_STAT.STATE gIdle).finishAll 0x0303 0x0201 []

/-- A reset of the link domain (R56, R60, R300, R328): sessions, kept replies, heartbeats, the address and
the window's own state are gone, and PTP time restarts at 0. Commands that wait lose their answer. It lasts until the
boot ROM releases it (R44, R620). -/
def State.resetLink (s : State) : State :=
  let s := s.closeAll
  let s := s.clearRegs 0x30900000 0x30A00000
  { s with
    port := Vector.replicate 2 PortLink.reset, upstream := 0, addr := none, linkFree := false,
    tx := Vector.replicate 2 TxSt.reset,
    dues := s.dues.filter (fun d => d.act != DueAct.ringRx true && d.act != DueAct.ringRx false),
    ptpAdj := -(16 * s.now : Int), devSeq := Vector.replicate 5 0, inj := Vector.replicate 2 InjSt.reset,
    tripTx := [], waiting := [], replies := [], kept := [], credits := 16, nocred := 0, fcode := 0,
    scratch := 0, ptpOff := false, ptpGood := 0, hbs := [], split := none, tripSeen := [],
    wdog := { s.wdog with expired := none } }

/-- LK words of the ledger and the purse: the provisioning record gives them back at every start of the
always-on domain (R363, R610). -/
def lkWord (a : Nat) : Bool :=
  decide (0x40050040 ≤ a ∧ a < 0x40050060) || decide (0x40050100 ≤ a ∧ a < 0x40050114) ||
    a == LGR_PM_CFG.adr || decide (0x40040014 ≤ a ∧ a < 0x40040020)

/-- Words of the always-on domain that a restart keeps (R504, R613): calendar, XO32, ledger indices,
votes, hold levels, mode, reset causes, and what the provisioning record gives back. -/
def keptWord (a : Nat) : Bool :=
  decide (0x40000000 ≤ a ∧ a < 0x40010000) || lkWord a || a == APM_CLK.adr ||
    a == LGR_NEWEST.adr || a == LGR_OLDUNACK.adr || a == LGR_ACKED.adr || a == LGR_PM_CNT.adr ||
    a == APM_MODE.adr || decide (0x40060010 ≤ a ∧ a < 0x4006001C) || a == APM_HOLD.adr || a == APM_RSTCAUSE.adr

/-- The always-on domain is as after a reset (R504, R610, R613). `full` says that it had no supply, or
restarts for good: then the calendar, XO32 and the ledger's own state start afresh too (R377, R555); the
meter totals are rebuilt by recovery. -/
def State.resetAo (s : State) (full : Bool) : State :=
  let xo := s.on APM_CLKSTAT.XORDY
  let seen := s.on LGR_STAT.FIELDSEEN
  let lrc := s.get RTC_STAT.LRC
  let gone (a : Nat) : Bool := decide (0x40000000 ≤ a ∧ a < 0x40010200) || decide (0x40010400 ≤ a ∧ a < 0x40070000)
  let s := { s with reg := SMap.keep (fun a => !gone a || (if full then lkWord a else keptWord a)) s.reg }
  let s := { s with
    core := s.core.set 4 (CoreSt.reset false), aoWait := [], dues := s.dues.filter (fun d => match d.act with
      | .aoTask _ => false
      | _ => true),
    evtAt := SMap.keep (fun t => decide (t < 0xC0)) s.evtAt, brcAt := none,
    uart := (s.uart.set 0 UartSt.reset).set 1 UartSt.reset, tch := TouchSt.reset, lcd := LcdSt.reset,
    ao := { s.ao with warned := false, reserved := Vector.replicate 4 0, toField := false },
    arrived := s.arrived.filter (fun a => decide (a.task < 0xC0)) }
  if full then
    { s with cal := CalSt.reset, lgr := { LgrSt.reset with recovered := false } }
  else
    let s := (s.set APM_CLKSTAT.XORDY (if xo then 1 else 0)).set RTC_STAT.LRC lrc
    s.set LGR_STAT.FIELDSEEN (if seen then 1 else 0)

end Sys2Proof.Machine
end

