-- ==== Sys2Proof/Machine/Domains.lean ====
section
/-!
DEFINITION. Machine/Domains.lean: votes, descents and returns of the switched domains, mode requests, wake
sources (15), and the stopping of blocks (R525).
-/
namespace Sys2Proof.Machine

/-! ### Blocks of the fast domain (R525, R526) -/

/-- The Almanac's clock enable is set again: every frontier goes to its track's position (R166). -/
def State.almRestart (s : State) : State :=
  (List.finRange 16).foldl (fun s (n : Fin 16) =>
    { s with alm := s.alm.set n { s.alm[n] with frontier := (s.trk[n]).pos } }) s

/-- Block `b` has completed its work in flight (R166, R187, R238, R271, R357). -/
def State.blockIdle (s : State) (b : Nat) : Bool :=
  if b = blkALM then (List.finRange 16).all (fun (n : Fin 16) => (s.alm[n]).queue.isEmpty)
  else if b = blkCNV then (List.finRange 24).all (fun (n : Fin 24) => (s.cv[n]).flight.isEmpty)
  else if b = blkSLC then
    (List.finRange 16).all (fun (n : Fin 16) =>
      (s.slc[n]).run.isNone && (s.slc[n]).trigs.isEmpty && decide ((s.slc[n]).stopAt ≤ s.now)) &&
    s.dues.all (fun d => match d.act with
      | .transfer _ => false
      | .slcSafe _ => false
      | _ => true)
  else if b = blkGOU then (List.range 32).all (fun p => s.pairState p == pOff)
  else if b = blkGRN then s.grn.queue.isEmpty
  else true

/-- The clock of block `b` stops once it is idle (R525). -/
def State.clockDown (s : State) (b : Nat) : State :=
  if s.blockIdle b then { s with stops := setBit s.stops b false }.setBitOf CPM_CLKRUN.BLOCKS b false
  else { s with stops := setBit s.stops b true }

/-- Block `b` takes no new work and stops as soon as it can (R525). -/
def State.stopBlock (s : State) (b : Nat) : State :=
  let s := if b = blkCNV then (List.finRange 24).foldl (fun (s : State) (n : Fin 24) => s.cvStop n) s
    else if b = blkSLC then
      (List.finRange 16).foldl (fun (s : State) (n : Fin 16) =>
        if s.on (SLC_CTRL.EN n) then s.slcStop n else s) s
    else if b = blkGRN then s.grnFreeze 4
    else s
  s.clockDown b

/-- The clock of block `b` starts (R526). -/
def State.startBlock (s : State) (b : Nat) : State :=
  let s := { s with stops := setBit s.stops b false }.setBitOf CPM_CLKRUN.BLOCKS b true
  if b = blkALM then s.almRestart
  else if b = blkSLC then (List.finRange 16).foldl (fun (s : State) (n : Fin 16) => s.timerStart n) s
  else s

/-- The blocks that have their clock stop (R508). -/
def State.stopBlocks (s : State) : State :=
  (List.range 10).foldl (fun (s : State) (b : Nat) => if s.runs b then s.stopBlock b else s) s

/-- Blocks that have become idle stop their clocks (R525). -/
def State.settleBlocks (s : State) : State :=
  if s.stops = 0 then s
  else (List.range 10).foldl (fun (s : State) (b : Nat) => if s.stops.testBit b then s.clockDown b else s) s

/-- The enabled blocks without clock start. -/
def State.startBlocks (s : State) : State :=
  (List.range 10).foldl (fun (s : State) (b : Nat) =>
    if s.bit CPM_CLKEN.BLOCKS b && !s.runs b then s.startBlock b else s) s

/-! ### Votes (R498, R499, R506, R508) -/

/-- Update domain `d`. -/
def State.modDom (s : State) (d : Fin 3) (f : DomSt → DomSt) : State := { s with dom := s.dom.set d (f s.dom[d]) }

/-- The configured hold level of domain `d` (15, `APM_HOLD`). -/
def State.holdLevel (s : State) (d : Fin 3) : Nat :=
  let v := s.get (if d = 0 then APM_HOLD.FAST else if d = 1 then APM_HOLD.MEM else APM_HOLD.LINK)
  if v = 0 then 1 else if 5 < v then 5 else v

/-- Domain `d` is held at H0 by its votes: outside Barn by any, in Barn the fast domain by any and the link
domain by WAKE only (R499, R506). -/
def State.wanted (s : State) (d : Fin 3) : Bool :=
  decide (s.mode ≠ mCellar) && decide (s.rd (APM_VOTE.adr d) ≠ 0) &&
    (d == 0 || decide (s.mode ≠ mBarn) || (d == 2 && s.on (APM_VOTE.WAKE 2)))

/-- Domain `d` may leave its hold level: supplies in range, always-on domain started (R500, R609, R610). -/
def State.mayRise (s : State) (d : Fin 3) : Bool :=
  s.ao.vsys && (s.dom[d]).powered && decide (s.ao.phase = .on)

/-- The votes of domain `d` are acted on: it begins to return, begins its descent, or keeps from it when a
vote is cast in the cycle of the withdrawal (R502, R508). The charger-noise latch clears as the fast domain
leaves H0 (R595). -/
def State.domainVote (s : State) (d : Fin 3) : State :=
  let x := s.dom[d]
  if s.wanted d then
    if x.phase = .down ∧ s.mayRise d then s.modDom d (fun x => { x with phase := .returning, since := s.now })
    else if x.phase = .descending ∧ x.since = s.now then
      let s := s.modDom d (fun x => { x with phase := .up })
      let s := { s with dues := s.dues.filter (fun e => e.act != DueAct.descend d) }
      if d = 0 ∧ s.mode = mField ∧ !s.on (APM_VOTE.FIELD 0) then s.modeTo mYard else s
    else s
  else if x.phase = .up then
    let s := s.modDom d (fun x => { x with phase := .descending, since := s.now })
    let s := if d = 0 then s.set TCH_STAT.CNTASK 0 else s
    { s with dues := s.dues ++ [{ cycle := s.now + 1, act := .descend d }] }
  else s

/-- The votes of the three domains are acted on. -/
def State.domainVotes (s : State) : State := ((s.domainVote 0).domainVote 1).domainVote 2

/-- The cycle after a descent began: the fast domain's blocks stop and the device enters Barn; the Granary
freezes when the memory domain descends (R357, R500, R508). -/
def State.descendDue (s : State) (d : Fin 3) : State :=
  if (s.dom[d]).phase = .descending then
    if d = 0 then
      let s := s.stopBlocks
      (if s.mode = mField ∨ s.mode = mYard then s.dropField.modeTo mBarn else s).domainVotes
    else if d = 1 then s.grnFreeze 4
    else s
  else s

/-- The ready flag of a reference: 0 LREFA, 1 LREFB, 2 HRC. -/
def readyFlag (r : Nat) : Fld :=
  if r = 0 then CPM_CLK_STAT.LREFARDY else if r = 1 then CPM_CLK_STAT.LREFBRDY else CPM_CLK_STAT.HRCRDY

/-- The loop enters holdover (R518, R519). -/
def State.holdover (s : State) : State :=
  let s := ((s.set CPM_CLK_STAT.HOLD 1).set CPM_CLK_STAT.LOCK 0).set CPM_CLK_STAT.SLEW 0
  { s with pll := { s.pll with holdAt := s.now } }

/-- The switch to the present reference was requested in this cycle, and the reference is lost in it: the request is
refused, and reference, holdover and slewing go on unchanged (R516, R519). -/
def State.switchUndo (s : State) (u : PllUndo) : State :=
  let s := (s.set CPM_CLK_CTRL.SRC u.src).set CPM_CLK_STAT.LOCK u.lock
  let s := ((s.set CPM_CLK_STAT.SLEW u.slew).set CPM_CLK_STAT.HOLD u.hold).raise CPM_CLK_STAT.SWREF
  { s with pll := { s.pll with waitHrc := u.waitHrc, undo := none } }

/-- The recovered clock of port `p` ceases to be ready (R516, R518, R519). -/
def State.clockLost (s : State) (p : Fin 2) : State :=
  let s := { s with port := s.port.set p { s.port[p] with clock := false } }
  if s.fastUp then
    let s := s.set (readyFlag p) 0
    if s.get CPM_CLK_CTRL.SRC = p ∧ !s.on CPM_CLK_STAT.HOLD then
      match s.pll.undo with
      | some u => if u.cycle = s.now then s.switchUndo u else s.holdover
      | none => s.holdover
    else s
  else s

/-- The links go down with their domain (R505): what waits for transmission is lost, and neither recovered clock is ready,
so that the domain's ready signals into the fast domain are inactive, as the clamps of H3 to H5 ask (R33, R518). -/
def State.linksDown (s : State) : State :=
  let s := { s with
    tx := Vector.replicate 2 TxSt.reset,
    port := s.port.map (fun (p : PortLink) => { p with
      up := false, training := false, preempt := false, hears := false }) }
  (s.clockLost 0).clockLost 1

/-- What MEMC has the SDRAM do at level `l` of the memory domain, and whether its training holds (R342, R505). -/
def State.sdramTo (s : State) (l : Nat) : State :=
  if l ≤ 2 then { s with sdram := { s.sdram with mode := .selfRefresh } }
  else if l = 3 then { s with sdram := { s.sdram with mode := .deepSleep, trained := false } }
  else { s with sdram := { s.sdram with mode := .off, trained := false, reports := 0 } }

/-- The memory domain is back from level `l`: the SDRAM is initialised or trained where it has to be, and works normally,
with `MEMC_CFG` in force since its initialisation (R342, R512). -/
def State.sdramUp (s : State) (l : Nat) : State :=
  let s := { s with sdram := { s.sdram with mode := .normal, trained := true, window := s.now } }
  if 4 ≤ l then { s with memcCfg := s.rd MEMC_CFG.adr } else s

/-- The boot ROM loads the EtherType and the MAC address of the provisioning record and releases the link domain (R44,
R620). -/
def State.linkRelease (s : State) : State :=
  let s := match s.sec.etype with
    | some e => s.set ETH_ETYPE.VALUE e.toNat
    | none => s
  { s with mac := s.sec.mac.getD s.mac, linkFree := true }

/-- The cores of the fast domain restart at the boot ROM, which runs again: FWST is 1 until it has decided (R509, R620;
DEDUCED: R509 keeps the registers, but the code that R620 gives for the boot ROM sets FWST). -/
def State.rebootFast (s : State) : State :=
  ({ s.restartCores with restored := false } : State).set CPM_BOOT.FWST 1

/-- Every comparator that is enabled compares the present level of its input (R647). -/
def State.cmpAll (s : State) : State := (List.finRange 32).foldl (fun (s : State) (m : Fin 32) => s.cmpEval m) s

/-- Domain `d` has reached level `l`: what it cannot hold is lost (R343, R505, R509). -/
def State.arriveAt (s : State) (d : Fin 3) (l : Nat) : State :=
  let s := s.modDom d (fun x => { x with phase := .down, level := l })
  if d = 0 then
    let s := s.energyBreak.set TCH_STAT.CNTASK 0
    if l = 5 then s.resetFast
    else if 3 ≤ l then (s.loseFastSram.pairsOff).rebootFast else s
  else if d = 1 then
    let s := (if 4 ≤ l then s.loseDram else s).sdramTo l
    if l = 5 then s.resetMem else s
  else
    let s := s.linksDown
    if l = 5 then s.resetLink else s

/-- `DOMAIN_DESCENT_COMPLETE` without the passing of time (R508, R526). -/
def State.descentDone (s : State) (d : Fin 3) : State :=
  if (s.dom[d]).phase = .descending then
    if (d = 0 ∧ s.rd CPM_CLKRUN.adr ≠ 0) ∨ (d = 1 ∧ !s.grn.queue.isEmpty) then s
    else (s.arriveAt d (s.holdLevel d)).domainVotes
  else s

/-- The fast domain returns on HRC: `PLL_LOOP` is locked to it (R512, R515). -/
def State.returnOnHrc (s : State) : State :=
  let s := ((s.set CPM_CLK_CTRL.SRC 2).set CPM_CLK_STAT.CUR 2).set CPM_CLK_STAT.HRCRDY 1
  let s := ((s.set CPM_CLK_STAT.LOCK 1).set CPM_CLK_STAT.SLEW 0).set CPM_CLK_STAT.HOLD 0
  { s with pll := { s.pll with waitHrc := false } }

/-- The ready flags of the recovered clocks show what the ports have (R515). -/
def State.portClocks (s : State) : State :=
  (s.set CPM_CLK_STAT.LREFARDY (if (s.port[0]).clock then 1 else 0)).set CPM_CLK_STAT.LREFBRDY
    (if (s.port[1]).clock then 1 else 0)

/-- The device enters Field once all three domains are at H0 (R501). -/
def State.enterField (s : State) : State :=
  if s.ao.toField && s.domUp .fast && s.domUp .mem && s.domUp .link then
    let s := { s with ao := { s.ao with toField := false } }
    if s.on CPM_CLK_STAT.LOCK && !s.on CPM_CLK_STAT.HOLD then (s.modeTo mField).finishAll 0x0700 0 []
    else (s.dropField.finishAll 0x0700 0x0201 []).domainVotes
  else s

/-- `DOMAIN_RETURN_COMPLETE`: the domain reaches H0 and releases its clamps (R33, R509, R512). The cycle in which the
fast domain is back from H5 is the first after its reset (R170; DEDUCED). A link domain that was reset while the resident
firmware runs is released at its return (DESIGN CHOICE: R44 and R620 have the boot ROM release it, which does not run
then). -/
def State.returnDone (s : State) (d : Fin 3) : State :=
  let x := s.dom[d]
  if x.phase = .returning ∧ s.mayRise d then
    let s := s.modDom d (fun x => { x with phase := .up, level := 0 })
    let s :=
      if d = 0 then
        let s := if x.level = 5 then { s.latchPol with fastFrom := s.now } else s
        let s := if 2 ≤ x.level then s.returnOnHrc else s
        let s := s.portClocks.startBlocks.cmpAll
        if s.mode = mBarn then s.modeTo mYard else s
      else if d = 1 then s.sdramUp x.level
      else
        let s := if 2 ≤ s.get CPM_BOOT.FWST ∧ !s.linkFree then s.linkRelease else s
        let any := s.port.any (·.woken)
        let rep := any && s.on APM_LWAKE.REPEAT
        { s with port := s.port.map (fun p => { p with
            training := p.woken || !rep, pattern := rep && !p.woken, woken := false }) }
    s.domainVotes.enterField
  else s

/-- Domain `d` goes to H5 at once (R502, R609). -/
def State.dropTo5 (s : State) (d : Fin 3) : State :=
  let s := { s with dues := s.dues.filter (fun e => e.act != DueAct.descend d) }
  s.arriveAt d 5

/-- A reset of the fast domain begins (R613, R649). -/
def State.fastReset (s : State) : State :=
  let s := if s.mode = mField then s.dropField.modeTo mYard else s
  let s := { s with ao := { s.ao with toField := false } }
  (s.dropTo5 0).domainVotes

/-- A reset of the link domain begins (R613). -/
def State.linkReset (s : State) : State := (s.dropTo5 2).domainVotes

/-! ### Mode requests (R500 to R502) -/

/-- Every vote on domain `d` is withdrawn, but those that a client casts in this cycle (R502). -/
def State.dropVotes (s : State) (d : Fin 3) : State :=
  (s.wr (APM_VOTE.adr d) (s.rd (APM_VOTE.adr d) &&& s.setNow (APM_VOTE.adr d))).set (APM_VOTE.FIELD d) 0

/-- A request for mode `m`: the status that a `MODE_REQUEST` answers, none while it waits for Field. -/
def State.modeReq (s : State) (m : Nat) : Option Nat × State :=
  let mode := s.mode
  let refuse (c : Nat) : Option Nat × State := (some c, s.raise APM_MODE.REQREF)
  if m = mField then
    if mode = mField then (some 0, s)
    else if mode ≠ mYard then refuse 0x0201
    else if s.on RING_STAT.VERHOLD then refuse 0x0103
    else if !s.ao.vsys || !s.on CPM_CLK_STAT.LOCK || s.on CPM_CLK_STAT.HOLD then refuse 0x0201
    else
      let s := ((s.raise (APM_VOTE.FIELD 0)).raise (APM_VOTE.FIELD 1)).raise (APM_VOTE.FIELD 2)
      (none, ({ s with ao := { s.ao with toField := true } } : State).domainVotes.enterField)
  else if m = mYard ∨ m = mBarn then
    if s.anyArmed then refuse 0x0201
    else if m = mYard then
      if mode = mField then (some 0, (s.dropField.modeTo mYard).domainVotes)
      else if mode = mYard then
        if s.ao.toField then
          let s := { s with ao := { s.ao with toField := false } }
          (some 0, (s.dropField.finishAll 0x0700 0x0201 []).domainVotes)
        else (some 0, s)
      else refuse 0x0201
    else if mode = mField ∨ mode = mYard then
      let s := { s with ao := { s.ao with toField := false } }.finishAll 0x0700 0x0201 []
      let s := ((s.dropVotes 0).dropVotes 1).dropVotes 2
      (some 0, (if s.mode = mField && s.wanted 0 then s.modeTo mYard else s).domainVotes)
    else if mode = mBarn then (some 0, s) else refuse 0x0201
  else (some 0x0102, s)

/-! ### Wake sources (R511) -/

/-- Wake source `i` fires (R511); in Cellar only source 10 acts. -/
def State.wakeFire (s : State) (i : Nat) : State :=
  if s.mode = mCellar ∧ i ≠ 10 then s
  else
    let s := if i ≤ 1 ∨ i = 9 ∨ i = 10 then s.raiseBit EVF_AO_PEND.PEND 6 else s
    if s.bit APM_WAKE_EN.SRC i then
      let s := ((s.raiseBit APM_WAKE_STAT.SRC i).wakeBrc).wakeAoc
      if s.bit APM_WAKE_UP.SRC i then
        ((s.raise (APM_VOTE.WAKE 0)).raise (APM_VOTE.WAKE 2)).domainVotes
      else s
    else s

end Sys2Proof.Machine
end

