-- ==== Sys2Proof/Machine/Time.lean ====
section
/-!
DEFINITION. Machine/Time.lean: the passing of loop cycles: what the hardware does by itself in each of them, in the order
in which it does it, and the cycles in which nothing happens.
-/
namespace Sys2Proof.Machine

/-! ### What falls due -/

/-- Act on what falls due in the present cycle. -/
def State.dueAct (s : State) : DueAct → State
  | .sample n t => s.cvTake n t
  | .transfer n => s.transfer n
  | .slcSafe n => s.slcSafe n
  | .safeOut p => if s.pairState p = pSafe then s.toSafe p else s
  | .outsOff p => s.outsOff p
  | .offState p => s.offState p
  | .signal sig => s.signal sig
  | .eventBit task => s.coreEvent task
  | .aoTask task => s.aoTask task
  | .ringRx event => if event then (s.raise GOU_RTRIP.RX).signal 0x1E0 else s.raise GOU_RTRIP.RX
  | .descend d => s.descendDue d
  | .window bell val => s.windowDue bell val

/-- Everything that falls due by the present cycle. -/
def State.doDues (s : State) : State :=
  let l := s.dues.filter (fun d => decide (d.cycle ≤ s.now))
  if l.isEmpty then s
  else l.foldl (fun (s : State) (d : Due) => s.dueAct d.act)
    { s with dues := s.dues.filter (fun d => decide (s.now < d.cycle)) }

/-! ### Tasks (R275, R278, R281) -/

/-- The SSI-start tasks of one cycle reach track `n` (R119, R121, R281, R282): the earliest starts the frame, and each at a
later instant is an overrun. -/
def State.ssiTasks (s : State) (n : Fin 16) (l : List Arrival) : State :=
  if s.ssiDrives n then
    let s := s.ssiBegin n true
    if laterInsts l = 0 then s else (s.raise (TRK_FLAGS.SSIOVR n)).taskLost (0x88 + n)
  else if s.trkEn n then s else s.taskLost (0x88 + n)

/-- Capture tasks 0 and 1 of one cycle reach the Granary: task 0 triggers, task 1 freezes; when both come, the freeze
follows the trigger's record (R352, R353). A stopped Granary loses them (R282). -/
def State.captureTasks (s : State) (trig frz : Bool) : State :=
  if !s.runs blkGRN then
    let s := if trig then s.taskLost 0x98 else s
    if frz then s.taskLost 0x99 else s
  else if trig && frz then s.grnTrigFreeze
  else if trig then s.grnTrigger
  else if frz then s.grnFreeze 2
  else s

/-- A mark task reaches the Granary (R355). -/
def State.markTask (s : State) (task : Nat) : State :=
  if s.runs blkGRN then s.grnMark (task - 0x98) else s.taskLost task

/-- Number `n` as an index below `m`. -/
def ixOf (m n : Nat) [NeZero m] : Fin m := Fin.ofNat m n

/-- The deliveries `l` of one cycle of a task reach its consumer (R275). Capture tasks 0 and 1 are `captureTasks`'s. -/
def State.taskActs (s : State) (task : Nat) (l : List Arrival) : State :=
  if task < 0x18 then s.cvSampleTasks (ixOf 24 task) l
  else if task < 0x30 then s.cvSeqTask (ixOf 24 (task - 0x18)) false
  else if task < 0x48 then s.cvSeqTask (ixOf 24 (task - 0x30)) true
  else if task < 0x58 then s.startTasks (ixOf 16 (task - 0x48)) l
  else if task < 0x68 then s.izeroTasks (ixOf 16 (task - 0x58))
  else if task < 0x88 then s.pulseTasks (ixOf 32 (task - 0x68)) l
  else if task < 0x98 then s.ssiTasks (ixOf 16 (task - 0x88)) l
  else if 0x9A ≤ task ∧ task < 0xA0 then s.markTask task
  else s

/-- The tasks that the fast domain takes in the present cycle. -/
def State.arrivedNow (s : State) : List Arrival :=
  s.arrived.filter (fun a => decide (a.task < 0xA0) && decide (a.cycle ≤ s.now))

/-- Every task that has arrived reaches its consumer, in the order of the task numbers. -/
def State.doTasks (s : State) : State :=
  let l := s.arrivedNow
  if l.isEmpty then s
  else
    let s : State := { s with arrived := s.arrived.filter (fun a => !(decide (a.task < 0xA0) && decide (a.cycle ≤ s.now))) }
    let nums := sortBy (fun (x y : Nat) => decide (x < y)) ((l.map (fun (a : Arrival) => a.task)).eraseDups)
    let s := nums.foldl (fun (s : State) (k : Nat) => s.taskActs k (l.filter (fun (a : Arrival) => a.task == k))) s
    s.captureTasks (nums.contains 0x98) (nums.contains 0x99)

/-! ### Scrubbing and refresh (R334, R342) -/

/-- The period of the SRAM scrubbers and of the MRAM scrubber in lc: each makes one pass in the longest time that R334
allows (DESIGN CHOICE). -/
def sramPass : Nat := usLc 100000
def mramPass : Nat := usLc (24 * 3600 * 1000000)

/-- The word at `a` lies in an on-die SRAM whose scrubber runs. -/
def State.sramLive (s : State) (a : Nat) : Bool :=
  (decide (0x41000000 ≤ a ∧ a < 0x41050000) && decide (s.ao.phase = .on) && decide (s.mode ≠ mCellar)) ||
  (decide (0x40000000 ≤ a ∧ a < 0x40070000) && decide (s.ao.phase = .on)) ||
  ((decide (0x20000000 ≤ a ∧ a < 0x28180000) || decide (0x30000000 ≤ a ∧ a < 0x30C00000) || decide (2 ^ 40 ≤ a)) && s.fastUp)

/-- The word at `a` lies in the MRAM array. -/
def inMram (a : Nat) : Bool := decide (0x10000000 ≤ a ∧ a < 0x20000000)

/-- A scrubber reads every word for which `p` holds, and corrects it (R333, R334). -/
def State.scrubPass (s : State) (p : Nat → Bool) : State :=
  (s.upset.filter (fun kv => p kv.1)).foldl (fun (s : State) (kv : Nat × Nat) => s.eccRead kv.1) s

/-- The scrubbers in the present cycle (R334). -/
def State.scrubCycle (s : State) : State :=
  let s := if s.scrub.sram + sramPass ≤ s.now then
      { s.scrubPass s.sramLive with scrub := { s.scrub with sram := s.now } }
    else s
  if mramPass ≤ s.scrub.mram then { s.scrubPass inMram with scrub := { s.scrub with mram := 0 } } else s

/-- At a refresh window the SDRAM's reports of corrected errors are counted (R342). -/
def State.refreshCycle (s : State) : State :=
  if s.sdram.reports ≠ 0 ∧ s.sdram.mode = .normal ∧ s.sdram.window + Config.refreshWindow ≤ s.now then
    ({ s with sdram := { s.sdram with reports := 0, window := s.now } } : State).set MEMC_ECC_CE.COUNT
      (min (2 ^ 32 - 1) (s.get MEMC_ECC_CE.COUNT + s.sdram.reports))
  else s

/-! ### One loop cycle -/

/-- Apply `f` for each track. -/
def State.eachTrk (s : State) (f : State → Fin 16 → State) : State := (List.finRange 16).foldl f s

/-- What the blocks still have to do in the present cycle: slices, a switch at the end of a run, the Almanac, encoder
boundaries, gate pairs, ports, refused arm requests. -/
def State.endCycle (s : State) : State :=
  let s := ((List.finRange 16).foldl (fun (s : State) (n : Fin 16) => s.slcCycle n) s).switchDue
  let s := (s.eachTrk (fun s n => s.almCycle n)).eachTrk (fun s n => s.boundaryCheck n)
  (((s.pairCycle).txCycle 0).txCycle 1).armRefuse

/-- The blocks whose clock stops or starts in the present cycle (R525, R526). -/
def State.blockCycle (s : State) : State := (if s.fastUp then s.startBlocks else s).settleBlocks

/-- A loop cycle begins: the tracks advance, armings and a switch take effect, the trips `trips` of the cycle before latch,
what is due happens, tasks reach their consumers. -/
def State.beginCycle (s : State) (trips : List (Fin 32 × Nat)) (gen : Bool) : State :=
  let s : State := { s with
    now := s.now + 1, gen := gen, lockLow := s.locked[0] || s.locked[1], scrub := { s.scrub with mram := s.scrub.mram + (if s.fastUp then 1 else 0) } }
  let s := (s.almOpen).eachTrk (fun s n => s.predict n)
  let s := ((s.armPairs.switchDue).latchAll trips).doDues.doTasks
  let s := s.eachTrk (fun s n => ((s.coreLoad n).ctlDue n).trkDue n)
  (s.cmpCycle.blockCycle.scrubCycle).refreshCycle.grnTracks

/-- One loop cycle passes. -/
def State.tick (s : State) : State :=
  let s := s.endCycle
  s.beginCycle s.tripList s.genCond

/-- `k` loop cycles pass. -/
def State.elapse : Nat → State → State
  | 0, s => s
  | k + 1, s => State.elapse k s.tick

/-! ### Cycles in which nothing happens -/

/-- Track `t` changes with every cycle. -/
def State.trkBusy (s : State) (n : Fin 16) : Bool :=
  let t := s.trk[n]
  (t.seeded && s.trkEn n && (!t.lost || s.trkType n == 4)) || !t.ctl.isEmpty || t.load.isSome || !t.edges.isEmpty ||
    !t.waiting.isEmpty || !t.shares.isEmpty || t.halves.any (fun h => !h.late)

/-- A block changes with every cycle, or has work that begins in the next one. -/
def State.busy (s : State) : Bool :=
  (s.flags.1 == s.now && !s.flags.2.isEmpty) || !s.arrivedNow.isEmpty || s.arrived.any (fun a => decide (a.task < 0xA0)) ||
  (List.finRange 16).any (fun n => s.trkBusy n || !(s.alm[n]).queue.isEmpty) ||
  (List.finRange 16).any (fun n => (s.slc[n]).run.isSome || !(s.slc[n]).trigs.isEmpty) ||
  (List.finRange 32).any (fun p => !(s.pair[p]).edges.isEmpty || (s.pair[p]).owed.isSome || (s.pair[p]).ask.isSome) ||
  (List.finRange 32).any (fun m => s.cmpWaits m || s.on (CMP_STAT.BLANK m)) ||
  s.tx.toList.any (fun t => !t.queue.isEmpty || t.left != 0) || s.grnFollows ||
  s.gen != s.genCond || s.lockLow != (s.locked[0] || s.locked[1]) || s.tripList.any (fun pc => !s.on (GOU_PAIR_STAT.TRIP pc.1)) ||
  (List.finRange 4).any (fun j => !s.pinActive j && decide (s.now < (s.tripin[j]).since + 16)) ||
  (List.range 10).any (fun b => (s.stops.testBit b && s.blockIdle b) ||
    (s.fastUp && s.bit CPM_CLKEN.BLOCKS b && !s.runs b && !s.stops.testBit b))

/-- The cycles in which something is known to happen. -/
def State.events (s : State) : List Nat :=
  s.dues.map (·.cycle) ++
  (List.finRange 16).filterMap (fun n => s.timerAt n) ++
  (match s.commit with
   | some c => match c.switchAt with
     | some t => if c.switched then [] else [if c.bound = 3 then s.cycleOfPtp c.arg else t].filter (fun t => decide (t ≤ c.limit))
     | none => []
   | none => []) ++
  (if s.stops = 0 then [] else ((List.finRange 16).map (fun n => (s.slc[n]).stopAt)).filter (fun t => decide (s.now < t))) ++
  (List.finRange 16).filterMap (fun n =>
    if s.ssiDrives n && s.on (TRK_SRCB.POLL n) then some (s.pollAt n)
    else if s.trkEn n && s.trkType n == 6 && !(s.trk[n]).loss then some (s.trk[n]).staleAt
    else none) ++
  (if s.upset.isEmpty then [] else [s.scrub.sram + sramPass, s.now + (mramPass - s.scrub.mram)]) ++
  (if s.sdram.reports ≠ 0 ∧ s.sdram.mode = .normal then [s.sdram.window + Config.refreshWindow] else [])

/-- Time runs on to the cycle before the next in which something may happen, and not beyond the cycle before `c`. -/
def State.idleTo (s : State) (c : Nat) : State :=
  if s.busy then s
  else
    let k := s.events.foldl min c - 1 - s.now
    { s with now := s.now + k, scrub := { s.scrub with mram := s.scrub.mram + (if s.fastUp then k else 0) } }

/-- Time runs on to cycle `c` in at most `k` steps. -/
def State.runTo (c : Nat) : Nat → State → State
  | 0, s => s
  | k + 1, s => if c ≤ s.now then s else State.runTo c k (s.idleTo c).tick

/-- Time runs on to cycle `c`, unless it has come: a command that stands for an event at `c` brings
the block to the cycle of that event. -/
def State.reach (s : State) (c : Nat) : State := State.runTo c (c - s.now) s

/-- The first cycle in which a delivery of a task in `p` arrives. -/
def State.nextArrival (s : State) (p : Nat → Bool) : Option Nat :=
  ((s.arrived.filter (fun a => p a.task)).map (·.cycle)).min?

/-- The row of a task: time runs to the cycle in which the next delivery of a task in `p` arrives, and it reaches its
consumer there. -/
def State.awaitTask (s : State) (p : Nat → Bool) : State :=
  match s.nextArrival p with
  | none => s
  | some c => if c ≤ s.now then s.doTasks else s.reach c

end Sys2Proof.Machine
end

