-- ==== Sys2Proof/Machine/Clocks.lean ====
section
/-!
DEFINITION. Machine/Clocks.lean: clock sources, `PLL_LOOP`, the always-on clocks and clock enables (15).
-/
namespace Sys2Proof.Machine

/-! ### The loop reference (R515 to R519) -/

/-- An accepted switch to reference `r`: the loop slews to it (R516, R517). -/
def State.slewTo (s : State) (r : Nat) : State :=
  let s := ((s.set CPM_CLK_CTRL.SRC r).set CPM_CLK_STAT.LOCK 0).set CPM_CLK_STAT.SLEW 1
  { s.set CPM_CLK_STAT.HOLD 0 with pll := { s.pll with waitHrc := false } }

/-- A request to switch to reference `r` (R516). What it replaces comes back where the target is lost in the same cycle. -/
def State.switchReq (s : State) (r : Nat) : State :=
  if r = 3 ∨ r = s.get CPM_CLK_CTRL.SRC then s
  else if s.on (readyFlag r) then
    let old : PllUndo := {
      cycle := s.now, src := s.get CPM_CLK_CTRL.SRC, lock := s.get CPM_CLK_STAT.LOCK, slew := s.get CPM_CLK_STAT.SLEW,
      hold := s.get CPM_CLK_STAT.HOLD, waitHrc := s.pll.waitHrc }
    let t := s.slewTo r
    { t with pll := { t.pll with undo := some old } }
  else s.raise CPM_CLK_STAT.SWREF

/-- A write of `CPM_CLK_CTRL.HRCEN` (R516). -/
def State.hrcEnable (s : State) (on : Bool) : State :=
  if on then s.set CPM_CLK_CTRL.HRCEN 1
  else if !s.on CPM_CLK_CTRL.HRCEN then s
  else if s.get CPM_CLK_CTRL.SRC = 2 ∨ s.on CPM_CLK_STAT.HOLD ∨ s.on CPM_CLK_STAT.SLEW then
    s.raise CPM_CLK_STAT.SWREF
  else (s.set CPM_CLK_CTRL.HRCEN 0).set CPM_CLK_STAT.HRCRDY 0

/-- `CLOCK_SLEW_LOCK`: the slew is complete (R517). -/
def State.slewLock (s : State) : State :=
  if s.on CPM_CLK_STAT.SLEW then
    ((s.set CPM_CLK_STAT.SLEW 0).set CPM_CLK_STAT.LOCK 1).set CPM_CLK_STAT.CUR (s.get CPM_CLK_CTRL.SRC)
  else s

/-- The recovered clock of port `p` becomes ready (R515). -/
def State.clockReady (s : State) (p : Fin 2) : State :=
  let s := { s with port := s.port.set p { s.port[p] with clock := true } }
  if s.fastUp then s.set (readyFlag p) 1 else s

/-- `HOLDOVER_ENTRY`: the selected recovered clock is lost (R518). -/
def State.holdoverEntry (s : State) : State :=
  let r := s.get CPM_CLK_CTRL.SRC
  if s.fastUp ∧ r < 2 then s.clockLost (Fin.ofNat 2 r) else s

/-- `HOLDOVER_EXPIRY`: holdover has lasted 100 ms (R519). -/
def State.holdoverExpiry (s : State) : State :=
  if s.on CPM_CLK_STAT.HOLD && !s.pll.waitHrc then
    let s := s.reach (s.pll.holdAt + usLc 100000)
    let s := s.raise CPM_CLK_STAT.HOLDEXP
    if s.on CPM_CLK_STAT.HRCRDY then s.slewTo 2
    else { s.set CPM_CLK_CTRL.HRCEN 1 with pll := { s.pll with waitHrc := true } }
  else s

/-- `HRC_READY` (R515, R519). -/
def State.hrcReady (s : State) : State :=
  if s.fastUp && s.on CPM_CLK_CTRL.HRCEN && !s.on CPM_CLK_STAT.HRCRDY then
    let s := s.set CPM_CLK_STAT.HRCRDY 1
    if s.pll.waitHrc then s.slewTo 2 else s
  else s

/-! ### Always-on clocks (R520 to R523) -/

/-- The always-on domain runs: supplied, its start complete. -/
def State.aoOn (s : State) : Bool := decide (s.ao.phase = .on)

/-- XO32 ceases to be ready: the blocks on it fall back to LRC (R522). -/
def State.xoStop (s : State) : State := (s.set APM_CLKSTAT.XORDY 0).set RTC_STAT.LRC 1

/-- `XO32_READY` (R520). -/
def State.xoReady (s : State) : State :=
  if s.aoOn && s.on APM_CLK.XOEN && !s.on APM_CLKSTAT.XORDY then
    (s.set APM_CLKSTAT.XORDY 1).set RTC_STAT.LRC 0
  else s

/-- `XO32_LOST` (R522). -/
def State.xoLost (s : State) : State :=
  if s.on APM_CLKSTAT.XORDY then s.xoStop.raise APM_CLKSTAT.XOLOST else s

/-- Tasks that waited for BRC are delivered at the second edge after it reports ready (R278). -/
def State.aoDeliver (s : State) : State :=
  s.aoWait.foldl (fun (s : State) (a : Arrival) => s.later (s.brcSecond s.now) (.aoTask a.task)) { s with aoWait := [] }

/-- `BRC_READY`: 3 µs after its start, BRC runs (R520, R523). -/
def State.brcReady (s : State) : State :=
  match s.brcAt with
  | none => s
  | some c =>
    let s := s.reach (c + 3750)
    (({ s with brcAt := none, brcFrom := s.now } : State).set APM_CLKSTAT.BRCRUN 1).aoDeliver

/-- The AOC executes: started, its clock running, not waiting (R523, R544). -/
def State.aocAwake (s : State) : Bool :=
  s.aoOn && !(s.core[4]).waiting && !s.on HRV_STAT.SEALING && decide (s.mode ≠ mCellar)

/-- Something needs BRC (R523). -/
def State.brcNeeded (s : State) : Bool :=
  s.aocAwake || !s.aoWait.isEmpty || s.dues.any (fun d => match d.act with
      | .aoTask _ => true
      | _ => false) || !s.lgr.queue.isEmpty || !s.lgr.seals.isEmpty || s.lgr.hourDue.isSome ||
    s.on HRV_STAT.SEALING

/-- APM stops BRC when nothing needs it (R523). -/
def State.brcSettle (s : State) : State :=
  if s.on APM_CLKSTAT.BRCRUN && !s.brcNeeded then s.set APM_CLKSTAT.BRCRUN 0 else s

/-- An always-on register can be reached: BRC is started and waited for where it is stopped (R32). -/
def State.aoBus (s : State) : State :=
  if s.on APM_CLKSTAT.BRCRUN then s else s.wakeBrc.brcReady

/-! ### Clock enables (R525, R526) -/

/-- A write of `CPM_CLKEN` (R525, R526). -/
def State.clkenWrite (s : State) (v : Nat) : State :=
  let old := s.get CPM_CLKEN.BLOCKS
  let s := s.set CPM_CLKEN.BLOCKS v
  (List.range 10).foldl (fun (s : State) (b : Nat) =>
    if v.testBit b then (if s.runs b || old.testBit b then s else s.startBlock b)
    else if old.testBit b then s.stopBlock b else s) s

/-- A cycle by which block `b` has completed its work in flight, as far as time alone brings that about: the Almanac's
committed firings, the slices' stop (R166, R238). -/
def State.stopBy (s : State) (b : Nat) : Nat :=
  if b = blkALM then
    (s.alm.toList.flatMap (fun (a : AlmSt) => a.queue.map (fun (f : Firing) => f.t / 16))).foldl max s.now + 17
  else if b = blkSLC then (s.slc.toList.map (fun (x : SliceSt) => x.stopAt)).foldl max s.now + 2
  else s.now

/-- `BLOCK_CLOCK_STOPPED`: block `b` reaches its commit point and stops its clock; when its enable bit has
been set again it starts in the cycle after (R525, R526). -/
def State.clockStopped (s : State) (b : Nat) : State :=
  if s.stops.testBit b then
    let s := if s.blockIdle b then s.clockDown b else s.reach (s.stopBy b)
    if s.fastUp && s.bit CPM_CLKEN.BLOCKS b && !s.runs b then s.reach (s.now + 1) else s
  else s

end Sys2Proof.Machine
end

