-- ==== Sys2Proof/Machine/Calendar.lean ====
section
/-!
DEFINITION. Machine/Calendar.lean: the calendar (17, R550 to R564) and what its ticks drive: the ledger
meters (R361), the hour change (R370) and the periodic wake.
-/
namespace Sys2Proof.Machine

/-! ### Dates (R550, R551) -/

def leapYear (y : Nat) : Bool := y % 400 == 0 || (y % 4 == 0 && y % 100 != 0)

def monthDays (y m : Nat) : Nat :=
  if m = 2 then (if leapYear y then 29 else 28)
  else if m = 4 ∨ m = 6 ∨ m = 9 ∨ m = 11 then 30 else 31

/-- Days from 2000-01-01 to the first day of year `y`. -/
def daysToYear (y : Nat) : Nat :=
  365 * (y - 2000) + ((y - 1997) / 4 - (y - 1901) / 100 + (y - 1601) / 400)

/-- Seconds since 2000-01-01 00:00:00 (R364). -/
def CalSt.secs (c : CalSt) : Nat :=
  let d := daysToYear c.year + ((List.range (c.month - 1)).map (fun m => monthDays c.year (m + 1))).sum +
    (c.day - 1)
  ((d * 24 + c.hour) * 60 + c.min) * 60 + c.sec

/-- The four words of a coherent read (17, `RTC_TIME` to `RTC_WDAY`). -/
def CalSt.word (c : CalSt) (k : Nat) : Word :=
  BitVec.ofNat 32 (
    if k = 0 then c.hour * 65536 + c.min * 256 + c.sec
    else if k = 1 then c.year * 65536 + c.month * 256 + c.day
    else if k = 2 then c.sub else c.wday)

/-- The second after a wrap of SUB, and whether the year 9999 passed (R550, R552). -/
def CalSt.carry (c : CalSt) : CalSt × Bool :=
  if c.sec < 59 then ({ c with sec := c.sec + 1 }, false)
  else if c.min < 59 then ({ c with sec := 0, min := c.min + 1 }, false)
  else if c.hour < 23 then ({ c with sec := 0, min := 0, hour := c.hour + 1 }, false)
  else
    let c := { c with sec := 0, min := 0, hour := 0, wday := (c.wday + 1) % 7 }
    if c.day < monthDays c.year c.month then ({ c with day := c.day + 1 }, false)
    else if c.month < 12 then ({ c with day := 1, month := c.month + 1 }, false)
    else if c.year < 9999 then ({ c with day := 1, month := 1, year := c.year + 1 }, false)
    else ({ c with day := 1, month := 1, year := 2000 }, true)

def State.modCal (s : State) (f : CalSt → CalSt) : State := { s with cal := f s.cal }

/-! ### Ticks (R361, R370, R553, R563) -/

/-- What meter `k` counts at a tick (R361, R362). -/
def State.meterTick (s : State) (k : Fin 8) : State :=
  let par := s.get (LGR_MTR_CFG.PAR k)
  let src := s.meterSrc k
  let t := s.trk[(Fin.ofNat 16 par)]
  let counts : Bool :=
    if src = 1 then s.fastUp && s.anyArmed
    else if src = 2 then s.fastUp && t.valid && decide (par / 16 ≤ t.ovel.toInt.natAbs / 65536)
    else if src = 3 then decide (par % 4 = s.mode) && decide (s.mode ≠ mCellar)
    else if src = 8 then s.ao.vsys
    else false
  if src = 4 then (if s.fastUp then
    let e := (s.slc[(Fin.ofNat 16 par)]).energy
    s.energyReading k e e else s)
  else if counts then s.meterAdd k 1 else s

/-- The periodic wake counts a tick (R563, R564). -/
def State.pwakeTick (s : State) : State :=
  if s.on RTC_PWAKE.EN ∧ s.mode ≠ mCellar then
    let unit := if s.on RTC_PWAKE.X64 then 64 else 1
    if s.cal.part + 1 < unit then s.modCal (fun c => { c with part := c.part + 1 })
    else if s.cal.units + 1 < max 1 (s.get RTC_PWAKE.COUNT) then
      s.modCal (fun c => { c with part := 0, units := c.units + 1 })
    else
      (((s.modCal (fun c => { c with part := 0, units := 0 })).raise RTC_STAT.PWK).aoSignal 0x1C9).wakeFire 3
  else s

/-- A calendar tick (R553). -/
def State.calTick (s : State) : State :=
  let s := s.modCal (fun c => { c with ticks := c.ticks + 1 })
  let s := if s.on APM_CLKSTAT.XORDY then s else { s with lgr := { s.lgr with lrcSeen := true } }
  ((List.finRange 8).foldl (fun (s : State) (k : Fin 8) => s.meterTick k) s).pwakeTick

/-- The calendar hour changes: the increments since the previous HOUR entry fall due (R370, R383, R545). -/
def State.hourChange (s : State) : State :=
  if s.lgrTakes then
    let inc (k : Fin 8) : Nat := (s.meter[k]).total.toNat - (s.lgr.hourBase[k]).toNat
    let l := (List.finRange 8).map inc
    let s := { s with lgr := { s.lgr with hourBase := s.meter.map (·.total) } }
    if l.all (· == 0) then s
    else if s.on LGR_STAT.FULL ∨ s.on HRV_STAT.SEALING then s.lgrLose
    else match s.lgr.hourDue with
      | none => { s with lgr := { s.lgr with hourDue := some (s.cal.ticks, l) } }
      | some m => { s with lgr := { s.lgr with hourDue := some (m.1, List.zipWith (· + ·) m.2 l) } }
  else s

/-! ### Counting (R550, R554, R562) -/

/-- The alarm's selected fields match (R562). -/
def State.alarmHit (s : State) : Bool :=
  let m := s.get RTC_ALM_CTRL.MASK
  let t := (s.rd RTC_ALM_TIME.adr)
  let d := (s.rd RTC_ALM_DATE.adr)
  let c := s.cal
  (!m.testBit 0 || c.sec == fieldOf t 7 0) && (!m.testBit 1 || c.min == fieldOf t 15 8) &&
    (!m.testBit 2 || c.hour == fieldOf t 23 16) && (!m.testBit 3 || c.day == fieldOf d 4 0) &&
    (!m.testBit 4 || c.month == fieldOf d 11 8) && (!m.testBit 5 || c.year == fieldOf d 31 16)

/-- The alarm after a wrap of SUB (R562, R564). -/
def State.alarm (s : State) : State :=
  if s.on RTC_ALM_CTRL.EN ∧ s.mode ≠ mCellar ∧ s.alarmHit then
    ((s.raise RTC_STAT.ALM).aoSignal 0x1C8).wakeFire 2
  else s

/-- How far the present count advances SUB, and the trim state after it (R554). -/
def State.calStep (s : State) : Nat × Nat × Int :=
  if s.on APM_CLKSTAT.XORDY then
    let c := s.cal
    let adv := if 0 < c.trim then 2 else if c.trim < 0 then 0 else 1
    let left := if 0 < c.trim then c.trim - 1 else if c.trim < 0 then c.trim + 1 else 0
    if c.counts + 1 = 2 ^ 20 then (adv, 0, s.getInt RTC_TRIM.TRIM) else (adv, c.counts + 1, left)
  else (1, s.cal.counts, s.cal.trim)

/-- One cycle of the calendar's clock. -/
def State.calCount (s : State) : State :=
  let (adv, counts, trim) := s.calStep
  let old := s.cal.sub
  let s := s.modCal (fun c => { c with
    counts := counts, trim := trim, sub := (old + adv) % 32768,
    shadow := match c.shadow with
      | some x => if 32768 ≤ x.age + adv then none else some { x with age := x.age + adv }
      | none => none })
  let hour := s.cal.hour
  let s := if 32768 ≤ old + adv then
      let (c, w) := s.cal.carry
      let s := s.modCal (fun _ => c)
      if w then s.raise RTC_STAT.WRAP else s
    else s
  let s := if old / 32 < (old + adv) / 32 then s.calTick else s
  let s := if 32768 ≤ old + adv then s.alarm else s
  if s.cal.hour = hour then s else s.hourChange

/-- Cycles of the calendar's clock until `stop` holds, at most `n`. -/
def State.calRun (stop : State → Bool) : Nat → State → State
  | 0, s => s
  | n + 1, s => let s := s.calCount
                if stop s then s else State.calRun stop n s

/-- The calendar counts: the always-on domain is supplied (R550, R555). -/
def State.calLive (s : State) : Bool := decide (s.ao.phase ≠ .off)

/-- `CALENDAR_TICK`: the calendar runs on to its next tick (R553). -/
def State.calToTick (s : State) : State :=
  let t := s.cal.ticks
  if s.calLive then State.calRun (fun x => x.cal.ticks != t) 200 s else s

/-- `CALENDAR_SECOND_CARRY`: the calendar runs on to the next wrap of SUB (R550). -/
def State.calToSecond (s : State) : State :=
  let t := s.cal.secs
  if s.calLive then State.calRun (fun x => x.cal.secs != t) 33024 s else s

/-- `CALENDAR_TRIM`: the calendar runs on to the next application of the trim (R554). -/
def State.calToTrim (s : State) : State :=
  if s.calLive && s.on APM_CLKSTAT.XORDY then State.calRun (fun x => x.cal.counts == 0) (2 ^ 20) s else s

/-- `PERIODIC_WAKE`: the calendar runs on to the firing of the periodic wake (R563). -/
def State.calToWake (s : State) : State :=
  if s.calLive ∧ s.on RTC_PWAKE.EN ∧ s.mode ≠ mCellar then
    let unit := if s.on RTC_PWAKE.X64 then 64 else 1
    let n := unit * max 1 (s.get RTC_PWAKE.COUNT) - (s.cal.units * unit + s.cal.part)
    let t := s.cal.ticks + max 1 n
    State.calRun (fun x => x.cal.ticks == t) (66 * max 1 n + 512) s
  else s

/-! ### Reading and setting (R556 to R561) -/

/-- A read of one of the four calendar registers (R556, R557). -/
def State.rtcRead (s : State) (k : Fin 4) : Word × State :=
  let c := s.cal
  let x : Shadow := c.shadow.getD
    { time := c.word 0, date := c.word 1, sub := c.word 2, wday := c.word 3, seen := 0, age := 0 }
  let seen := setBit x.seen k true
  let w := if k = 0 then x.time else if k = 1 then x.date else if k = 2 then x.sub else x.wday
  (w, s.modCal (fun c => { c with shadow := if seen = 15 then none else some { x with seen := seen } }))

/-- The freeze is released (R557). -/
def State.rtcRelease (s : State) : State := s.modCal (fun c => { c with shadow := none })

/-- `RTC_FREEZE_TIMEOUT`: the calendar runs on until the freeze is released by age (R557). -/
def State.rtcTimeout (s : State) : State :=
  if s.calLive then
    match s.cal.shadow with
    | none => s
    | some x => State.calRun (fun y => y.cal.shadow.isNone) (33024 - x.age) s
  else s

/-- A setting is valid (R559). -/
def setValid (t d : Word) (setwd : Bool) (wday : Nat) : Bool :=
  let y := fieldOf d 31 16
  let m := fieldOf d 11 8
  let day := fieldOf d 4 0
  decide (2000 ≤ y ∧ y ≤ 9999 ∧ 1 ≤ m ∧ m ≤ 12 ∧ 1 ≤ day ∧ day ≤ monthDays y m) &&
    decide (fieldOf t 23 16 ≤ 23 ∧ fieldOf t 15 8 ≤ 59 ∧ fieldOf t 7 0 ≤ 59) &&
    !(setwd && wday == 7)

/-- An apply with the values of the SET registers, SUB, and the weekday with `setwd`; answers whether it
was accepted (R559, R560). -/
def State.rtcApply (s : State) (sub : Nat) (setwd : Bool) (wday : Nat) : Bool × State :=
  let t := s.rd RTC_SET_TIME.adr
  let d := s.rd RTC_SET_DATE.adr
  if setValid t d setwd wday then
    let old := s.cal
    let new := { old with
      sub := sub, sec := fieldOf t 7 0, min := fieldOf t 15 8, hour := fieldOf t 23 16, day := fieldOf d 4 0,
      month := fieldOf d 11 8, year := fieldOf d 31 16, wday := if setwd then wday else old.wday,
      shadow := none }
    let s := if old.hour = new.hour ∧ old.day = new.day ∧ old.month = new.month ∧ old.year = new.year then s
      else s.hourChange
    let s := (s.modCal (fun _ => new)).raise RTC_STAT.SET
    (true, s.ledgerEvent 0x26 0 (leBytes 5 old.secs ++ leBytes 2 old.sub ++ [0#8] ++ leBytes 5 new.secs ++
      leBytes 2 new.sub ++ List.replicate 17 0#8))
  else (false, s.raise RTC_STAT.BADSET)

/-- A write of `RTC_APPLY` (R559). -/
def State.rtcApplyWrite (s : State) (w : Word) : State :=
  if fieldOf w 31 31 = 1 then (s.rtcApply (fieldOf w 14 0) (fieldOf w 30 30 == 1) (fieldOf w 18 16)).2 else s

/-- `TIME_SET` (R561): the SET registers are written and GO last; answers whether it was accepted. -/
def State.timeSet (s : State) (c : CalFields) : Bool × State :=
  let s := s.wr RTC_SET_TIME.adr (BitVec.ofNat 32 (c.hour.toNat * 65536 + c.min.toNat * 256 + c.sec.toNat))
  let s := s.wr RTC_SET_DATE.adr
    (BitVec.ofNat 32 (c.year.toNat * 65536 + c.month.toNat % 16 * 256 + c.day.toNat % 32))
  if 6 < c.wday.toNat ∨ 32768 ≤ c.sub.toNat ∨ 12 < c.month.toNat ∨ 31 < c.day.toNat then (false, s)
  else s.rtcApply c.sub.toNat (c.flags.getLsbD 0) c.wday.toNat

end Sys2Proof.Machine
end

