-- ==== Sys2Proof/Machine/Uart.lean ====
section
/-!
DEFINITION. Machine/Uart.lean: the serial ports (17, R565 to R582). A character is received, and one begins
transmission, in one command each.
-/
namespace Sys2Proof.Machine

def State.modUart (s : State) (n : Fin 4) (f : UartSt → UartSt) : State :=
  { s with uart := s.uart.set n (f s.uart[n]) }

/-- Port `n` takes new work: its domain runs and its clock enable is set (R524, R581). -/
def State.uartClock (s : State) (n : Fin 4) : Bool :=
  if n.val < 2 then s.aoOn && decide (s.mode ≠ mCellar) && s.bit APM_CLKEN.BLOCKS n && !s.on HRV_STAT.SEALING
  else s.takes (blkU2 + (n - 2))

/-- The receiver of port `n` runs on XO32 (R565). -/
def State.uartOnXo (s : State) (n : Fin 4) : Bool :=
  decide (n.val < 2) && s.on (U_CTRL.CLKSEL n) && s.on APM_CLKSTAT.XORDY

/-- BRC in Hz (15). -/
def State.brcHz (s : State) : Nat := if s.on APM_CLK.BRCF then 32000000 else 4000000

/-- The receiver's clock in Hz, its divisor (R566) and its highest rate (R565). -/
def State.uartHz (s : State) (n : Fin 4) : Nat :=
  if s.uartOnXo n then 32768 else if n.val < 2 then s.brcHz else 1250000000

def State.uartDiv (s : State) (n : Fin 4) : Nat :=
  max 128 (if s.uartOnXo n then s.get (U_XBAUD.DIV n) else s.get (U_BAUD.DIV n))

def State.uartMax (s : State) (n : Fin 4) : Nat :=
  if s.uartOnXo n then 2400 else if n.val < 2 then 250000 else 12500000

/-! ### Queues and flow control (R569 to R571) -/

def State.rxSize (s : State) (n : Fin 4) : Nat := 16 * (s.get (U_QCFG.RXDEPTH n) + 1)
def State.txSize (s : State) (n : Fin 4) : Nat := 16 * (s.get (U_QCFG.TXDEPTH n) + 1)

/-- The receive trigger and the transmit trigger hold (R569). -/
def State.rxTrigger (s : State) (n : Fin 4) : Bool :=
  decide (clampNat 1 (s.rxSize n) (s.get (U_QCFG.RXTRIG n)) ≤ (s.uart[n]).rx.length)

def State.txTrigger (s : State) (n : Fin 4) : Bool :=
  decide ((s.uart[n]).tx.length < clampNat 1 (s.txSize n) (s.get (U_QCFG.TXTRIG n)))

/-- `UnRTS_n` follows the receive queue and its settings (R571). -/
def State.rtsSettle (s : State) (n : Fin 4) : State :=
  let hi := s.get (U_FLOW.HIMARK n)
  let lo := min (s.get (U_FLOW.LOMARK n)) (hi - 1)
  let k := (s.uart[n]).rx.length
  s.modUart n (fun u => { u with
    rts := if s.on (U_CTRL.RTSEN n) then (if hi ≤ k then true else if k ≤ lo then false else u.rts)
      else !s.on (U_CTRL.RXEN n) })

/-- Push a character on the receive queue (R570). -/
def State.rxPush (s : State) (n : Fin 4) (e : Nat) : State :=
  if s.rxSize n ≤ (s.uart[n]).rx.length then s.raise (U_STAT.ROVR n)
  else (s.modUart n (fun u => { u with rx := u.rx ++ [e] })).rtsSettle n

/-- Push a character on the transmit queue (R570). -/
def State.txPush (s : State) (n : Fin 4) (e : Nat) : State :=
  if s.txSize n ≤ (s.uart[n]).tx.length then s.raise (U_STAT.TOVR n)
  else s.modUart n (fun u => { u with tx := u.tx ++ [e] })

/-- A read of `Un_DATA` pops the receive queue (R577). -/
def State.rxPop (s : State) (n : Fin 4) : Word × State :=
  match (s.uart[n]).rx with
  | [] => (0, s)
  | e :: q => (BitVec.ofNat 32 (2 ^ 31 + e), (s.modUart n (fun u => { u with rx := q })).rtsSettle n)

def State.rxFlush (s : State) (n : Fin 4) : State := (s.modUart n (fun u => { u with rx := [] })).rtsSettle n
def State.txFlush (s : State) (n : Fin 4) : State := s.modUart n (fun u => { u with tx := [] })

/-- The interrupt line of port `n` (R582). -/
def State.uartLine (s : State) (n : Fin 4) : Bool :=
  let e (i : Nat) : Bool := s.bit (U_IEN.EN n) i
  (e 0 && s.rxTrigger n) || (e 1 && s.txTrigger n) || (e 2 && s.on (U_STAT.IDLE n)) ||
    (e 3 && s.on (U_STAT.ERR n)) || (e 4 && (s.on (U_STAT.ROVR n) || s.on (U_STAT.TOVR n))) ||
    (e 5 && s.on (U_STAT.MATCH n)) || (e 6 && s.on (U_STAT.ABDONE n))

/-! ### Reception (R573 to R580) -/

/-- The level decided for a bit: the majority of three samples, or the single sample of SH210 mode. -/
def bitLevel (sh210 : Bool) (x : Sample3) : Bool :=
  if sh210 then x.mid else (x.early && x.mid) || (x.early && x.late) || (x.mid && x.late)

/-- The number that bits spell, least significant first. -/
def ofBits : List Bool → Nat
  | [] => 0
  | b :: l => (if b then 1 else 0) + 2 * ofBits l

/-- A received character as `Un_DATA` shows it: data in bits 8 to 0, PE, FE and BRK in bits 10 to 12 (R577).
A bit that the sender did not send is the idle line, high. -/
def State.rxChar (s : State) (n : Fin 4) (c : SerialChar) : Nat :=
  let nine := s.on (U_CTRL.DATA9 n) || s.on (U_CTRL.ADDR9 n)
  let nd := if nine then 9 else 8
  let par := s.get (U_CTRL.PAR n)
  let np := if par = 0 then 0 else 1
  let ns := if s.on (U_CTRL.STOP2 n) then 2 else 1
  let l := c.samples.map (bitLevel (s.on (U_CTRL.SH210 n)))
  let bits := (l ++ List.replicate (nd + np + ns) true).take (nd + np + ns)
  let odd := ((bits.take (nd + np)).filter (fun b => b)).length % 2
  let pe : Bool := decide (par = 1 ∧ odd = 1 ∨ par = 2 ∧ odd = 0)
  let fe : Bool := ((bits.drop (nd + np)).any (fun b => !b))
  let brk : Bool := bits.all (fun b => !b)
  ofBits (bits.take nd) + (if pe then 1024 else 0) + (if fe then 2048 else 0) + (if brk then 4096 else 0)

/-- Address `k` matches a character (R579). -/
def State.addrMatch (s : State) (n : Fin 4) (e : Nat) : Bool :=
  let hit (a m : Nat) : Bool := e % 256 &&& m == a &&& m
  hit (s.get (U_ADDR.ADDR0 n)) (s.get (U_ADDR.MASK0 n)) || hit (s.get (U_ADDR.ADDR1 n)) (s.get (U_ADDR.MASK1 n))

/-- A character that is neither an address nor filtered by one is stored (R577, R570). -/
def State.rxStore (s : State) (n : Fin 4) (e : Nat) : State :=
  (if 1024 ≤ e then s.raise (U_STAT.ERR n) else s).rxPush n e

/-- Address listening (R579, R580). -/
def State.rxFilter (s : State) (n : Fin 4) (e : Nat) : State :=
  if s.on (U_CTRL.ADDR9 n) then
    if e.testBit 8 then
      if s.addrMatch n e then
        let s := ((s.modUart n (fun u => { u with matched := true })).raise (U_STAT.MATCH n)).rxStore n e
        if n.val < 2 then s.wakeFire (5 + n) else s
      else s.modUart n (fun u => { u with matched := false })
    else if (s.uart[n]).matched then s.rxStore n e else s
  else s.rxStore n e

/-- The result of an autobaud measurement of `cycles` clock cycles (R578). -/
def State.autobaud (s : State) (n : Fin 4) (cycles : Nat) : State :=
  if s.on (U_CTRL.ABEN n) then
    let div := (roundDiv (16 * cycles) 9).toNat
    let f := 16 * s.uartHz n
    let s := if 300 * div ≤ f ∧ f ≤ s.uartMax n * div ∧ div < 2 ^ 28 then s.set (U_BAUD.DIV n) div
      else s.raise (U_STAT.ABFAIL n)
    (s.raise (U_STAT.ABDONE n)).set (U_CTRL.ABEN n) 0
  else s

/-- Port `n` listens: in Barn U0 and U1 need ADDR9 too (R580). -/
def State.uartListens (s : State) (n : Fin 4) : Bool :=
  s.uartClock n && s.on (U_CTRL.RXEN n) && (decide (2 ≤ n.val) || decide (s.mode ≠ mBarn) || s.on (U_CTRL.ADDR9 n))

/-- `UART_CHAR_RECEIVED` (R574 to R580). -/
def State.uartRx (s : State) (n : Fin 4) (c : SerialChar) : State :=
  if s.uartListens n then
    let sleeping : Bool := decide (n.val < 2) && !s.uartOnXo n && !s.on APM_CLKSTAT.BRCRUN
    let slow : Bool := sleeping && decide (s.uartDiv n * 1000000 < 96 * s.brcHz)
    let s := if sleeping then s.aoBus else s
    let s :=
      if slow then s.raise (U_STAT.SLOW n)
      else if c.startHigh && !s.on (U_CTRL.SH210 n) then s.raise (U_STAT.GLITCH n)
      else (s.rxFilter n (s.rxChar n c)).autobaud n c.cycles
    if sleeping then s.brcSettle else s
  else s

/-- `UART_IDLE` (R573). -/
def State.uartIdle (s : State) (n : Fin 4) : State :=
  if s.uartClock n && s.on (U_CTRL.RXEN n) && !(s.uart[n]).rx.isEmpty then s.raise (U_STAT.IDLE n) else s

/-! ### Transmission (R572) -/

/-- `UART_TX_START`: the oldest character leaves the queue; the command comes when `UnCTS_n` permits (R572).
U0 and U1 send on BRC (R565). -/
def State.uartTx (s : State) (n : Fin 4) : State :=
  if s.uartClock n && s.on (U_CTRL.TXEN n) && (decide (2 ≤ n.val) || s.on APM_CLKSTAT.BRCRUN) then
    match (s.uart[n]).tx with
    | [] => s
    | e :: q => s.modUart n (fun u => { u with
        tx := q, out := u.out ++ [if s.on (U_CTRL.DATA9 n) || s.on (U_CTRL.ADDR9 n) then e % 512 else e % 256] })
  else s

/-! ### Register writes -/

/-- A write of `Un_QCFG` empties a queue whose depth it changes (R569). -/
def State.uartDepth (s : State) (n : Fin 4) (w : Word) : State :=
  let rd := s.get (U_QCFG.RXDEPTH n)
  let td := s.get (U_QCFG.TXDEPTH n)
  let s := s.wr (U_QCFG.adr n) (w &&& 0x07077F7F#32)
  let s := if s.get (U_QCFG.RXDEPTH n) = rd then s else s.rxFlush n
  if s.get (U_QCFG.TXDEPTH n) = td then s else s.txFlush n

/-- A write of `Un_CTRL` (R570, R578, R579, R581): PAR keeps its value when 0b11 is written; CLKSEL exists
for U0 and U1 only. -/
def State.uartCtrl (s : State) (n : Fin 4) (w : Word) : State :=
  let par := s.get (U_CTRL.PAR n)
  let was := s.on (U_CTRL.RXEN n)
  let s := s.wr (U_CTRL.adr n) (w &&& (if n.val < 2 then 0xCFFB#32 else 0xC7FB#32))
  let s := if s.get (U_CTRL.PAR n) = 3 then s.set (U_CTRL.PAR n) par else s
  let s := if w.getLsbD 13 then s.rxFlush n else s
  let s := if w.getLsbD 12 then s.txFlush n else s
  let s := if s.on (U_CTRL.RXEN n) && !was then s.modUart n (fun u => { u with matched := false }) else s
  s.rtsSettle n

end Sys2Proof.Machine
end

