-- ==== Sys2Proof/Machine/Touch.lean ====
section
/-!
DEFINITION. Machine/Touch.lean: the touch controller (18, R583 to R597). A scan is one command; the calendar
runs on to the tick at which it begins.
-/
namespace Sys2Proof.Machine

def State.modTch (s : State) (f : TouchSt → TouchSt) : State := { s with tch := f s.tch }

/-- The touch controller has its clock (R524, R597). -/
def State.tchClock (s : State) : Bool :=
  s.aoOn && decide (s.mode ≠ mCellar) && s.bit APM_CLKEN.BLOCKS 2

/-! ### Keys and thresholds (R583, R584, R595) -/

/-- Lines of a mutual-mode matrix (18, `TCH_CTRL`). -/
def State.tchLines (s : State) (f : Fld) : Nat := if s.on TCH_CTRL.MXFULL then 8 else max 1 (s.get f)

/-- The keys of a scan, ascending (R583, R594). -/
def State.tchKeys (s : State) : List (Fin 64) :=
  (List.finRange 64).filter (fun (k : Fin 64) =>
    if s.on TCH_CTRL.MODE then
      decide (k.val / 8 < s.tchLines TCH_CTRL.NX) && decide (k.val % 8 < s.tchLines TCH_CTRL.NY)
    else decide (k.val < 16) && s.bit TCH_CTRL.KEYEN k &&
      !(s.on TCH_CTRL.WETEN && s.get TCH_CTRL.WETKEY == k.val))

/-- Charger-noise mode (R595). -/
def State.tchNoise (s : State) : Bool := s.on TCH_STAT.CNTASK || s.on TCH_CTRL.CNSW

/-- A threshold as it acts in charger-noise mode (R595). -/
def State.tchScale (s : State) (x : Nat) : Nat :=
  if s.tchNoise then
    let nf := s.get TCH_NOISE.NF
    if nf = 0 then x * 3 / 2 else x * (nf + 1)
  else x

/-- The median of three counts. -/
def median3 (a b c : Nat) : Nat := max (min a b) (min (max a b) c)

/-- Raw counts of `n` keys out of the measured ones, and those left: three for each key in charger-noise
mode (R584, R595). -/
def takeRaws (noise : Bool) : Nat → List Nat → List Nat × List Nat
  | 0, l => ([], l)
  | n + 1, l =>
    let m (i : Nat) : Nat := min 65535 (l.getD i 0)
    let r := if noise then median3 (m 0) (m 1) (m 2) else m 0
    let (rs, rest) := takeRaws noise n (l.drop (if noise then 3 else 1))
    (r :: rs, rest)

def State.tchBase (s : State) (k : Nat) : Nat := s.get (TCH_KEY.BASE k)

/-- A key's delta for a raw count (R584). -/
def State.tchDelta (s : State) (k raw : Nat) : Int :=
  if s.on TCH_CTRL.MODE then (s.tchBase k : Int) - raw else (raw : Int) - s.tchBase k

/-- Key `k` is pressed. -/
def State.tchPressed (s : State) (k : Nat) : Bool :=
  if k < 32 then s.bit TCH_STATE_LO.PRESSED k else s.bit TCH_STATE_HI.PRESSED (k - 32)

def State.setPressed (s : State) (k : Nat) (b : Bool) : State :=
  if k < 32 then s.setBitOf TCH_STATE_LO.PRESSED k b else s.setBitOf TCH_STATE_HI.PRESSED (k - 32) b

def State.modKey (s : State) (k : Fin 64) (f : KeySt → KeySt) : State :=
  s.modTch (fun t => { t with keys := t.keys.set k (f t.keys[k]) })

/-! ### Reports (R596) -/

/-- A report is queued, or discarded. -/
def State.tchReport (s : State) (key kind : Nat) : State :=
  let s := (s.aoSignal 0x1CA).wakeFire 4
  if 8 ≤ s.tch.reports.length then s.raise TCH_STAT.ROVR
  else s.modTch (fun t => { t with reports := t.reports ++ [{ key := key, kind := kind }] })

/-- A wet-start or wet-end report; the spec gives its key number no value. -/
def State.wetReport (s : State) (kind : Nat) : State :=
  let (k, s) := s.drawNat
  s.tchReport (k % 64) kind

/-- A read of `TCH_REPORT` pops the oldest report (R596). -/
def State.tchPop (s : State) : Word × State :=
  match s.tch.reports with
  | [] => (0, s)
  | r :: q => (BitVec.ofNat 32 (2 ^ 31 + r.kind * 256 + r.key), s.modTch (fun t => { t with reports := q }))

/-! ### One key in one scan (R586 to R592) -/

def State.rebase (s : State) (k : Fin 64) : State := s.set (TCH_KEY.BASE k) (s.get (TCH_KEY.RAW k))

/-- Key `k` is set released without a report, its counts at zero. -/
def State.letGo (s : State) (k : Fin 64) : State :=
  (s.setPressed k false).modKey k (fun _ => KeySt.reset)

/-- A recalibration requested for key `k` (R591). -/
def State.recalKey (s : State) (k : Fin 64) : State :=
  ((s.rebase k).letGo k).modTch (fun t => { t with recal := t.recal &&& ~~~(BitVec.ofNat 64 (2 ^ k.val)) })

/-- Key `k` drifts or not (R588); `d` is its delta. -/
def State.driftKey (s : State) (k : Fin 64) (d : Int) : State :=
  let b := s.get TCH_CAL.BTRK
  if s.tchPressed k ∨ (s.tchScale (s.get TCH_THR.RTH) : Int) ≤ d.natAbs ∨ b = 0 then s
  else
    let n := (s.tch.keys[k]).drift + 1
    if n < b then s.modKey k (fun x => { x with drift := n })
    else
      let base := s.tchBase k
      let raw := s.get (TCH_KEY.RAW k)
      let s := s.modKey k (fun x => { x with drift := 0 })
      s.set (TCH_KEY.BASE k) (if base < raw then base + 1 else if raw < base then base - 1 else base)

/-- What a scan does with key `k`, outside calibration and wet suspension (R587 to R592); `d` is its delta and
`dt` the ticks since the scan before. -/
def State.scanKey (s : State) (k : Fin 64) (d : Int) (dt : Nat) : State :=
  let deb := max 1 (s.get TCH_CAL.DEB)
  let on := s.tchPressed k
  let x := s.tch.keys[k]
  let rel : Bool := on && decide (d < s.tchScale (s.get TCH_THR.RTH))
  let x : KeySt := { x with
    press := if !on && decide ((s.tchScale (s.get TCH_THR.TTH) : Int) ≤ d) then x.press + 1 else 0
    release := if rel then x.release + 1 else 0
    neg := if d ≤ -(s.tchScale (s.get TCH_CAL.NTH) : Int) then x.neg + 1 else 0
    onFor := if on then x.onFor + dt else 0 }
  let after := s.tch.afterWet.getLsbD k
  let s := (s.modKey k (fun _ => x)).modTch (fun t => { t with
    afterWet := t.afterWet &&& ~~~(BitVec.ofNat 64 (2 ^ k.val)) })
  if s.tch.recal.getLsbD k then s.recalKey k
  else if on ∧ 1024 * max 1 (s.get TCH_CAL.MAXON) ≤ x.onFor then
    (((s.tchReport k 2).rebase k).letGo k).raise TCH_STAT.STUCK
  else if deb ≤ x.neg then
    ((s.rebase k).raise TCH_STAT.NEGCAL).modKey k (fun x => { x with neg := 0 })
  else if deb ≤ x.press then
    ((s.setPressed k true).modKey k (fun _ => KeySt.reset)).tchReport k 0
  else if deb ≤ x.release ∨ (after && rel) = true then (s.letGo k).tchReport k 1
  else s.driftKey k d

/-- A calibration scan's effect on key `k` (R586, R591). -/
def State.calKey (s : State) (k : Fin 64) : State := if s.tch.recal.getLsbD k then s.recalKey k else s.rebase k

/-! ### Water (R594) -/

/-- The wet channel is measured: suspension begins, goes on or ends; the answer says whether this scan is
suspended. -/
def State.wetStep (s : State) (raw : Nat) : Bool × Bool × State :=
  let d : Int := (raw : Int) - s.tch.wetBase
  if s.on TCH_STAT.WET then
    let n := if d < s.get TCH_WET.WETREL then s.tch.wetLow + 1 else 0
    let s := s.modTch (fun t => { t with wetLow := n })
    if 8 ≤ n then
      let held := BitVec.ofNat 64 (s.get TCH_STATE_LO.PRESSED + s.get TCH_STATE_HI.PRESSED * 2 ^ 32)
      (true, true, (s.set TCH_STAT.WET 0).modTch (fun t => { t with
        wetLow := 0, afterWet := held,
        keys := t.keys.map (fun x => { x with press := 0, release := 0, neg := 0 }) }))
    else (true, false, s)
  else if (s.tchScale (s.get TCH_WET.WETTH) : Int) ≤ d then
    (true, false, ((s.wetReport 3).raise TCH_STAT.WET).modTch (fun t => { t with wetLow := 0 }))
  else (false, false, s)

/-! ### Scan level (R593) -/

def State.tchPeriod (s : State) : Nat := max 1 (s.get (TCH_LEVEL.PERIOD (s.get TCH_STAT.LEVEL)))

/-- The scan level after a scan that saw a touch or not. -/
def State.levelStep (s : State) (touched : Bool) : State :=
  let l := s.get TCH_STAT.LEVEL
  let now := s.cal.ticks
  let idle := s.get (TCH_LEVEL.IDLE l)
  if touched then (s.set TCH_STAT.LEVEL 0).modTch (fun t => { t with idleFrom := now })
  else if l < 3 ∧ idle ≠ 0 ∧ s.tch.idleFrom + 1024 * idle ≤ now then
    (s.set TCH_STAT.LEVEL (l + 1)).modTch (fun t => { t with idleFrom := now })
  else s

/-! ### A scan (R585) -/

/-- A scan's counts are taken: keys in order, then the wet channel (R585). -/
def State.scanWith (s : State) (raws : List Nat) : State :=
  let keys := s.tchKeys
  let (rs, rest) := takeRaws s.tchNoise keys.length raws
  let wetRaw := min 65535 (rest.headD 0)
  let ds := List.zipWith (fun (k : Fin 64) r => (k, s.tchDelta k r)) keys rs
  let s := (List.zip keys rs).foldl (fun (s : State) (x : Fin 64 × Nat) => s.set (TCH_KEY.RAW x.1) x.2) s
  let now := s.cal.ticks
  let dt := now - s.tch.lastScan
  let s :=
    if s.on TCH_STAT.CAL then
      let s := keys.foldl (fun (s : State) (k : Fin 64) => s.calKey k) s
      let s := if s.on TCH_CTRL.WETEN then s.modTch (fun t => { t with wetBase := wetRaw }) else s
      (s.set TCH_STAT.CAL 0).levelStep false
    else
      let (wet, ends, s) := if s.on TCH_CTRL.WETEN then s.wetStep wetRaw else (s.on TCH_STAT.WET, false, s)
      if wet then (if ends then s.wetReport 4 else s).levelStep false
      else
        let touched : Bool := ds.any (fun x => decide ((s.tchScale (s.get TCH_THR.TTH) : Int) ≤ x.2))
        let s := ds.foldl (fun (s : State) (x : Fin 64 × Int) => s.scanKey x.1 x.2 dt) s
        let s := (List.finRange 64).foldl (fun (s : State) (k : Fin 64) =>
          if s.tch.recal.getLsbD k then s.recalKey k else s) s
        s.levelStep touched
  s.modTch (fun t => { t with lastScan := now, nextScan := now + s.tchPeriod })

/-- `TOUCH_SCAN`: the calendar runs on to the scan's tick, and BRC runs for it (R523, R585, R593). -/
def State.touchScan (s : State) (raws : List Nat) : State :=
  if s.tchClock && s.on TCH_CTRL.EN then
    let t := s.tch.nextScan
    let s := if s.cal.ticks < t then State.calRun (fun x => decide (t ≤ x.cal.ticks)) (66 * (t - s.cal.ticks)) s
      else s
    (s.aoBus.scanWith raws).brcSettle
  else s

/-- `TCH_CTRL` is written, or the clock enable set: a calibration scan is due when scanning begins (R586). -/
def State.tchBegin (s : State) : State :=
  (s.raise TCH_STAT.CAL).modTch (fun t => { t with
    idleFrom := s.cal.ticks, lastScan := s.cal.ticks, nextScan := s.cal.ticks })

/-! ### Charger-noise tasks (R595) -/

/-- Tasks 0xC8 and 0xC9 of the first delivery among those of `task`: with both, the latch is set; a stopped controller loses
each (R282, R595). -/
def State.noiseTask (s : State) (task : Nat) : State :=
  match s.arrivalsOf task with
  | [] => s
  | a :: _ =>
    let both := s.arrived.filter (fun b => decide (b.task = 0xC8 ∨ b.task = 0xC9) && b.cycle == a.cycle)
    let s := s.takeArrivals both
    if s.tchClock then s.set TCH_STAT.CNTASK (if both.any (fun b => b.task == 0xC8) then 1 else 0)
    else both.foldl (fun (s : State) (b : Arrival) => s.taskLost b.task) s

end Sys2Proof.Machine
end

