-- ==== Sys2Proof/Machine/Lcd.lean ====
section
/-!
DEFINITION. Machine/Lcd.lean: the segment display driver (18, R598 to R608).
-/
namespace Sys2Proof.Machine

def State.modLcd (s : State) (f : LcdSt → LcdSt) : State := { s with lcd := f s.lcd }

/-- The display driver has its clock enabled (R524, R608). -/
def State.lcdClock (s : State) : Bool :=
  s.aoOn && decide (s.mode ≠ mCellar) && s.bit APM_CLKEN.BLOCKS 3

/-- The driver takes updates for a boundary: enabled, with its clock. -/
def State.lcdActive (s : State) : Bool := s.lcdClock && s.on LCD_CTRL.EN

/-! ### What the display shows (R599, R604) -/

/-- The slot of a common in display clock cycles (R599). -/
def State.lcdSlot (s : State) : Nat :=
  32768 * 2 ^ s.get (LCD_BAND.RATE (s.get LCD_STAT.BAND)) / (128 * (if s.on LCD_CTRL.MUX then 8 else 4))

/-- Cycles of its slot for which an on segment with trim code `t` is driven at its select level (R604). -/
def State.lcdDrive (s : State) (t : Nat) : Nat :=
  let t := if s.on LCD_CTRL.TRIMEN then t else 63
  (2 * s.lcdSlot * (t + 33) + 96) / 192

/-- A trim code (R605). -/
def LcdSt.code (l : LcdSt) (c seg : Nat) : Nat := (SMap.get (fun _ => 63#8) l.trim (48 * c + seg)).toNat % 64

/-- A segment is on in the displayed copy (R601). -/
def LcdSt.lit (l : LcdSt) (c : Fin 8) (seg : Nat) : Bool :=
  if seg < 32 then (l.shown[(Fin.ofNat 16 (2 * c.val))]).getLsbD seg
  else (l.shown[(Fin.ofNat 16 (2 * c.val + 1))]).getLsbD (seg - 32)

/-! ### Regions (R601 to R603) -/

/-- The bits of region `r` in a word of even or odd index, with 8 commons (`mux`) or 4 (R601). -/
def regionMask (mux : Bool) (r w : Nat) : Word :=
  let m := (if mux && r == 7 then 3 else 63) * 2 ^ (6 * r)
  BitVec.ofNat 32 (if w % 2 = 0 then m else m / 2 ^ 32)

/-- Words with region `r` replaced by that of `src`. -/
def copyRegion (mux : Bool) (r : Nat) (src dst : Vector Word 16) : Vector Word 16 :=
  Vector.ofFn (fun (w : Fin 16) =>
    let m := regionMask mux r w
    (dst[w] &&& ~~~m) ||| (src[w] &&& m))

def State.backBuffer (s : State) : Vector Word 16 := Vector.ofFn (fun (w : Fin 16) => s.rd (LCD_FRAME.adr w))

/-- A write of `LCD_UPD` (R602, R603). -/
def State.lcdUpd (s : State) (mask : Nat) : State :=
  (bitsSet 8 mask).foldl (fun (s : State) (r : Nat) =>
    if s.on LCD_CTRL.EN then
      let s := if s.bit LCD_STAT.PEND r then s.raiseBit LCD_STAT.SUPERSEDED r else s
      (s.raiseBit LCD_STAT.PEND r).modLcd (fun l => { l with pending := copyRegion (s.on LCD_CTRL.MUX) r s.backBuffer l.pending })
    else s.modLcd (fun l => { l with shown := copyRegion (s.on LCD_CTRL.MUX) r s.backBuffer l.shown })) s

/-! ### Boundaries, bands and the pump (R600, R602, R605 to R608) -/

/-- Band `b` comes into force (R607). -/
def State.bandTo (s : State) (b : Nat) : State :=
  let old := s.get LCD_STAT.BAND
  let s := s.set LCD_STAT.BAND b
  if s.get (LCD_BAND.CODE b) = s.get (LCD_BAND.CODE old) then s else s.set LCD_STAT.PUMPOK 0

/-- `FRAME_PAIR_BOUNDARY` (R602, R605, R607, R608). -/
def State.lcdBoundary (s : State) : State :=
  if s.lcd.driving then
    let shown := (bitsSet 8 (s.get LCD_STAT.PEND)).foldl
      (fun (d : Vector Word 16) (r : Nat) => copyRegion (s.on LCD_CTRL.MUX) r s.lcd.pending d) s.lcd.shown
    let s := match s.lcd.band with
      | some b => s.bandTo b
      | none => s
    let s := (s.set LCD_STAT.PEND 0).modLcd (fun l => { l with
      shown := shown, band := none, trim := l.loaded.getD l.trim, loaded := none })
    if s.lcdActive then s
    else
      let s := (s.modLcd (fun l => { l with driving := false })).set LCD_STAT.PUMPOK 0
      if s.lcdClock then s else s.setBitOf APM_CLKRUN.BLOCKS 3 false
  else s

/-- The band that temperature `t` selects (R606). -/
def State.bandFor (s : State) (t : Int) : Nat :=
  ((List.range 8).find? (fun b => decide (t < s.getInt (LCD_BAND.LIM b)))).getD 7

/-- `LCD_TEMP_SAMPLE` (R606). -/
def State.lcdTemp (s : State) (t : Int) : State :=
  if s.lcdActive then
    let t := clampInt (-128) 127 t
    let s := s.set LCD_TEMP.TEMP (bitsOf 8 t).toNat
    let cur := s.get LCD_STAT.BAND
    let b := s.bandFor t
    let c := s.bandFor (t + 2)
    let d := if cur < b then b else if b < cur ∧ c < cur then c else cur
    s.modLcd (fun l => { l with band := some d })
  else s

/-- `LCD_PUMP_SETTLED` (R600). -/
def State.pumpSettled (s : State) : State := if s.lcd.driving then s.raise LCD_STAT.PUMPOK else s

/-! ### Trim map (R605) -/

/-- The display-map region of MRAM (R336). -/
def mapBase : Nat := 0x11B00000
def mapSize : Nat := 0x40000

/-- A write of `LCD_TRIM` (R605). -/
def State.lcdTrim (s : State) (w : Word) : State :=
  let off := fieldOf w 17 0
  let s := s.set LCD_TRIM.OFFS off
  if w.getLsbD 31 then
    if s.on LCD_STAT.TRIMBUSY ∨ mapSize < off + 384 then s.raise LCD_STAT.TRIMERR
    else (s.raise LCD_STAT.TRIMBUSY).modLcd (fun l => { l with load := some off })
  else s

/-- The map in 384 bytes, as a sparse map from unlisted code 63. -/
def trimMap (l : List Byte) : SMap Byte :=
  ((List.range l.length).zip l).filter (fun x => decide (x.2 ≠ 63#8))

/-- `LCD_TRIM_LOAD_DONE` (R605): the codes are bits [5:0] of the bytes; an uncorrectable error refuses the load. -/
def State.lcdTrimDone (s : State) : State :=
  match s.lcd.load with
  | none => s
  | some off =>
    let a := mapBase + off
    let m := trimMap ((s.bytes a 384).map (fun (b : Byte) => b &&& 63#8))
    let t := ((s.eccReads a 384).set LCD_STAT.TRIMBUSY 0).modLcd (fun l => { l with load := none })
    if s.spoiltAny a 384 then t.raise LCD_STAT.TRIMERR else t.modLcd (fun l => { l with loaded := some m })

/-! ### Enables (R524, R525, R597, R608) -/

/-- `LCD_CTRL` or the clock enable has been written: the driver begins to drive. -/
def State.lcdSettle (s : State) : State :=
  if s.lcdActive then s.modLcd (fun l => { l with driving := true }) else s

/-- A write of `APM_CLKEN` (R524, R525, R586). A serial port and the touch controller stop at once: a
character and a scan are one command each. The display completes its frame pair. -/
def State.apmClkenWrite (s : State) (v : Nat) : State :=
  let old := s.get APM_CLKEN.BLOCKS
  let s := s.set APM_CLKEN.BLOCKS v
  let keep := if old.testBit 3 && s.lcd.driving && !v.testBit 3 then 8 else 0
  let s := s.set APM_CLKRUN.BLOCKS (s.get APM_CLKEN.BLOCKS ||| keep)
  let s := if v.testBit 2 && !old.testBit 2 && s.on TCH_CTRL.EN then s.tchBegin else s
  s.lcdSettle

/-- A write of `TCH_CTRL` (R586, R597). -/
def State.tchCtrl (s : State) (w : Word) : State :=
  let was := s.on TCH_CTRL.EN
  let s := s.wr TCH_CTRL.adr w
  if s.on TCH_CTRL.EN && !was then s.tchBegin else s

/-- A write of `LCD_BANDb`: a new code of the band in force moves the pump (R600). -/
def State.lcdBandWrite (s : State) (b : Nat) (w : Word) : State :=
  let old := s.get (LCD_BAND.CODE b)
  let s := s.wr (LCD_BAND.adr b) (w &&& 0xFF00073F#32)
  if s.get LCD_STAT.BAND = b ∧ s.get (LCD_BAND.CODE b) ≠ old then s.set LCD_STAT.PUMPOK 0 else s

end Sys2Proof.Machine
end

