-- ==== Sys2Proof/Machine/Crypto.lean ====
section
/-!
DEFINITION. Machine/Crypto.lean: the functions that the spec names by their standards: SHA-256 (FIPS 180-4),
AES-CMAC (FIPS 197, RFC 4493), ECDSA over P-256 (FIPS 186-4) with the nonce of RFC 6979. PRESUMED: the
standards' text is not part of the spec.
-/
namespace Sys2Proof.Machine

/-! ### SHA-256 -/

/-- The first 32 fractional bits of the root of degree `k` (2 or 3) of the prime `p`: an integer root by
bits. -/
def rootBits (k p : Nat) : Nat → Nat → Nat
  | 0, r => r
  | b + 1, r => rootBits k p b (if (r + 2 ^ b) ^ k ≤ p * 2 ^ (32 * k) then r + 2 ^ b else r)

/-- The first 64 primes. -/
def primes64 : List Nat :=
  [2, 3, 5, 7, 11, 13, 17, 19, 23, 29, 31, 37, 41, 43, 47, 53] ++
  [59, 61, 67, 71, 73, 79, 83, 89, 97, 101, 103, 107, 109, 113, 127, 131] ++
  [137, 139, 149, 151, 157, 163, 167, 173, 179, 181, 191, 193, 197, 199, 211, 223] ++
  [227, 229, 233, 239, 241, 251, 257, 263, 269, 271, 277, 281, 283, 293, 307, 311]

/-- The round constants and the initial hash value. -/
def shaK : List Word := primes64.map (fun p => BitVec.ofNat 32 (rootBits 3 p 36 0))
def shaInit : List Word := (primes64.take 8).map (fun p => BitVec.ofNat 32 (rootBits 2 p 38 0))

/-- Extend a message schedule, newest word first, by `n` words. -/
def shaSchedule : Nat → List Word → List Word
  | 0, w => w
  | n + 1, w =>
    let a := w.getD 1 0
    let b := w.getD 14 0
    let s1 := a.rotateRight 17 ^^^ a.rotateRight 19 ^^^ (a >>> 10)
    let s0 := b.rotateRight 7 ^^^ b.rotateRight 18 ^^^ (b >>> 3)
    shaSchedule n ((s1 + w.getD 6 0 + s0 + w.getD 15 0) :: w)

/-- One round on the eight working words. -/
def shaRound (h : List Word) (kw : Word × Word) : List Word :=
  match h with
  | [a, b, c, d, e, f, g, i] =>
    let s1 := e.rotateRight 6 ^^^ e.rotateRight 11 ^^^ e.rotateRight 25
    let ch := (e &&& f) ^^^ (~~~e &&& g)
    let t1 := i + s1 + ch + kw.1 + kw.2
    let s0 := a.rotateRight 2 ^^^ a.rotateRight 13 ^^^ a.rotateRight 22
    let maj := (a &&& b) ^^^ (a &&& c) ^^^ (b &&& c)
    [t1 + (s0 + maj), a, b, c, d + t1, e, f, g]
  | h => h

/-- Words of bytes, most significant byte first. -/
def beWords : Nat → List Byte → List Word
  | 0, _ => []
  | n + 1, l => BitVec.ofNat 32 (ofBeBytes (l.take 4)) :: beWords n (l.drop 4)

/-- One block of 64 bytes. -/
def shaBlock (h : List Word) (blk : List Byte) : List Word :=
  let w := (shaSchedule 48 (beWords 16 blk).reverse).reverse
  List.zipWith (· + ·) h ((List.zip shaK w).foldl shaRound h)

/-- The blocks of a padded message. -/
def shaBlocks : Nat → List Word → List Byte → List Word
  | 0, h, _ => h
  | n + 1, h, l => shaBlocks n (shaBlock h (l.take 64)) (l.drop 64)

/-- SHA-256 of a message, 32 bytes. -/
def sha256 (m : List Byte) : List Byte :=
  let p := m ++ [0x80#8] ++ List.replicate ((119 - m.length % 64) % 64) 0#8 ++ beBytes 8 (8 * m.length)
  (shaBlocks (p.length / 64) shaInit p).flatMap (fun w => beBytes 4 w.toNat)

/-- HMAC-SHA-256. -/
def hmac (key m : List Byte) : List Byte :=
  let k := key ++ List.replicate (64 - key.length) 0#8
  sha256 (k.map (· ^^^ 0x5C#8) ++ sha256 (k.map (· ^^^ 0x36#8) ++ m))

/-! ### AES-128 and CMAC -/

/-- Product in GF(2^8) by the polynomial 0x11B. -/
def gfMul (a b : Nat) : Nat :=
  ((List.range 8).foldl (fun (x : Nat × Nat) i =>
    (if b.testBit i then x.1 ^^^ x.2 else x.1,
     if 128 ≤ x.2 then (2 * x.2) ^^^ 0x11B else 2 * x.2)) (0, a)).1

/-- The inverse in GF(2^8): a^254, as a^240 times a^14. -/
def gfInv (a : Nat) : Nat :=
  let sq (x : Nat) : Nat := gfMul x x
  let a2 := sq a
  let a14 := gfMul (sq (sq (gfMul a2 a))) a2
  gfMul (sq (sq (sq (sq (gfMul a14 a))))) a14

/-- The S-box. -/
def aesSub (a : Nat) : Nat :=
  let b := gfInv a
  let r (k : Nat) : Nat := (b * 2 ^ k) % 256 + b / 2 ^ (8 - k)
  b ^^^ r 1 ^^^ r 2 ^^^ r 3 ^^^ r 4 ^^^ 0x63

/-- The round keys, 16 bytes each, from the previous one and the round constant. -/
def aesNextKey (k : List Nat) (rcon : Nat) : List Nat :=
  let t := [aesSub (k.getD 13 0) ^^^ rcon, aesSub (k.getD 14 0), aesSub (k.getD 15 0), aesSub (k.getD 12 0)]
  let x (a b : List Nat) : List Nat := List.zipWith (· ^^^ ·) a b
  let w0 := x (k.take 4) t
  let w1 := x ((k.drop 4).take 4) w0
  let w2 := x ((k.drop 8).take 4) w1
  w0 ++ w1 ++ w2 ++ x (k.drop 12) w2

/-- SubBytes and ShiftRows on a state held column by column. -/
def aesShift (s : List Nat) : List Nat :=
  (List.range 16).map (fun i => aesSub (s.getD ((i + 4 * (i % 4)) % 16) 0))

/-- MixColumns. -/
def aesMix (s : List Nat) : List Nat :=
  (List.range 16).map (fun i =>
    let c := i / 4 * 4
    let at_ (k : Nat) : Nat := s.getD (c + (i + k) % 4) 0
    gfMul 2 (at_ 0) ^^^ gfMul 3 (at_ 1) ^^^ at_ 2 ^^^ at_ 3)

/-- The rounds after the first key addition; `n` full rounds remain. -/
def aesRounds : Nat → List Nat → List Nat → Nat → List Nat
  | 0, s, k, rc => List.zipWith (· ^^^ ·) (aesShift s) (aesNextKey k rc)
  | n + 1, s, k, rc =>
    let k := aesNextKey k rc
    aesRounds n (List.zipWith (· ^^^ ·) (aesMix (aesShift s)) k) k (gfMul rc 2)

/-- AES-128 of one block. -/
def aes (key blk : List Byte) : List Byte :=
  let k := key.map BitVec.toNat
  (aesRounds 9 (List.zipWith (· ^^^ ·) (blk.map BitVec.toNat) k) k 1).map (BitVec.ofNat 8)

/-- Doubling in GF(2^128). -/
def cmacDouble (l : List Byte) : List Byte :=
  let n := ofBeBytes l
  beBytes 16 (if 2 ^ 127 ≤ n then (2 * n) % 2 ^ 128 ^^^ 0x87 else 2 * n)

/-- The chained blocks of CMAC before the last, and the last with its subkey. -/
def cmacBlocks (key k1 k2 : List Byte) : Nat → List Byte → List Byte → List Byte
  | 0, x, _ => x
  | n + 1, x, m =>
    let xor (a b : List Byte) : List Byte := List.zipWith (· ^^^ ·) a b
    if m.length ≤ 16 then
      let last := if m.length = 16 then xor m k1
        else xor (m ++ [0x80#8] ++ List.replicate (15 - m.length) 0#8) k2
      aes key (xor x last)
    else cmacBlocks key k1 k2 n (aes key (xor x (m.take 16))) (m.drop 16)

/-- AES-CMAC under a 128-bit key, 16 bytes. -/
def cmac (key : BitVec 128) (m : List Byte) : List Byte :=
  let k := beBytes 16 key.toNat
  let k1 := cmacDouble (aes k (List.replicate 16 0#8))
  cmacBlocks k k1 (cmacDouble k1) (m.length / 16 + 1) (List.replicate 16 0#8) m

/-! ### ECDSA over P-256 -/

def p256P : Nat := 2 ^ 256 - 2 ^ 224 + 2 ^ 192 + 2 ^ 96 - 1
def p256N : Nat := 0xFFFFFFFF00000000FFFFFFFFFFFFFFFFBCE6FAADA7179E84F3B9CAC2FC632551
def p256B : Nat := 0x5AC635D8AA3A93E7B3EBBD55769886BC651D06B0CC53B0F63BCE3C3E27D2604B
def p256G : Nat × Nat :=
  (0x6B17D1F2E12C4247F8BCE6E563A440F277037D812DEB33A0F4A13945D898C296,
   0x4FE342E2FE1A7F9B8EE7EB4A7C0F9E162BCE33576B315ECECBB6406837BF51F5)

/-- `a^e mod m`, over the bits of `e` from bit `b - 1` down. -/
def powMod (m a e : Nat) : Nat → Nat → Nat
  | 0, r => r
  | b + 1, r =>
    let r := r * r % m
    powMod m a e b (if e.testBit b then r * a % m else r)

/-- The inverse modulo a prime. -/
def invMod (m a : Nat) : Nat := powMod m (a % m) (m - 2) 256 1

/-- Difference modulo `p`. -/
def subMod (a b : Nat) : Nat := (a + p256P - b % p256P) % p256P

/-- Sum of two points; none is the point at infinity. -/
def ecAdd : Option (Nat × Nat) → Option (Nat × Nat) → Option (Nat × Nat)
  | none, q => q
  | p, none => p
  | some (x1, y1), some (x2, y2) =>
    if x1 = x2 ∧ (y1 + y2) % p256P = 0 then none
    else
      let l := if x1 = x2 then (3 * x1 * x1 + p256P - 3) % p256P * invMod p256P (2 * y1) % p256P
        else subMod y2 y1 * invMod p256P (subMod x2 x1) % p256P
      let x := subMod (l * l) (x1 + x2)
      some (x, subMod (l * subMod x1 x) y1)

/-- `k` times a point, over the bits of `k` from bit `b - 1` down. -/
def ecMul (k : Nat) (q : Option (Nat × Nat)) : Nat → Option (Nat × Nat) → Option (Nat × Nat)
  | 0, r => r
  | b + 1, r =>
    let r := ecAdd r r
    ecMul k q b (if k.testBit b then ecAdd r q else r)

def ecTimes (k : Nat) (q : Nat × Nat) : Option (Nat × Nat) := ecMul k (some q) 256 none

/-- The public key of a private key, x and y. -/
def publicKey (d : BitVec 256) : BitVec 512 :=
  match ecTimes d.toNat p256G with
  | some (x, y) => BitVec.ofNat 512 (x * 2 ^ 256 + y)
  | none => 0

/-- The candidates of RFC 6979 for digest `h` and key `d`: keep the first from 1 to n - 1. -/
def rfc6979 : Nat → List Byte → List Byte → Nat
  | 0, _, _ => 1
  | f + 1, k, v =>
    let v := hmac k v
    let c := ofBeBytes v
    if 0 < c ∧ c < p256N then c
    else
      let k := hmac k (v ++ [0x00#8])
      rfc6979 f k (hmac k v)

/-- The nonce for a digest (RFC 6979). -/
def ecdsaNonce (d : BitVec 256) (h : List Byte) : Nat :=
  let x := beBytes 32 d.toNat
  let z := beBytes 32 (ofBeBytes h % p256N)
  let v := List.replicate 32 0x01#8
  let k := hmac (List.replicate 32 0#8) (v ++ [0x00#8] ++ x ++ z)
  let v := hmac k v
  let k := hmac k (v ++ [0x01#8] ++ x ++ z)
  rfc6979 64 k (hmac k v)

/-- The signature (r, s) of a message under a private key. -/
def ecdsaSign (d : BitVec 256) (m : List Byte) : Nat × Nat :=
  let h := sha256 m
  let k := ecdsaNonce d h
  match ecTimes k p256G with
  | some (x, _) =>
    let r := x % p256N
    (r, invMod p256N k * ((ofBeBytes h + r * d.toNat) % p256N) % p256N)
  | none => (0, 0)

/-- A signature verifies under a public key. -/
def ecdsaVerify (pub : BitVec 512) (m : List Byte) (r s : Nat) : Bool :=
  if r = 0 ∨ p256N ≤ r ∨ s = 0 ∨ p256N ≤ s then false
  else
    let q := (pub.toNat / 2 ^ 256, pub.toNat % 2 ^ 256)
    let onCurve := q.1 < p256P ∧ q.2 < p256P ∧
      q.2 * q.2 % p256P = (q.1 * q.1 * q.1 + (p256P - 3) * q.1 + p256B) % p256P
    let w := invMod p256N s
    let u1 := ofBeBytes (sha256 m) % p256N * w % p256N
    let u2 := r * w % p256N
    match ecAdd (ecTimes u1 p256G) (ecTimes u2 q) with
    | some (x, _) => decide onCurve && x % p256N == r
    | none => false

end Sys2Proof.Machine
end

