-- ==== Sys2Proof/Machine/Harvest.lean ====
section
/-!
DEFINITION. Machine/Harvest.lean: power path, harvester, purse and grants (16), and the supplies (R502, R527,
R528, R609).
-/
namespace Sys2Proof.Machine

/-! ### Thresholds (16) -/

/-- The voltage of a threshold code in mV. -/
def codeMv (c : Nat) : Nat := 1500 + 20 * c

/-- VMAX, VEXIT, VFLOOR and TITHE as they act (16, R536, R549). -/
def State.vmax (s : State) : Nat := codeMv (min 145 (s.get HRV_VTH.VMAX))
def State.vexit (s : State) : Nat := codeMv (max (s.get HRV_VTH.VEXIT) (s.get HRV_VTH.VSEAL + 10))
def State.vfloor (s : State) : Nat := codeMv (max 15 (s.get HRV_TITHE.VFLOOR))
def State.tithe (s : State) : Nat := max 60 (s.get HRV_TITHE.TITHE)

def State.purse (s : State) : Nat := s.get HRV_PURSE.UJ
def State.vstore (s : State) : Nat := s.get HRV_VSTORE.MV

/-- The largest purse. -/
def purseMax : Nat := 16777215

/-- The sum of the amounts that outstanding grants reserve (R537). -/
def State.reservedSum (s : State) : Nat := s.ao.reserved.toList.sum

/-- AVAIL (R537). -/
def State.avail (s : State) : Nat := s.purse - s.tithe - s.reservedSum

/-- The store is a cell (R535). -/
def State.isCell (s : State) : Bool := s.get HRV_MODEL.TYPE == 1

/-- The purse is set, and crosses the wake level perhaps (R538). -/
def State.setPurse (s : State) (p : Nat) : State :=
  let old := s.purse
  let s := s.set HRV_PURSE.UJ (min purseMax p)
  let l := s.get HRV_WAKETH.LEVEL
  let cross := if s.on HRV_WAKETH.DIR then decide (l ≤ old ∧ s.purse < l) else decide (old < l ∧ l ≤ s.purse)
  if cross then (s.raise HRV_STAT.THRX).wakeFire 9 else s

/-- A cell's purse starts at CAP (R535). -/
def State.cellStart (s : State) : State :=
  if s.isCell then s.set HRV_PURSE.UJ (min purseMax (s.get HRV_MODEL.CAP)) else s

/-- A cause of a brown-out warning holds (R542). -/
def State.warnCause (s : State) : Bool :=
  decide (s.vstore < codeMv (s.get HRV_VTH.VWARN)) ||
    ((List.range 4).any (fun h => s.on (HRV_GRANT.GRANTED h)) && decide (s.purse < s.tithe + s.reservedSum))

/-- The purse of a capacitor at `v` mV (R535), rounded down. -/
def State.capPurse (s : State) (v : Nat) : Nat :=
  500 * s.get HRV_MODEL.CAP * (v * v - s.vfloor * s.vfloor) / 1000000

/-- `PURSE_RECOMPUTE`: VHIN and VSTORE are measured and the purse recomputed (R535). What a charge counter
measures is a free value; in Cellar only the voltages are watched (R549). -/
def State.purseRecompute (s : State) (vin vstore : Nat) : State :=
  if s.aoOn then
    let s := (s.set HRV_VIN.MV (min 65535 vin)).set HRV_VSTORE.MV (min 65535 vstore)
    if s.mode = mCellar then s
    else
      let s := s.set HRV_STAT.FULL (if s.vmax ≤ vstore then 1 else 0)
      let s := if s.isCell then
          let (n, s) := s.drawNat
          s.setPurse (if s.on HRV_STAT.FULL then purseMax else n % (purseMax + 1))
        else s.setPurse (s.capPurse vstore)
      if s.warnCause then s else { s with ao := { s.ao with warned := false } }
  else s

/-- `STORE_FULL` (R531, R535). -/
def State.storeFull (s : State) : State :=
  if s.aoOn then
    let s := s.set HRV_STAT.FULL 1
    if s.isCell then s.setPurse purseMax else s
  else s

/-- `VOC_SAMPLE` (R533). -/
def State.vocSample (s : State) (voc : Nat) : State :=
  if s.aoOn && s.on HRV_CTRL.HEN then
    { s.set HRV_VOC.MV (min 65535 voc) with ao := { s.ao with
        point := clampNat 32 60 (s.get HRV_MPPT.FRAC) * voc, period := 2 ^ min 9 (s.get HRV_MPPT.PER) } }
  else s

/-! ### What charges the store (R529, R531, R532, R534) -/

/-- The power-path controller charges the store from VSYS, with at most CHGI mA (R529). -/
def State.chargesFromVsys (s : State) : Bool :=
  s.on HRV_STAT.SRC && s.on HRV_CTRL.CHGI && decide (s.vstore < s.vmax)

/-- The harvester charges the store from `vin` mV on VHIN (R531); in Cellar too, supplied from VHIN alone (R534). -/
def State.harvests (s : State) (vin : Nat) : Bool :=
  decide (s.ao.phase ≠ .off) && s.on HRV_CTRL.HEN && decide (250 ≤ vin ∧ vin ≤ 5500) && decide (s.vstore < s.vmax)

/-- The cold-start circuit charges the store from `vin` mV and `uw` µW on VHIN (R532). -/
def State.coldCharges (s : State) (vin uw : Nat) : Bool :=
  decide (s.ao.phase = .off) && decide (380 ≤ vin ∧ 15 ≤ uw)

/-! ### Grants (R539 to R541) -/

def State.modReserved (s : State) (h : Fin 4) (n : Nat) : State :=
  { s with ao := { s.ao with reserved := s.ao.reserved.set h n } }

/-- Holder `h` is given a grant that reserves `n`. -/
def State.giveGrant (s : State) (h : Fin 4) (n : Nat) : State :=
  let s := (s.modReserved h n).set (HRV_GRANT.AMOUNT h) n
  (s.raise (HRV_GRANT.GRANTED h)).set (HRV_GRANT.DENIED h) 0

/-- A request of holder `h` for `n` µJ (R539, R540). -/
def State.grantRequest (s : State) (h : Fin 4) (n : Nat) : State :=
  if s.on (HRV_GRANT.GRANTED h) then s.raise (HRV_GRANT.DENIED h)
  else if s.on HRV_STAT.SEALING then (s.set (HRV_GRANT.AMOUNT h) n).raise (HRV_GRANT.DENIED h)
  else if s.on HRV_STAT.SRC then s.giveGrant h 0
  else if n ≤ s.avail then s.giveGrant h n
  else (s.set (HRV_GRANT.AMOUNT h) n).raise (HRV_GRANT.DENIED h)

/-- Holder `h` returns its grant (R541). -/
def State.grantReturn (s : State) (h : Fin 4) : State := (s.modReserved h 0).set (HRV_GRANT.GRANTED h) 0

/-- The holder that an agent is. -/
def holderOf : Agent → Option (Fin 4)
  | .core .aoc => some 1
  | .core .mgt0 => some 2
  | .core .mgt1 => some 3
  | _ => none

/-- A write of `HRV_GRANTh` (R539, R540; 16). -/
def State.grantWrite (s : State) (ag : Agent) (h : Fin 4) (w : Word) : State :=
  if holderOf ag = some h then
    let b (i : Nat) : Bool := w.getLsbD i
    let s := if b 28 && s.clearable (HRV_GRANT.DENIED h) then s.set (HRV_GRANT.DENIED h) 0 else s
    let s := if b 27 && s.clearable (HRV_GRANT.WARN h) then s.set (HRV_GRANT.WARN h) 0 else s
    let s := if b 26 && s.clearable (HRV_GRANT.REVOKED h) then s.set (HRV_GRANT.REVOKED h) 0 else s
    if b 30 then
      let s := (s.grantReturn h).set (HRV_GRANT.AMOUNT h) (fieldOf w 23 0)
      if b 31 then s.raise (HRV_GRANT.DENIED h) else s
    else if b 31 then s.grantRequest h (fieldOf w 23 0)
    else if s.on (HRV_GRANT.GRANTED h) then s
    else s.set (HRV_GRANT.AMOUNT h) (fieldOf w 23 0)
  else s

/-! ### Warnings and the seal threshold (R542 to R544) -/

/-- `BROWN_OUT_WARNING` (R542). -/
def State.brownOut (s : State) : State :=
  if s.aoOn ∧ s.mode ≠ mCellar ∧ s.warnCause ∧ !s.ao.warned then
    let s := ({ s with ao := { s.ao with warned := true } }.raise HRV_STAT.BOWARN).aoSignal 0x1CC
    (List.range 4).foldl (fun (s : State) (h : Nat) =>
      if s.on (HRV_GRANT.GRANTED h) then s.raise (HRV_GRANT.WARN h) else s) s
  else s

/-- The seal threshold ends the grant of holder `h`: one that was given in this cycle is denied (R540), and those of holders
1 to 3 are withdrawn (R544). -/
def State.sealGrant (s : State) (h : Fin 4) : State :=
  if !s.on (HRV_GRANT.GRANTED h) then s
  else if !s.clearable (HRV_GRANT.GRANTED h) then (s.grantReturn h).raise (HRV_GRANT.DENIED h)
  else if h = 0 then s
  else (s.grantReturn h).raise (HRV_GRANT.REVOKED h)

/-- `SEAL_THRESHOLD` (R540, R543, R544). -/
def State.sealThreshold (s : State) : State :=
  if s.aoOn ∧ s.mode ≠ mCellar ∧ !s.on HRV_STAT.SRC ∧ !s.on HRV_STAT.SEALING ∧
      (s.purse ≤ s.tithe ∨ s.vstore ≤ codeMv (s.get HRV_VTH.VSEAL)) then
    let s := (List.finRange 4).foldl (fun (s : State) (h : Fin 4) => s.sealGrant h) s
    ((s.raise HRV_STAT.SEALING).set APM_CLK.BRCF 1).wakeBrc
  else s

/-! ### Supplies (R502, R527, R528, R609) -/

/-- The machine supply as the registers show it. -/
def State.showVsys (s : State) (on : Bool) : State :=
  let b := if on then 1 else 0
  ((s.set APM_MODE.VSYS b).set HRV_STAT.VSYS b).set HRV_STAT.SRC b

/-- Loss or return of the machine supply is watched (R385). -/
def State.supplyEvent (s : State) (code : Nat) : State :=
  if s.bit LGR_WATCH_CFG.EN 0 ∧ s.mode ≠ mCellar then
    (s.ledgerEvent 0x21 code (List.replicate 32 0#8)).watchReport (s.bit LGR_WATCH_CFG.WAKE 0)
  else s

/-- `VSYS_FAIL` (R502, R613). -/
def State.vsysFail (s : State) : State :=
  if s.ao.vsys then
    let s := ({ s with ao := { s.ao with vsys := false, toField := false } }.showVsys false).dropField
    let s := ((s.dropTo5 0).dropTo5 1).dropTo5 2
    let s := s.raise APM_RSTCAUSE.VSYSF
    (if s.mode = mField ∨ s.mode = mYard then s.modeTo mBarn else s).supplyEvent 0
  else s

/-- The always-on domain starts: by power-up from no supply (`full`), or by a restart (R610, R613). -/
def State.aoStart (s : State) (full : Bool) : State :=
  let s := (s.resetAo full).showVsys s.ao.vsys
  { s with ao := { s.ao with phase := .starting, full := full } }

/-- The device leaves Cellar for Barn (R500, R504, R535). -/
def State.leaveCellar (s : State) : State :=
  let s := ((s.raise APM_RSTCAUSE.CELLAR).modeTo mBarn).clearMem 0x41000000 0x41050000
  (s.aoStart false).cellStart

/-- `CELLAR_EXIT` (R549). -/
def State.cellarExit (s : State) : State :=
  if s.mode = mCellar ∧ s.ao.phase ≠ .off ∧ (s.ao.vsys ∨ s.vexit ≤ s.vstore) then s.leaveCellar else s

/-- Power-up from no supply (R528, R555, R613). -/
def State.powerUp (s : State) (cold : Bool) : State :=
  let s := (s.wr APM_RSTCAUSE.adr 1).clearMem 0x41000000 0x41050000
  let s := s.aoStart true
  let s := { s with ao := { s.ao with byPin := false, restart := false } }.wr APM_RSTCAUSE.adr 1
  (if cold then s.raise HRV_STAT.COLD else s).cellStart

/-- `VSYS_RETURN` (R500, R511, R527, R548). -/
def State.vsysReturn (s : State) : State :=
  if s.ao.vsys then s
  else
    let s := { s with ao := { s.ao with vsys := true } }
    if s.ao.phase = .off then s.powerUp false
    else
      let s := ((s.showVsys true).supplyEvent 1).wakeFire 10
      if s.mode = mCellar then s.leaveCellar else s.domainVotes

/-- `AO_POWER_UP` (R528, R532). -/
def State.aoPowerUp (s : State) : State :=
  if s.ao.phase = .off ∧ !s.ao.vsys then s.powerUp true else s

/-- `AO_POWER_LOSS` (R528). -/
def State.aoPowerLoss (s : State) : State :=
  if s.ao.phase ≠ .off ∧ !s.ao.vsys then
    { s with ao := { s.ao with phase := .off, restart := false }, core := s.core.set 4 (CoreSt.reset false) }
  else s

/-- `RAIL_OUT_OF_RANGE` (R609). -/
def State.railOut (s : State) (d : Fin 3) : State :=
  let s := s.modDom d (fun x => { x with powered := false })
  let s := s.dropTo5 d
  if d = 0 ∧ (s.mode = mField ∨ s.mode = mYard) then (s.dropField.modeTo mBarn).domainVotes else s

/-- `RAIL_IN_RANGE` (R609). -/
def State.railIn (s : State) (d : Fin 3) : State :=
  (s.modDom d (fun x => { x with powered := true })).domainVotes

end Sys2Proof.Machine
end

