-- ==== Sys2Proof/Machine/Ledger.lean ====
section
/-!
DEFINITION. Machine/Ledger.lean: the hour ledger's engine (11): slots, chain, seals, recovery, condensing,
acknowledgement, the watch sources, and the final sequence (16). A slot and a seal record are each written
in one step.
-/
namespace Sys2Proof.Machine

/-! ### Values that the window shows too (R70, R622) -/

/-- What `CPM_BOOT` shows outside the fast domain: clamped while that is unpowered (R33, R622). -/
def State.bootWord (s : State) : Word := if 3 ≤ (s.dom[0]).level then 0 else s.rd CPM_BOOT.adr

/-- `WIN_REV` (R70). -/
def State.winRev (s : State) : Word :=
  BitVec.ofNat 32 (Config.revClass.toNat * 2 ^ 24 + Config.revStep.toNat * 2 ^ 16 + fieldOf s.bootWord 31 16)

/-- `WIN_MODE.LCS` (02). -/
def lcsCode : LifeState → Nat
  | .maker => 0
  | .provisioned => 1
  | .deployed => 2
  | .returned => 3

/-- The identity public key, x ‖ y (R366, R388). -/
def identityPub : BitVec 512 := publicKey Config.identityKey

/-- The first 16 bytes of SHA-256 of the identity public key (R72). -/
def identityHash : List Byte := (sha256 (beBytes 64 identityPub.toNat)).take 16

/-! ### Slots (R364, R365, R367) -/

def ledgerSlots : Nat := 131072
def ledgerBase : Nat := 0x11100000

/-- The address of the slot of index `i` (R367). -/
def slotAddr (i : Nat) : Nat := ledgerBase + 64 * (i % ledgerSlots)

/-- The 64 bytes of the slot of index `i`. -/
def State.slotBytes (s : State) (i : Nat) : List Byte := s.bytes (slotAddr i) 64

/-- The slot of index `i` cannot be read (R333). -/
def State.slotSpoilt (s : State) (i : Nat) : Bool := s.spoiltAny (slotAddr i) 64

/-- The engine reads the slots of a list of indices; one that cannot be read sets ECC (R333, R378). -/
def State.slotReads (s : State) (l : List Nat) : State :=
  if s.upset.isEmpty then s
  else
    let bad := l.any s.slotSpoilt
    let s := l.foldl (fun (s : State) (i : Nat) => s.eccReads (slotAddr i) 64) s
    if bad then s.raise LGR_STAT.ECC else s

/-- The indices of `n` slots from index `i` on. -/
def slotRange (i n : Nat) : List Nat := (List.range n).map (fun k => i + k)

/-- Fields of a slot's bytes (R364). -/
def slotIndex (b : List Byte) : Nat := ofLeBytes (b.take 4)
def slotType (b : List Byte) : Nat := (b.getD 4 0).toNat
def slotFlags (b : List Byte) : Nat := (b.getD 5 0).toNat
def slotCode (b : List Byte) : Nat := ofLeBytes ((b.drop 6).take 2)
def slotSecs (b : List Byte) : Nat := ofLeBytes ((b.drop 8).take 5)
def slotPayload (b : List Byte) : List Byte := (b.drop 16).take 32
def slotLink (b : List Byte) : List Byte := b.drop 48

/-- The link of an entry with bytes 0 to 47 `b`, after an entry with link `prev` (R365). -/
def linkOf (prev : BitVec 128) (b : List Byte) : List Byte :=
  (sha256 (beBytes 16 prev.toNat ++ b)).take 16

def State.modLgr (s : State) (f : LgrSt → LgrSt) : State := { s with lgr := f s.lgr }

/-- The index of the newest slot (11, `LGR_NEWEST`). -/
def State.newest (s : State) : Nat := s.get LGR_NEWEST.INDEX

/-- Slots free of unacknowledged entries (R382, R383). -/
def State.freeSlots (s : State) : Nat := ledgerSlots - (s.lgr.next - s.get LGR_OLDUNACK.INDEX)

/-- Bytes 0 to 47 of an entry written now (R364). -/
def State.entryHead (s : State) (type flags code : Nat) (payload : List Byte) : List Byte :=
  leBytes 4 s.lgr.next ++ [BitVec.ofNat 8 type, BitVec.ofNat 8 flags] ++ leBytes 2 code ++
    leBytes 5 s.cal.secs ++ leBytes 2 s.cal.sub ++ [BitVec.ofNat 8 (s.mode + 4 * lcsCode s.lcs)] ++
    (payload ++ List.replicate 32 0#8).take 32

/-- An entry's first 48 bytes are written to the next slot with their link (R365, R368). -/
def State.putEntry (s : State) (b : List Byte) : State :=
  let link := linkOf s.lgr.head b
  let s' := s.putBytes (slotAddr s.lgr.next) (b ++ link)
  (s'.wr LGR_NEWEST.adr (BitVec.ofNat 32 s.lgr.next)).modLgr (fun l => { l with
    head := BitVec.ofNat 128 (ofBeBytes link), next := l.next + 1, since := l.since + 1 })

/-- Flags bits 0 and 1 of an entry written now (R364). -/
def State.entryFlags (s : State) (lrc : Bool) : Nat :=
  (if lrc then 1 else 0) + (if s.on RTC_STAT.SET then 0 else 2)

/-- Write an entry that is no part of a seal record; the 60th since the last seal makes one due (R374). -/
def State.writeEntry (s : State) (type flags code : Nat) (payload : List Byte) : State :=
  let s := s.putEntry (s.entryHead type flags code payload)
  if s.lgr.since = 60 then s.sealDue 0 else s

/-- 32-bit saturation. -/
def sat32 (n : Nat) : Nat := min (2 ^ 32 - 1) n

/-- What stands for a slot that cannot be read: it counts as a merged event, and is not copied (R378). -/
def lostSlot : List Byte := [0#8, 0#8, 0#8, 0#8, 0x20#8]

/-- The slots of a span with their entries, signature slots left out; `sig` says that the first slot is
one. -/
def State.spanEntries (s : State) : Nat → Nat → Bool → List (List Byte)
  | 0, _, _ => []
  | n + 1, i, sig =>
    if sig then s.spanEntries n (i + 1) false
    else
      let b := s.slotBytes i
      (if s.slotSpoilt i then lostSlot else b) :: s.spanEntries n (i + 1) (slotType b == 0x52)

/-- The last index of the span that begins at `a`: 8,192 slots, extended to the end of the seal record in
which they end. -/
def State.spanEnd (s : State) (a : Nat) : Nat :=
  let e := a + 8191
  let t (i : Nat) : Nat := slotType (s.slotBytes i)
  if t e = 0x50 then e + 3 else if t e = 0x51 then e + 2 else if t e = 0x52 then e + 1 else e

/-- The calendar day of an entry. -/
def slotDay (b : List Byte) : Nat := slotSecs b / 86400

/-- Types that a condense copies (R382). -/
def copied (b : List Byte) : Bool :=
  [0x22, 0x21, 0x26, 0x28, 0x29].contains (slotType b)

/-- A condense of the oldest span is called for and would free enough (R382). -/
def State.condenseSpan (s : State) : Option (Nat × Nat × List (List Byte)) :=
  let a := s.get LGR_OLDUNACK.INDEX
  let e := s.spanEnd a
  let ents := s.spanEntries (e + 1 - a) a
    (slotType (s.slotBytes (a - 1)) == 0x52 && decide (0 < a) && slotIndex (s.slotBytes (a - 1)) == a - 1)
  let days := ((ents.filter (fun b => slotType b == 0x10)).map slotDay).eraseDups.length
  let used := 5 + days + min 1700 (ents.filter copied).length
  if s.freeSlots < 4097 ∧ e < s.lgr.next ∧ used + 1024 ≤ e + 1 - a then some (a, e, ents) else none

/-- The ledger is full when no condense is possible and fewer than 64 slots are free (R383). -/
def State.checkFull (s : State) : State :=
  s.set LGR_STAT.FULL (if s.freeSlots < 64 ∧ s.condenseSpan = none then 1 else 0)

/-! ### Grants (R372, R376) -/

/-- The engine obtains and returns a grant of `n` µJ around a burst: it may write while the machine supply
is present or the grant is given. -/
def State.lgrGrant (s : State) (n : Nat) : Bool × State :=
  if s.on HRV_STAT.SRC then (true, s)
  else
    let s := s.grantRequest 0 n
    if s.on (HRV_GRANT.GRANTED 0) then (true, s.grantReturn 0) else (false, s)

/-! ### Queued entries (R370 to R372) -/

/-- The HOUR entry that has fallen due is written (R366, R370). -/
def State.writeHour (s : State) (incs : List Nat) : State :=
  let sat : Bool := incs.any (fun n => decide (2 ^ 32 ≤ n))
  let fl := s.entryFlags s.lgr.lrcSeen + (if sat then 8 else 0)
  (s.writeEntry 0x10 fl (min 65535 s.lgr.lostHour) ((incs.map (fun n => leBytes 4 (sat32 n))).flatten)).modLgr
    (fun l => { l with hourDue := none, lostHour := 0, lrcSeen := false })

/-- A queued entry is written; a HANDOVER entry answers the command that queued it (R394). -/
def State.writeEvent (s : State) (e : LEvent) (q : List LEvent) : State :=
  let i := s.lgr.next
  let s := (s.modLgr (fun l => { l with queue := q })).writeEntry e.type
    (s.entryFlags (!s.on APM_CLKSTAT.XORDY)) e.code e.payload
  if e.type = 0x29 then
    (s.modLgr (fun l => { l with handover := some i })).finishAll 0x0A02 0 (beBytes 4 i)
  else s

/-- The next entry in order is written, HOUR before the events of its tick (R371). -/
def State.writeNext (s : State) : State :=
  match s.lgr.hourDue, s.lgr.queue with
  | some (t, incs), e :: q => if t ≤ e.tick then s.writeHour incs else s.writeEvent e q
  | some (_, incs), [] => s.writeHour incs
  | none, e :: q => s.writeEvent e q
  | none, [] => s

/-- The engine may write: it runs, the ledger is live and not full, and the final sequence has not begun. -/
def State.lgrRuns (s : State) : Bool :=
  s.aoOn && s.lgrTakes && s.lgr.recovered && !s.on HRV_STAT.SEALING

/-- `LEDGER_SLOT_WRITE` (R372). -/
def State.slotWrite (s : State) : State :=
  if s.lgrRuns && (s.lgr.hourDue.isSome || !s.lgr.queue.isEmpty) then
    let (ok, s) := s.lgrGrant Config.slotEnergy
    if ok then s.writeNext.checkFull.brcSettle else s
  else s

/-- Queued entries are written as long as `more` holds and grants are given, at most `n`. -/
def State.slotWrites (more : State → Bool) : Nat → State → State
  | 0, s => s
  | n + 1, s => if more s then State.slotWrites more n s.slotWrite else s

/-- `HOUR_ENTRY`: the HOUR entry that has fallen due is written, behind the entries of earlier ticks (R370,
R371). -/
def State.hourEntry (s : State) : State := State.slotWrites (fun x => x.lgr.hourDue.isSome) 18 s

/-! ### Seals (R374 to R376) -/

/-- The message that a seal signs (R375). -/
def sealMessage (i : Nat) (link : List Byte) : List Byte :=
  [0x54#8, 0x58#8, 0x4C#8, 0x53#8] ++ beBytes 4 i ++ link

/-- A seal record is written: SEAL, TOTALS0, TOTALS1 and the signature slot (R374, R375). -/
def State.writeSeal (s : State) (reason : Nat) : State :=
  let i := s.lgr.next
  let fl := s.entryFlags (!s.on APM_CLKSTAT.XORDY)
  let prev := s.lgr.prevSeal.getD 0xFFFFFFFF
  let totals (k : Nat) : List Byte :=
    ((List.range 4).map (fun j => leBytes 8 (s.meter[(Fin.ofNat 8 (k + j))]).total.toNat)).flatten
  let pay := leBytes 4 s.lgr.sealNum ++ leBytes 4 prev ++ leBytes 4 (sat32 s.lgr.lostSeal) ++
    [if s.on LGR_STAT.FIELDSEEN then 1#8 else 0#8]
  let s := s.putEntry (s.entryHead 0x50 fl reason pay)
  let s := s.putEntry (s.entryHead 0x51 fl 0 (totals 0))
  let s := s.putEntry (s.entryHead 0x52 fl 0 (totals 4))
  let sig := ecdsaSign Config.identityKey (sealMessage (i + 2) (beBytes 16 s.lgr.head.toNat))
  let s := s.putBytes (slotAddr (i + 3)) (beBytes 32 sig.1 ++ beBytes 32 sig.2)
  let s := (s.wr LGR_NEWEST.adr (BitVec.ofNat 32 (i + 3))).set LGR_STAT.SEALPEND 0
  s.modLgr (fun l => { l with
    next := i + 4, since := 0, sealNum := l.sealNum + 1, prevSeal := some i, lostSeal := 0,
    seals := l.seals.erase reason })

/-- `LEDGER_SEAL`: the entries that wait are written, then the seal of the first reason due, once a grant is
given (R371, R374, R376). -/
def State.ledgerSeal (s : State) : State :=
  if s.lgrRuns then
    match s.lgr.seals with
    | [] => s
    | r :: _ =>
      let s := State.slotWrites (fun x => x.lgr.hourDue.isSome || !x.lgr.queue.isEmpty) 17 s
      let (ok, s) := s.lgrGrant Config.sealEnergy
      if ok then (s.writeSeal r).checkFull.brcSettle else s.raise LGR_STAT.SEALPEND
  else s

/-- Entry into DEPLOYED: the region is erased and the first entries are written (R369, R396). -/
def State.ledgerDeploy (s : State) : State :=
  let s := s.clearMem ledgerBase (ledgerBase + 64 * ledgerSlots)
  let s := (((s.wr LGR_NEWEST.adr 0).wr LGR_OLDUNACK.adr 0).wr LGR_ACKED.adr 0).wr LGR_STAT.adr 0
  let s := { s with lgr := { LgrSt.reset with recovered := true, latches := s.lgr.latches, pmPins := s.lgr.pmPins } }
  let fl := s.entryFlags (!s.on APM_CLKSTAT.XORDY)
  let s := s.writeEntry 0x01 fl 0 (identityHash ++ leBytes 4 s.winRev.toNat ++ beBytes 6 s.mac.toNat)
  let s := s.writeEntry 0x02 fl 0 (beBytes 32 (identityPub.toNat / 2 ^ 256))
  let s := s.writeEntry 0x03 fl 0 (beBytes 32 (identityPub.toNat % 2 ^ 256))
  s.sealDue 1

/-- A write of `LGR_CTRL.NOTE` (R385). -/
def State.lgrNote (s : State) : State :=
  let pin := s.get LGR_CTRL.TYPE == 0x24
  if pin && !s.bit LGR_WATCH_CFG.EN 2 then s
  else s.ledgerEvent (if pin then 0x24 else 0x40) (s.get LGR_CTRL.CODE)
    (((List.range 8).map (fun k => leBytes 4 (s.rd (LGR_NOTE.adr k)).toNat)).flatten)

/-! ### Recovery (R377, R396) -/

/-- The indices of listed slots with a TYPE, newest first. -/
def State.slotsOf (s : State) (type : Nat) : List Nat :=
  sortBy (fun a b => decide (b < a)) (s.mem.filterMap (fun kv =>
    if ledgerBase ≤ kv.1 ∧ kv.1 < ledgerBase + 64 * ledgerSlots ∧ kv.1 % 64 = 4 ∧ kv.2.toNat = type then
      let i := s.le (kv.1 - 4) 4
      if slotAddr i = kv.1 - 4 then some i else none
    else none))

/-- The seal record at index `i` verifies (R375, R377); it does not where a slot of it cannot be read (R378). -/
def State.sealOk (s : State) (i : Nat) : Bool :=
  let a := s.slotBytes i
  let b := s.slotBytes (i + 1)
  let c := s.slotBytes (i + 2)
  let g := s.slotBytes (i + 3)
  !(slotRange i 4).any s.slotSpoilt && slotType a == 0x50 && slotType b == 0x51 && slotType c == 0x52 && slotIndex a == i &&
    slotIndex b == i + 1 && slotIndex c == i + 2 &&
    ecdsaVerify identityPub (sealMessage (i + 2) (slotLink c)) (ofBeBytes (g.take 32)) (ofBeBytes (g.drop 32))

/-- The entries from index `i` on whose links verify, oldest first; `n` bounds their number. Verification ends at a slot
that cannot be read (R378). -/
def State.verified (s : State) : Nat → Nat → BitVec 128 → List (List Byte)
  | 0, _, _ => []
  | n + 1, i, prev =>
    let b := s.slotBytes i
    let link := linkOf prev (b.take 48)
    if slotIndex b = i ∧ slotType b ≠ 0 ∧ slotLink b = link ∧ !s.slotSpoilt i then
      b :: s.verified n (i + 1) (BitVec.ofNat 128 (ofBeBytes link))
    else []

/-- Consecutive slots from index `i` on that carry their own index or cannot be read (DESIGN CHOICE: the slots that
recovery discards). -/
def State.discarded (s : State) : Nat → Nat → Nat
  | 0, _ => 0
  | n + 1, i =>
    if s.slotSpoilt i ∨ (slotIndex (s.slotBytes i) = i ∧ slotType (s.slotBytes i) ≠ 0) then 1 + s.discarded n (i + 1) else 0

/-- The seal records that recovery reads: from the newest down to the first that verifies, or all (R377). -/
def State.sealsRead (s : State) : List Nat → List Nat
  | [] => []
  | i :: l => slotRange i 4 ++ (if s.sealOk i then [] else s.sealsRead l)

/-- Meter k's number in the payload of a HOUR or TOTALS entry. -/
def payloadNum (size k : Nat) (b : List Byte) : Nat := ofLeBytes (((slotPayload b).drop (size * k)).take size)

/-- The spans that CONDENSE entries below index `n` name, newest first (R382). -/
def State.spans (s : State) (n : Nat) : List (Nat × Nat) :=
  ((s.slotsOf 0x30).filter (fun i => decide (i < n))).map (fun i =>
    let b := s.slotBytes i
    (payloadNum 4 0 b, payloadNum 4 1 b))

/-- `LEDGER_RECOVERY` (R377, R396). Acknowledgement and merged spans are rebuilt from the newest ACK and the
CONDENSE entries (DESIGN CHOICE). -/
def State.ledgerRecovery (s : State) : State :=
  if s.aoOn && !s.lgr.recovered then
    if s.lcs = .maker ∨ s.lcs = .provisioned then s.modLgr (fun l => { l with recovered := true })
    else
      let seal0 := (s.slotsOf 0x50).find? s.sealOk
      let first := match seal0 with
        | some i => i + 4
        | none => 0
      let prev : BitVec 128 := match seal0 with
        | some i => BitVec.ofNat 128 (ofBeBytes (slotLink (s.slotBytes (i + 2))))
        | none => 0
      let ents := s.verified ledgerSlots first prev
      let next := first + ents.length
      let gone := s.discarded ledgerSlots next
      let s := s.slotReads (s.sealsRead (s.slotsOf 0x50) ++ slotRange first (ents.length + gone))
      let base (k : Nat) : Nat := match seal0 with
        | some i => payloadNum 8 (k % 4) (s.slotBytes (i + 1 + k / 4))
        | none => 0
      let hours := ents.filter (fun b => slotType b == 0x10)
      let total (k : Fin 8) : BitVec 64 :=
        BitVec.ofNat 64 (min (2 ^ 64 - 1) (base k + (hours.map (payloadNum 4 k)).sum))
      let seen := (match seal0 with
        | some i => ((slotPayload (s.slotBytes i)).getD 12 0).getLsbD 0
        | none => false) ||
        ents.any (fun b => slotType b == 0x20 && slotCode b % 4 == mField)
      let acks := (s.slotsOf 0x27).filter (fun i => decide (i < next))
      let acked := match acks with
        | i :: _ => payloadNum 4 0 (s.slotBytes i)
        | [] => 0
      let spans := s.spans next
      let old := spans.foldl (fun m x => max m (x.2 + 1)) (if acks.isEmpty then 0 else acked + 1)
      let head : BitVec 128 := match ents.getLast? with
        | some b => BitVec.ofNat 128 (ofBeBytes (slotLink b))
        | none => prev
      let num := match seal0 with
        | some i => payloadNum 4 0 (s.slotBytes i) + 1
        | none => 0
      let condensed := match (s.slotsOf 0x30).find? (fun i => decide (i < next)) with
        | some i => decide ((acks.head?).getD 0 < i)
        | none => false
      let s : State := { s with meter := Vector.ofFn (fun (k : Fin 8) =>
        ({ total := total k, residue := 0, prev := none } : MeterSt)) }
      let s := s.modLgr (fun l => { l with
        head := head, next := next, hourBase := s.meter.map (·.total), sealNum := num, prevSeal := seal0,
        since := ents.length, merged := spans, recovered := true, condense := condensed,
        handover := ((s.slotsOf 0x29).filter (fun i => decide (i < next))).head? })
      let s := s.wr LGR_NEWEST.adr (BitVec.ofNat 32 (next - 1))
      let s := (s.wr LGR_ACKED.adr (BitVec.ofNat 32 acked)).wr LGR_OLDUNACK.adr (BitVec.ofNat 32 old)
      let s : State := s.set LGR_STAT.FIELDSEEN (if seen then 1 else 0)
      if s.lcs = .deployed then
        let s := s.writeEntry 0x25 (s.entryFlags (!s.on APM_CLKSTAT.XORDY)) 0 (leBytes 4 gone)
        if gone = 0 then s else s.raise LGR_STAT.TRUNC
      else s
  else s

/-! ### Condensing (R382) -/

/-- Types that count as events when they are merged. -/
def eventType (b : List Byte) : Bool :=
  decide (0x20 ≤ slotType b ∧ slotType b ≤ 0x29) || slotType b == 0x40

/-- A DAY entry of the HOUR entries of one day (R366). -/
def State.writeDay (s : State) (hs : List (List Byte)) : State :=
  let sums := (List.range 8).map (fun k => (hs.map (payloadNum 4 k)).sum)
  let sat : Bool := sums.any (fun n => decide (2 ^ 32 ≤ n)) || hs.any (fun b => (slotFlags b).testBit 3)
  let lrc := hs.any (fun b => (slotFlags b).testBit 0)
  s.putEntry (s.entryHead 0x11 (s.entryFlags lrc + (if sat then 8 else 0)) hs.length
    ((sums.map (fun n => leBytes 4 (sat32 n))).flatten))

/-- A copy of an entry, flagged as copied. -/
def State.writeCopy (s : State) (b : List Byte) : State :=
  let fl := slotFlags b
  s.putEntry (leBytes 4 s.lgr.next ++ [b.getD 4 0, BitVec.ofNat 8 (if fl.testBit 2 then fl else fl + 4)] ++
    (b.drop 6).take 42)

/-- `LEDGER_CONDENSE` (R382). -/
def State.ledgerCondense (s : State) : State :=
  if s.lgrRuns then
    match s.condenseSpan with
    | none => s
    | some (a, e, ents) =>
      let (ok, s) := s.lgrGrant (Config.slotEnergy + Config.sealEnergy)
      if ok then
        let hours := ents.filter (fun b => slotType b == 0x10)
        let days := (hours.map slotDay).eraseDups
        let cps := (ents.filter copied).take 1700
        let last := match (ents.filter (fun b => slotType b == 0x52)).getLast? with
          | some b => slotLink b
          | none => List.replicate 16 0#8
        let pay := leBytes 4 a ++ leBytes 4 e ++ last ++ leBytes 4 hours.length ++
          leBytes 4 ((ents.filter eventType).length - cps.length)
        let s := s.slotReads (slotRange a (e + 1 - a))
        let s := s.putEntry (s.entryHead 0x30 (s.entryFlags (!s.on APM_CLKSTAT.XORDY)) 0 pay)
        let s := days.foldl (fun (s : State) (d : Nat) => s.writeDay (hours.filter (fun b => slotDay b == d))) s
        let s := cps.foldl (fun (s : State) (b : List Byte) => s.writeCopy b) s
        let s := s.writeSeal 4
        ((s.wr LGR_OLDUNACK.adr (BitVec.ofNat 32 (e + 1))).modLgr (fun l => { l with
          merged := (a, e) :: l.merged, condense := true })).checkFull
      else s
  else s

/-! ### Watch sources (R384 to R386) -/

/-- Meters of source `src` count `n`. -/
def State.metersCount (s : State) (src n : Nat) : State :=
  (List.finRange 8).foldl (fun (s : State) (k : Fin 8) => if s.meterSrc k = src then s.meterAdd k n else s) s

/-- `TAMPER_ASSERT` (R384). -/
def State.tamperAssert (s : State) (j : Fin 4) : State :=
  if s.aoOn ∧ s.mode ≠ mCellar ∧ s.on (LGR_TAMP_CFG.EN j) then
    let s := ((s.raiseBit LGR_TAMP_STAT.SEEN j).setBitOf LGR_TAMP_STAT.LVL j true).metersCount 6 1
    let s := s.wakeFire 7
    let n := s.lgr.tampCnt[j] + 1
    let early : Bool := match s.lgr.tampTick[j] with
      | some t => decide (s.cal.ticks < t + 1024)
      | none => false
    if early || !s.lgrTakes then s.modLgr (fun l => { l with tampCnt := l.tampCnt.set j n })
    else
      let s := s.modLgr (fun l => { l with
        tampCnt := l.tampCnt.set j 0, tampTick := l.tampTick.set j (some s.cal.ticks) })
      (s.ledgerEvent 0x22 j (leBytes 4 (sat32 n) ++ List.replicate 28 0#8)).watchReport (s.on (LGR_TAMP_CFG.WAKE j))
  else s

/-- A PMOTION entry falls due (R385, R386). -/
def State.pmotion (s : State) : State :=
  let s := s.wakeFire 8
  if s.bit LGR_WATCH_CFG.EN 1 then
    (s.ledgerEvent 0x23 0 (leBytes 8 (s.rd LGR_PM_CNT.adr).toNat ++ List.replicate 24 0#8)).watchReport
      (s.bit LGR_WATCH_CFG.WAKE 1)
  else s

/-- `PARKED_MOTION_SAMPLE` (R386). -/
def State.parkedMotion (s : State) (a b : Bool) : State :=
  if s.aoOn ∧ s.mode = mBarn ∧ s.on LGR_PM_CFG.EN then
    let n := (if a = s.lgr.pmPins.1 then 0 else 1) + (if b = s.lgr.pmPins.2 then 0 else 1)
    let s := (s.wr LGR_PM_CNT.adr (s.rd LGR_PM_CNT.adr + BitVec.ofNat 32 n)).metersCount 5 n
    let thr := s.get LGR_PM_CFG.THR
    let acc := s.lgr.pmAcc + n
    let k := if thr = 0 then 0 else acc / thr
    let s := s.modLgr (fun l => { l with pmPins := (a, b), pmAcc := if thr = 0 then 0 else acc % thr })
    forNat (fun _ s => s.pmotion) k s
  else s

/-! ### Acknowledgement (R380) -/

/-- The chain head after index `i`: for a signature slot the link of the TOTALS1 before it (R380). -/
def State.linkAt (s : State) (i : Nat) : List Byte :=
  if 0 < i ∧ slotType (s.slotBytes (i - 1)) = 0x52 ∧ slotIndex (s.slotBytes (i - 1)) = i - 1 then
    slotLink (s.slotBytes (i - 1))
  else slotLink (s.slotBytes i)

/-- An accepted acknowledgement of index `i` (R380). -/
def State.ledgerAck (s : State) (i : Nat) : State :=
  let s := (s.wr LGR_ACKED.adr (BitVec.ofNat 32 i)).wr LGR_OLDUNACK.adr
    (BitVec.ofNat 32 (max (s.get LGR_OLDUNACK.INDEX) (i + 1)))
  (s.modLgr (fun l => { l with condense := false })).checkFull.ledgerEvent 0x27 0
    (leBytes 4 i ++ List.replicate 28 0#8)

/-! ### The final sequence (R545 to R548) -/

/-- `FINAL_SEQUENCE_COMPLETE` (R545, R547, R548, R614). -/
def State.finalDone (s : State) : State :=
  if s.on HRV_STAT.SEALING then
    let lost := s.lgr.queue.length + (if s.lgr.hourDue.isSome then 1 else 0)
    let s := s.modLgr (fun l => { l with queue := [], hourDue := none, seals := [], lostSeal := l.lostSeal + lost })
    let s := if s.lcs = .deployed ∧ s.lgr.recovered then
        let s := s.putEntry (s.entryHead 0x20 (s.entryFlags (!s.on APM_CLKSTAT.XORDY)) (mCellar + 256 * s.mode) [])
        s.writeSeal 3
      else s
    let s := (s.grantReturn 0).set HRV_STAT.SEALING 0
    let s := (s.modeTo mCellar).set APM_CLKSTAT.BRCRUN 0
    let wait := s.ao.restart
    let s : State := { s with ao := { s.ao with restart := false } }
    if s.ao.vsys then (s.reach (s.now + 1)).leaveCellar
    else if wait then s.aoStart false
    else s
  else s

end Sys2Proof.Machine
end

