-- ==== Sys2Proof/Machine/Sources.lean ====
section
/-!
DEFINITION. Machine/Sources.lean: the events of a track's source that bring the block to the cycle in which they come
(03).
-/
namespace Sys2Proof.Machine

/-- `TRK_MEASUREMENT`: time runs to the cycle of the next measurement that waits, which is applied in it (R101,
R128). -/
def State.measurement (s : State) (n : Fin 16) : State :=
  match s.nextDue n with
  | none => s
  | some d => (s.reach d).trkDue n

/-- A line of an interface is seen at a new level in cycle `ts`: a change that track `n` still filters is rejected,
else the change begins to be filtered (R112, R114). -/
def State.seeLine (s : State) (n : Fin 16) (lineB level : Bool) (ts : Nat) : State :=
  let g := s.get (TRK_SRCB.GLITCH n)
  match (s.trk[n]).edges.find? (fun e => e.lineB == lineB && decide (ts < e.ts + g)) with
  | some e => s.modTrk n (fun t => { t with edges := t.edges.erase e, gate := some ts })
  | none => s.modTrk n (fun t => { t with edges := t.edges ++ [{ lineB := lineB, level := level, ts := ts }] })

/-- `ENCODER_EDGE`: the synchroniser of the interface of track `n` sees its lines at the levels (`a`, `b`) first in
cycle `ts`; every incremental track on the interface filters and counts it for itself (R111 to R113, R117). -/
def State.encoderEdge (s : State) (n : Fin 16) (a b : Bool) (ts : Nat) : State :=
  let i := s.get (TRK_CTRL.IFACE n)
  let s := s.reach ts
  let old := s.enc[Fin.ofNat 8 i]
  let s := { s with enc := s.enc.set (Fin.ofNat 8 i) ⟨a, b⟩ }
  (List.finRange 16).foldl (fun (s : State) (k : Fin 16) =>
    if s.trkEn k && s.trkType k == 2 && s.get (TRK_CTRL.IFACE k) == i then
      let s := if a = old.a then s else s.seeLine k false a ts
      let s := if b = old.b then s else s.seeLine k true b ts
      s.edgesDue k
    else s) s

/-- `ENCODER_INDEX`: a filtered rising edge of ENCiZ, first seen in cycle `ts`, in the cycle in which it is applied
(R115, R116). A first index on a lost track homes the count but leaves the track lost (DESIGN CHOICE: R116 does not say;
R135 names the only end of the lost state). -/
def State.encoderIndex (s : State) (n : Fin 16) (ts : Nat) : State :=
  if !s.trkEn n || s.trkType n != 2 then s
  else
    let s := s.reach (s.edgeDue n ts)
    let s := if s.on (TRK_SRCA.ZEN n) then
        ((s.wr (TRK_IDXCAP.adr n) (s.trk[n]).oang).raise (TRK_FLAGS.IDX n)).signal (4 * n + 2)
      else s
    if s.on (TRK_SRCA.ZHOME n) then
      let t := s.trk[n]
      if !t.homed then
        let s := s.modTrk n (fun t => { t with cnt := 0, homed := true })
        if t.lost then s else (s.modTrk n (fun t => { t with loss := false })).seed n 0 (16 * ts)
      else
        let c : Int := s.cpt n
        let r := t.cnt % c
        let tol := s.get (TRK_SRCB.IDXTOL n)
        if tol ≠ 0 ∧ (tol : Int) < min r (c - r) then
          (s.raise (TRK_FLAGS.IDXERR n)).lossCondition n
        else s
    else s

/-- `SSI_START`: on the track's task, or else on its poll period, to whose end time runs (R119, R121, R281). -/
def State.ssiStart (s : State) (n : Fin 16) : State :=
  if (s.nextArrival (· == 0x88 + n)).isSome then s.awaitTask (· == 0x88 + n)
  else if s.ssiDrives n && s.on (TRK_SRCB.POLL n) then (s.reach (s.pollAt n)).pollDue n
  else s

/-- Gray decoding of `b` bits (R118). -/
def grayDecode (b x : Nat) : Nat := (List.range b).foldl (fun a i => a ^^^ (x / 2 ^ i)) 0 % 2 ^ b

/-- `SSI_FRAME_COMPLETE`: position bits as received, and whether ENCiB was low in the cycle before the first falling edge
(R118, R120, R121). -/
def State.ssiFrame (s : State) (n : Fin 16) (bits : Word) (low : Bool) : State :=
  match (s.trk[n]).ssi with
  | none => s
  | some f =>
    let due := f.start + f.bits * f.per + 2
    let s := s.modTrk n (fun t => { t with ssi := some { f with live := false } })
    if f.live then
      let raw := bits.toNat % 2 ^ f.bits
      let m := (if s.on (TRK_SRCA.GRAY n) then grayDecode f.bits raw else raw) * 2 ^ (32 - f.bits) % 2 ^ 32
      let ts : Int := 16 * f.start
      (s.ssiPeers n).foldl (fun s (k : Fin 16) =>
        let j := s.get (TRK_SRCB.JUMP k)
        let jump := j ≠ 0 && (s.trk[k]).seeded &&
          decide (2 ^ (j + 20) < (s.innovation k m ts).natAbs)
        if low || jump then s.lossCondition k else (s.arrive k m ts due false).measDue k) (s.reach due)
    else s

/-- A valid share for track `n` has come in: angle and velocity at PTP time `time`; it is applied 3 cycles after the end
of its frame (R126 to R128). -/
def State.shareApply (s : State) (n : Fin 16) (ang : Word) (vel : BitVec 48) (time : Nat) : State :=
  let h : Share := { ang := ang, vel := vel, time := time, due := s.now + 3 }
  s.modTrk n (fun t => { t with loss := false, shareAt := s.now, shareTime := time, shares := t.shares ++ [h] })

/-- The type whose loss condition `c` is (R104). -/
def lossType : LossCond → Nat
  | .amplitude => 1
  | .encoderFault => 2
  | .ssiFault => 3
  | .pllUnlock => 4
  | .staleShare => 6

/-- `TRK_LOSS_CONDITION` (R104, R123, R127, R131): unlock only of a locked PLL; a share becomes stale 2.5 µs after the
last valid one, to which time runs. -/
def State.lossEvent (s : State) (n : Fin 16) (c : LossCond) : State :=
  if s.trkEn n && s.trkType n == lossType c then
    match c with
    | .pllUnlock =>
      if (s.trk[n]).lock then
        (s.modTrk n (fun t => { t with lock := false, lockRun := 0, unlockRun := 0 })).lossCondition n
      else s
    | .staleShare => (s.reach (s.trk[n]).staleAt).staleDue n
    | _ => s.lossCondition n
  else s

/-- `TRK_COAST_EXPIRY`: time runs to the limit of the coast, at which a track that still coasts goes lost (R133). -/
def State.coastExpiry (s : State) (n : Fin 16) : State :=
  let t := s.trk[n]
  if t.coast then
    (s.reach (t.coastAt + usLc (min 1000 (s.get (TRK_FILT.COAST n))))).coastDue n
  else s

end Sys2Proof.Machine
end

