-- ==== Sys2Proof/Machine/Bus.lean ====
section
/-!
DEFINITION. Machine/Bus.lean: register accesses of the agents (R13, R25 to R32): what a read of each
register returns and does, and what a write does.
-/
namespace Sys2Proof.Machine

/-! ### Reads -/

/-- A one-bit field's value of a Bool. -/
def b2n (b : Bool) : Nat := if b then 1 else 0

/-- Put a field's derived value into a word. -/
def putFld (w : Word) (f : Fld) (v : Nat) : Word := withField w f.msb f.lsb v

/-- The latch set of R136 that an agent reads. -/
def latchIx (ag : Agent) : Fin 4 :=
  match partyOf ag with
  | .ctl n => if n = 0 then 0 else 1
  | .mgt n => if n = 0 then 2 else 3
  | _ => 2

/-- Reads of the TRK region (03). -/
def State.readTrk (s : State) (ag : Agent) (a : Nat) : Word × State :=
  let o := a - 0x30000000
  if o < 0x1000 then
    let n : Fin 16 := Fin.ofNat 16 (o / 0x100)
    let l := (s.trk[n]).latches[latchIx ag]
    if o % 0x100 = 0 then s.angRead n (latchIx ag)
    else if o % 0x100 = 4 then (l.turn.setWidth 32, s)
    else if o % 0x100 = 8 then (l.vel.setWidth 32, s)
    else if o % 0x100 = 0xC then ((l.vel.extractLsb' 32 16).signExtend 32, s)
    else if o % 0x100 = 0x10 then (l.acc, s)
    else if o % 0x100 = 0x14 then (BitVec.ofNat 32 l.stat, s)
    else (s.activeWord a, s)
  else (s.activeWord a, s)

/-- After an access to `ALM_W3` with AUTO the index moves on (04). -/
def State.almAuto (s : State) (a : Nat) : State :=
  if a = ALM_W.adr 3 ∧ s.on ALM_IDX.AUTO then s.set ALM_IDX.IDX ((s.get ALM_IDX.IDX + 1) % 1024) else s

/-- Reads of the ALM region (04). -/
def State.readAlm (s : State) (a : Nat) : Word × State :=
  if 0x30100004 ≤ a ∧ a < 0x30100014 then (s.almRead (almAddr (s.get ALM_IDX.IDX) ((a - 0x30100004) / 4)), s.almAuto a)
  else if 0x30100200 ≤ a ∧ a < 0x30100240 then
    (BitVec.ofNat 32 (s.almNextWord (Fin.ofNat 16 ((a - 0x30100200) / 4))), s)
  else (s.activeWord a, s)

/-- Reads of the CNV region (05). -/
def State.readCnv (s : State) (a : Nat) : Word × State :=
  let o := a - 0x30200000
  if o < 0x2000 then
    let n : Fin 24 := Fin.ofNat 24 (o / 0x100)
    if o % 0x100 = 0 then s.dataRead n
    else if o % 0x100 = 0x18 then (putFld (s.rd a) (CV_STAT.RUN n) (b2n (s.cvRun n)), s)
    else (s.rd a, s)
  else if o < 0x3000 ∧ o % 0x10 = 8 then
    let k := (o - 0x2000) / 0x10
    (putFld (s.rd a) (CVPAIR_STAT.GAINMM k) (b2n (s.gainMm k)), s)
  else (s.rd a, s)

/-- Reads of the SLC region (06). -/
def State.readSlc (s : State) (ag : Agent) (a : Nat) : Word × State :=
  let o := a - 0x30300000
  if o < 0x4000 then
    let n : Fin 16 := Fin.ofNat 16 (o / 0x400)
    if o % 0x400 = 4 then (putFld (s.rd a) (SLC_STAT.RUN n) (b2n (s.slcRun n)), s)
    else if o % 0x400 = 0x230 then s.energyRead n (partyOf ag).core
    else if o % 0x400 = 0x234 then ((s.slc[n]).eLatch[(partyOf ag).core], s)
    else (s.rd a, s)
  else (s.rd a, s)

/-- Reads of the GOU region (07). -/
def State.readGou (s : State) (a : Nat) : Word × State :=
  if a = GOU_ARMED.adr then (BitVec.ofNat 32 s.armedMask, s)
  else if a = GOU_TRIPPED.adr then (BitVec.ofNat 32 s.trippedMask, s)
  else if a = GOU_GEN.adr then (putFld (s.rd a) GOU_GEN.GEN (b2n s.genLow), s)
  else if 0x30401090 ≤ a ∧ a < 0x3040109C then (BitVec.ofNat 32 (s.inputWord ((a - 0x30401090) / 4)), s)
  else (s.rd a, s)

/-- Reads of the MBX region (08). -/
def State.readMbx (s : State) (a : Nat) : Word × State :=
  let o := a - 0x30600000
  if o < 0x200 then
    let c : Fin 16 := Fin.ofNat 16 (o / 0x20)
    if o % 0x20 = 4 then s.mbxPop c false
    else if o % 0x20 = 0xC then s.mbxPop c true
    else if o % 0x20 = 0x10 then
      (putFld (putFld (s.rd a) (MBX_STAT.HCNT c) (s.chan[c]).host.length) (MBX_STAT.DCNT c)
        (s.chan[c]).dev.length, s)
    else (s.rd a, s)
  else if a = MBX_BELL_SET.adr then (s.rd MBX_BELL.adr, s)
  else (s.rd a, s)

/-- The heartbeat map: devices heard within 300 µs, and the device itself (R310). -/
def State.hbMap (s : State) : Nat :=
  (List.range 64).foldl (fun m n =>
    if s.addr = some n ∨ s.hbs.any (fun h => h.sender == n && decide (s.now < h.cycle + usLc 300)) then m + 2 ^ n
    else m) 0

/-- Both ports hear the same grandmaster (R307, `RING_STAT.CLOSED`). -/
def State.ringClosed (s : State) : Bool :=
  (s.port[0]).hears && (s.port[1]).hears && (s.port[0]).gm == (s.port[1]).gm

/-- A ring-shared track is stale: no valid share for 2.5 µs, or its shares are marked stale (R127, R313). -/
def State.shareStale (s : State) : Bool :=
  (List.finRange 16).any (fun n => s.trkEn n && s.trkType n == 6 &&
    ((s.trk[n]).loss || decide ((s.trk[n]).staleAt ≤ s.now)))

/-- Reads of the ETH region (02, 09). -/
def State.readEth (s : State) (a : Nat) : Word × State :=
  if a = RING_STAT.adr then
    (putFld (putFld (s.rd a) RING_STAT.STALE (b2n s.shareStale)) RING_STAT.CLOSED (b2n s.ringClosed), s)
  else if a = RING_HBMAP_LO.adr then (BitVec.ofNat 32 s.hbMap, s)
  else if a = RING_HBMAP_HI.adr then (BitVec.ofNat 32 (s.hbMap / 2 ^ 32), s)
  else (s.rd a, s)

/-- `SEC_DBG.OPEN` as it reads: 1 in MAKER (11). -/
def State.dbgOpen (s : State) : Bool := decide (s.lcs = .maker) || s.openBy.isSome

/-- The debug channel on MBX13 is open (R390). -/
def State.dbgChan (s : State) : Bool := decide (s.lcs ≠ .deployed) && s.dbgOpen

/-- `WIN_MODE.FWST` beside the fast domain's level: `CPM_BOOT.FWST`, 4 after the watchdog's expiry (R616,
R622). -/
def State.fwst (s : State) : Nat :=
  if s.wdog.expired.isSome then 4 else fieldOf s.bootWord 11 8

/-- Reads of the CPM and SEC regions (15, 19, 11). -/
def State.readCpm (s : State) (a : Nat) : Word × State :=
  if a = CPM_BOOT.adr then (putFld (s.rd a) CPM_BOOT.FWST s.fwst, s)
  else if a = CPM_AVS.adr then
    (BitVec.ofNat 32 (Config.avsMv.toNat + 65536 * b2n Config.avsValid), s)
  else if a = CPM_PAIR_RST.adr 0 then (putFld (s.rd a) (CPM_PAIR_RST.LOCKED 0) (b2n s.locked[0]), s)
  else if a = CPM_PAIR_RST.adr 1 then (putFld (s.rd a) (CPM_PAIR_RST.LOCKED 1) (b2n s.locked[1]), s)
  else if a = SEC_DBG.adr then
    (putFld (putFld (s.rd a) SEC_DBG.OPEN (b2n s.dbgOpen)) SEC_DBG.CHAN (b2n s.dbgChan), s)
  else (s.rd a, s)

/-- Reads of a serial port's set (17). -/
def State.readUart (s : State) (a : Nat) : Word × State :=
  let n : Fin 4 := Fin.ofNat 4 ((a - 0x40010000) / 0x100)
  if a % 0x100 = 0 then s.rxPop n
  else if a % 0x100 = 0x14 then
    (putFld (putFld (s.rd a) (U_STAT.TXCNT n) (min 255 (s.uart[n]).tx.length)) (U_STAT.RXCNT n)
      (min 255 (s.uart[n]).rx.length), s)
  else (s.rd a, s)

/-- The ledger is live: DEPLOYED, and recovery complete (11). -/
def State.ledgerLive (s : State) : Bool := decide (s.lcs = .deployed) && s.lgr.recovered

/-- Reads of the LGR region (11): a read of a meter's lower word latches its upper word for the reader. -/
def State.readLgr (s : State) (ag : Agent) (a : Nat) : Word × State :=
  if 0x40050080 ≤ a ∧ a < 0x400500C0 then
    let k : Fin 8 := Fin.ofNat 8 ((a - 0x40050080) / 8)
    let c := (partyOf ag).core
    if a % 8 = 0 then
      ((s.meter[k]).total.setWidth 32, s.modLgr (fun l => { l with
        latches := l.latches.set c ((l.latches[c]).set k (((s.meter[k]).total >>> 32).setWidth 32)) }))
    else ((s.lgr.latches[c])[k], s)
  else if a = LGR_STAT.adr then (putFld (s.rd a) LGR_STAT.LIVE (b2n s.ledgerLive), s)
  else (s.rd a, s)

/-- `APM_DSTAT`: the levels reached, and whether a domain is on its way (15). -/
def State.dstat (s : State) : Word :=
  let lvl (d : Fin 3) : Nat := (s.dom[d]).level
  let busy := s.dom.toList.any (fun x => decide (x.phase = .descending ∨ x.phase = .returning))
  BitVec.ofNat 32 (lvl 0 + 16 * lvl 1 + 256 * lvl 2 + 32768 * b2n busy)

/-- Reads of the remaining always-on regions. -/
def State.readAo (s : State) (a : Nat) : Word × State :=
  if a < 0x40000010 then s.rtcRead (Fin.ofNat 4 ((a - 0x40000000) / 4))
  else if a = RTC_STAT.adr then (putFld (s.rd a) RTC_STAT.FROZEN (b2n s.cal.shadow.isSome), s)
  else if a = TCH_STAT.adr then (putFld (s.rd a) TCH_STAT.CN (b2n s.tchNoise), s)
  else if a = TCH_REPORT.adr then s.tchPop
  else if a = HRV_AVAIL.adr then (BitVec.ofNat 32 s.avail, s)
  else if a = APM_DSTAT.adr then (s.dstat, s)
  else (s.rd a, s)

/-- The bits of a word that read as zero: write-only fields (R13). -/
def readMask (a : Nat) : Word :=
  match fieldsAt a with
  | some l => ~~~accMask l .wo
  | none => 0

/-- A read of the register word at `a` by `ag`, which may make it: the word, and the state after it. -/
def State.regRead (s : State) (ag : Agent) (a : Nat) : Word × State :=
  let r :=
    if a < 0x30100000 then s.readTrk ag a
    else if a < 0x30200000 then s.readAlm a
    else if a < 0x30300000 then s.readCnv a
    else if a < 0x30400000 then s.readSlc ag a
    else if a < 0x30500000 then s.readGou a
    else if a < 0x30600000 then (s.rd a, s)
    else if a < 0x30700000 then s.readMbx a
    else if a < 0x30900000 then (s.rd a, s)
    else if a < 0x30A00000 then s.readEth a
    else if a < 0x40000000 then s.readCpm a
    else if 0x40010000 ≤ a ∧ a < 0x40020000 then s.readUart a
    else if 0x40050000 ≤ a ∧ a < 0x40060000 then s.readLgr ag a
    else s.readAo a
  (r.1 &&& readMask a, r.2)

/-! ### Writes by access code (R13, R16, R17) -/

/-- The life-cycle states in which LK fields accept writes (R363 and the LK notes of 02, 11, 16). -/
def State.lkOpen (s : State) : Bool := decide (s.lcs = .maker) || decide (s.lcs = .provisioned)

/-- The next word of a register after a write of `w`, as its access codes state; `cold` says whether cold
fields accept it, and `hw` are the bits that hardware has set in this cycle, which stay set (R14). -/
def nextWord (l : List FieldSpec) (lk cold : Bool) (hw old w : Word) : Word :=
  let n := blend (accMask l .rw) old w
  let n := if lk then blend (accMask l .lk) n w else n
  let n := if cold then blend (accMask l .cd) n w else n
  (n &&& ~~~(w &&& accMask l .w1c &&& ~~~hw)) ||| (w &&& accMask l .w1s)

/-- A write that acts as the access codes of the register's fields state (R13): RW, W1C, W1S, LK and CD
fields change, ST fields go to the pending bank. A refused cold change of a slice sets CDREF (R226). -/
def State.fieldWrite (s : State) (a : Nat) (w : Word) : State :=
  match fieldsAt a with
  | none => s
  | some l =>
    let old := s.rd a
    let w := s.settle a w
    let cd := accMask l .cd
    let change := decide ((old ^^^ w) &&& cd ≠ 0)
    let refused := change && s.coldHit a (blend cd old w)
    let s := if accMask l .st = 0 then s else s.stage a (accMask l .st) w
    let s := (s.wr a (nextWord l s.lkOpen (!refused) (s.setNow a) old w)).regHook a old false
    if refused ∧ 0x30300000 ≤ a ∧ a < 0x30400000 then
      s.raise (SLC_STAT.CDREF (if a < 0x30308000 then (a - 0x30300000) / 0x400 else (a - 0x30308000) / 0x800))
    else s

/-! ### Writes block by block -/

/-- Writes of the TRK region (03). -/
def State.writeTrk (s : State) (a : Nat) (w : Word) : State :=
  let o := a - 0x30000000
  let n : Fin 16 := Fin.ofNat 16 (o / 0x100)
  if 0x1000 ≤ o then s.fieldWrite a w
  else if o % 0x100 = 0x18 then
    let s := s.fieldWrite a (w &&& ~~~(4#32))
    if w.getLsbD 2 then s.trkLostClear n else s
  else if o % 0x100 = 0x4C then (s.fieldWrite a w).obsAngWritten n
  else s.fieldWrite a w

/-- Writes of the ALM region (04). -/
def State.writeAlm (s : State) (a : Nat) (w : Word) : State :=
  if 0x30100004 ≤ a ∧ a < 0x30100014 then
    let x := almAddr (s.get ALM_IDX.IDX) ((a - 0x30100004) / 4)
    (s.stage x ((itemAt x).getD 0) w).almAuto a
  else if a = ALM_ARM.adr then s.almSetEn (fieldOf w 9 0) (w.getLsbD 31)
  else s.fieldWrite a w

/-- Writes of the CNV region (05). -/
def State.writeCnv (s : State) (a : Nat) (w : Word) : State :=
  let o := a - 0x30200000
  if o < 0x2000 ∧ o % 0x100 = 4 then s.cvSelect (Fin.ofNat 24 (o / 0x100)) (fieldOf w 2 0)
  else s.fieldWrite a w

/-- Writes of the SLC region (06). -/
def State.writeSlc (s : State) (ag : Agent) (a : Nat) (w : Word) : State :=
  let o := a - 0x30300000
  if 0x8000 ≤ o then
    let n := (o - 0x8000) / 0x800
    if s.on (SLC_CTRL.EN n) then s.raise (SLC_STAT.CDREF n) else s.fieldWrite a w
  else
    let n : Fin 16 := Fin.ofNat 16 (o / 0x400)
    let r := o % 0x400
    if r = 0 then
      let s := s.stage a 0x70000 w
      if w.getLsbD 0 then s.slcEnable n else s.slcDisable n
    else if r = 4 then
      let s := s.fieldWrite a (w &&& ~~~(0x8000#32))
      if w.getLsbD 15 then s.twinClr n else s
    else if r = 0x28 then
      let s := s.izero n (fieldOf w 7 0)
      if w.getLsbD 8 then s.slcInject n else s
    else if 0x180 ≤ r ∧ r < 0x200 then s.refWrite n ((r - 0x180) / 4) w (refRank ag)
    else s.fieldWrite a w

/-- Writes of the GOU region (07). -/
def State.writeGou (s : State) (a : Nat) (w : Word) : State :=
  if a = GOU_ARMREQ.adr then s.armReq w.toNat
  else if a = GOU_DISARM.adr then s.disarmReq w.toNat
  else if a = GOU_TRIPCLR.adr then s.tripClear w.toNat
  else s.fieldWrite a w

/-- Raise the software event signals of a mask: those of the fast side in the next cycle (R274, `EVF_SWEV`), those of the
always-on domain as R279 states. -/
def State.swEvents (s : State) (w : Word) : State :=
  forNat (fun n s => if w.getLsbD n then s.signalAt (0x1D0 + n) (s.now + 1) else s) 16 s
def State.aoSwEvents (s : State) (w : Word) : State :=
  forNat (fun n s => if w.getLsbD n then s.aoSignal (0x1C0 + n) else s) 8 s

/-- Writes of the EVF region (08). -/
def State.writeEvf (s : State) (a : Nat) (w : Word) : State :=
  if a = EVF_SWEV.adr then s.swEvents w else s.fieldWrite a w

/-- Writes of the MBX region (08). -/
def State.writeMbx (s : State) (a : Nat) (w : Word) : State :=
  let o := a - 0x30600000
  let c : Fin 16 := Fin.ofNat 16 (o / 0x20)
  if o < 0x200 ∧ o % 0x20 = 0 then (s.mbxPush c false w).2
  else if o < 0x200 ∧ o % 0x20 = 8 then (s.mbxPush c true w).2
  else if a = MBX_BELL_SET.adr then s.ringBells w
  else if a = MBX_BELL.adr then (s.fieldWrite a w).bellRung w
  else s.fieldWrite a w

/-- A start by `GRN_CMD.START`: every configured stream; a refusal sets STARTREF (R351). -/
def State.grnCmdStart (s : State) : State :=
  let mask := (List.range 32).foldl (fun m n => if fieldOf (s.rd (GRN_STR_CFG.adr n)) 26 24 = 0 then m else m + 2 ^ n) 0
  let r := s.grnStart mask (s.rd GRN_POST.adr).toNat
  if r.1 = .ok then r.2 else r.2.raise GRN_STAT.STARTREF

/-- Writes of the GRN region (10); the bits of one write of `GRN_CMD` act in rising order. -/
def State.writeGrn (s : State) (a : Nat) (w : Word) : State :=
  if a = GRN_CMD.adr then
    let s := if w.getLsbD 0 then s.grnCmdStart else s
    let s := if w.getLsbD 1 && w.getLsbD 2 then s.grnTrigFreeze
      else if w.getLsbD 1 then s.grnTrigger
      else if w.getLsbD 2 then s.grnFreeze 2 else s
    if w.getLsbD 3 then s.grnArm else s
  else if a = GRN_POST.adr ∧ s.grnOpen then s
  else s.fieldWrite a w

/-- The agent runs an instruction fetched from the boot ROM (R622). -/
def State.inBootRom (s : State) (ag : Agent) : Bool :=
  match ag with
  | .core c =>
    let k := s.core[(partyOf (.core c)).core]
    decide (((k.caps[0]).bits.toNat + k.pc.toNat) % 2 ^ 40 < 0x20000)
  | _ => false

/-- A write of `CPM_WDOG` (R616). -/
def State.wdogWrite (s : State) (w : Word) : State :=
  let was := s.on CPM_WDOG.EN
  let s := s.wr CPM_WDOG.adr (w &&& 0xC000FFFF#32)
  if s.on CPM_WDOG.EN && (!was || w.getLsbD 29) then { s with wdog := { s.wdog with since := s.now } } else s

/-- A write of `CPM_PAIRn_RST` (R469, R494, R496). -/
def State.pairRstWrite (s : State) (n : Fin 2) (w : Word) : State :=
  let c : Fin 5 := if n = 0 then 0 else 1
  let s := if w.getLsbD 4 && s.clearable (CPM_PAIR_RST.INJREF n) then s.set (CPM_PAIR_RST.INJREF n) 0 else s
  let s := if w.getLsbD 3 then
      (if s.anyArmed then s.raise (CPM_PAIR_RST.INJREF n)
       else { s with core := s.core.set c { s.core[c] with flip := true } })
    else s
  if w.getLsbD 0 then
    { (s.set (CPM_PAIR_RST.HOLD n) 1).set (CPM_PAIR_RST.WHY n) 0 with
      locked := s.locked.set n false, core := s.core.set c (CoreSt.reset false) }
  else s.set (CPM_PAIR_RST.HOLD n) 0

/-- Writes of the CPM and SEC regions (15, 19). -/
def State.writeCpm (s : State) (ag : Agent) (a : Nat) (w : Word) : State :=
  if a = CPM_CLK_CTRL.adr then (s.switchReq (fieldOf w 1 0)).hrcEnable (w.getLsbD 8)
  else if a = CPM_CLKEN.adr then s.clkenWrite (fieldOf w 9 0)
  else if a = CPM_WDOG.adr then s.wdogWrite w
  else if a = CPM_BOOT.adr then (if s.inBootRom ag then s.fieldWrite a w else s)
  else if a = CPM_PAIR_RST.adr 0 then s.pairRstWrite 0 w
  else if a = CPM_PAIR_RST.adr 1 then s.pairRstWrite 1 w
  else s.fieldWrite a w

/-- Writes of the RTC region (17). -/
def State.writeRtc (s : State) (a : Nat) (w : Word) : State :=
  if a = RTC_RELEASE.adr then (if w.getLsbD 0 then s.rtcRelease else s)
  else if a = RTC_APPLY.adr then s.rtcApplyWrite w
  else if a = RTC_PWAKE.adr then (s.fieldWrite a w).modCal (fun c => { c with units := 0, part := 0 })
  else s.fieldWrite a w

/-- Writes of a serial port's set (17). -/
def State.writeUart (s : State) (a : Nat) (w : Word) : State :=
  let n : Fin 4 := Fin.ofNat 4 ((a - 0x40010000) / 0x100)
  if a % 0x100 = 0 then s.txPush n (fieldOf w 8 0)
  else if a % 0x100 = 4 then s.uartCtrl n w
  else if a % 0x100 = 0x10 then (s.uartDepth n w).rtsSettle n
  else (s.fieldWrite a w).rtsSettle n

/-- Writes of the TCH region (18). -/
def State.writeTch (s : State) (a : Nat) (w : Word) : State :=
  if a = TCH_CTRL.adr then s.tchCtrl w
  else if a = TCH_RECAL_LO.adr then s.modTch (fun t => { t with recal := t.recal ||| w.setWidth 64 })
  else if a = TCH_RECAL_HI.adr then s.modTch (fun t => { t with recal := t.recal ||| (w.setWidth 64 <<< 32) })
  else s.fieldWrite a w

/-- Writes of the LCD region (18). -/
def State.writeLcd (s : State) (a : Nat) (w : Word) : State :=
  if a = LCD_CTRL.adr then (s.fieldWrite a w).lcdSettle
  else if a = LCD_UPD.adr then s.lcdUpd (fieldOf w 7 0)
  else if a = LCD_TRIM.adr then s.lcdTrim w
  else if 0x40030020 ≤ a ∧ a < 0x40030040 then s.lcdBandWrite ((a - 0x40030020) / 4) w
  else s.fieldWrite a w

/-- Writes of the HRV region (16). -/
def State.writeHrv (s : State) (ag : Agent) (a : Nat) (w : Word) : State :=
  if 0x40040040 ≤ a ∧ a < 0x40040050 then s.grantWrite ag (Fin.ofNat 4 ((a - 0x40040040) / 4)) w
  else s.fieldWrite a w

/-- Writes of the LGR region (11). -/
def State.writeLgr (s : State) (a : Nat) (w : Word) : State :=
  if a = LGR_CTRL.adr then
    let s := s.fieldWrite a w
    let s := if w.getLsbD 1 then s.lgrNote else s
    if w.getLsbD 0 then s.sealDue 7 else s
  else s.fieldWrite a w

/-! ### The always-on power manager (15, 19) -/

/-- The bit of [5:1] in `APM_VOTEd` that is an agent's own (R507): bit `CORE.ID` + 1. -/
def voteBit (ag : Agent) : Nat := (partyOf ag).core + 1

/-- Cast or withdraw votes on domain `d` (R507). -/
def State.voteOne (s : State) (ag : Agent) (w : Word) (cast : Bool) (d : Fin 3) : State :=
  let a := APM_VOTE.adr d
  let put (s : State) (i : Nat) : State :=
    let s := s.wr a (BitVec.ofNat 32 (setBit (s.rd a).toNat i cast))
    if cast then s.noteSet ⟨a, i, i⟩ 1 else s
  let s := if w.getLsbD d then put s (voteBit ag) else s
  let s := if w.getLsbD (4 + d) && (partyOf ag).isMgt then put s 0 else s
  if w.getLsbD (8 + d) && !cast then put s 9 else s

/-- A write of `APM_VOTE_SET` or `APM_VOTE_CLR` (R507). -/
def State.voteWrite (s : State) (ag : Agent) (w : Word) (cast : Bool) : State :=
  (((s.voteOne ag w cast 0).voteOne ag w cast 1).voteOne ag w cast 2).domainVotes

/-- The reset of the always-on domain that a request or a third fault of the AOC makes: a restart, which waits
while the final sequence runs (R613, R614). -/
def State.aoRestart (s : State) : State :=
  if s.on HRV_STAT.SEALING then { s with ao := { s.ao with restart := true } } else s.aoStart false

/-- A write of `APM_RSTREQ` (R613): the AOC and the management cores may ask. -/
def State.rstReq (s : State) (ag : Agent) (w : Word) : State :=
  let x := partyOf ag
  if x == .aoc || x.isMgt then
    let note (s : State) (f : Fld) : State := (s.raise f).set APM_RSTCAUSE.CORE x.core
    let s := if w.getLsbD 2 then (note s APM_RSTCAUSE.REQLINK).linkReset else s
    let s := if w.getLsbD 1 then (note s APM_RSTCAUSE.REQFAST).fastReset else s
    if w.getLsbD 0 then (note s APM_RSTCAUSE.REQAO).aoRestart else s
  else s

/-- A write of `APM_CLK` (R520): clearing XOEN stops XO32. -/
def State.apmClkWrite (s : State) (a : Nat) (w : Word) : State :=
  let was := s.on APM_CLK.XOEN
  let s := s.fieldWrite a w
  if was && !s.on APM_CLK.XOEN then s.xoStop else s

/-- Writes of the APM region (15, 19, 08). -/
def State.writeApm (s : State) (ag : Agent) (a : Nat) (w : Word) : State :=
  if a = APM_MODE.adr then
    let s := if w.getLsbD 8 && s.clearable APM_MODE.REQREF then s.set APM_MODE.REQREF 0 else s
    if fieldOf w 5 4 = 3 then s else (s.modeReq (fieldOf w 5 4)).2
  else if a = APM_VOTE_SET.adr then s.voteWrite ag w true
  else if a = APM_VOTE_CLR.adr then s.voteWrite ag w false
  else if a = APM_CLK.adr then s.apmClkWrite a w
  else if a = APM_CLKEN.adr then s.apmClkenWrite (fieldOf w 3 0)
  else if a = APM_RSTREQ.adr then s.rstReq ag w
  else if a = EVF_AO_SWEV.adr then s.aoSwEvents w
  else s.fieldWrite a w

/-- A write of the register word at `a` by `ag`, which may make it. -/
def State.regWrite (s : State) (ag : Agent) (a : Nat) (w : Word) : State :=
  if a < 0x30100000 then s.writeTrk a w
  else if a < 0x30200000 then s.writeAlm a w
  else if a < 0x30300000 then s.writeCnv a w
  else if a < 0x30400000 then s.writeSlc ag a w
  else if a < 0x30500000 then s.writeGou a w
  else if a < 0x30600000 then s.writeEvf a w
  else if a < 0x30700000 then s.writeMbx a w
  else if a < 0x30800000 then s.writeGrn a w
  else if a < 0x30A00000 then s.fieldWrite a w
  else if a < 0x40000000 then s.writeCpm ag a w
  else if a < 0x40010000 then s.writeRtc a w
  else if a < 0x40020000 then s.writeUart a w
  else if a < 0x40030000 then s.writeTch a w
  else if a < 0x40040000 then s.writeLcd a w
  else if a < 0x40050000 then s.writeHrv ag a w
  else if a < 0x40060000 then s.writeLgr a w
  else s.writeApm ag a w

/-! ### Accesses -/

/-- The address is an always-on register's, on the bus that BRC clocks (R32). -/
def onAoBus (a : Nat) : Bool := decide (0x40000000 ≤ a ∧ a < 0x40070000) && !decide (0x40010200 ≤ a ∧ a < 0x40010400)

/-- An access to an always-on register waits for BRC, which APM starts and afterwards stops again when nothing
else needs it (R32, R523). -/
def State.onBus (s : State) (a : Nat) (f : State → Word × State) : Word × State :=
  if onAoBus a && !s.on APM_CLKSTAT.BRCRUN then
    let r := f s.aoBus
    (r.1, r.2.brcSettle)
  else f s

/-- A read of the register word at `a`; none is a bus error (R25 to R32). -/
def State.busRead (s : State) (ag : Agent) (a : Nat) : Option Word × State :=
  if isRegAddr a && s.defined a && a % 4 == 0 && s.allows ag a false then
    let r := s.onBus a (fun s => s.regRead ag a)
    (some r.1, r.2)
  else (none, s)

/-- A write of the register word at `a`; the answer says whether it was made (R25 to R32). -/
def State.busWrite (s : State) (ag : Agent) (a : Nat) (w : Word) : Bool × State :=
  if isRegAddr a && s.defined a && a % 4 == 0 && s.allows ag a true then
    (true, (s.onBus a (fun s => (0, s.regWrite ag a w))).2)
  else (false, s)

/-- The word of a register with the values that a narrower write leaves alone: fields that hold what is written
keep their value, a staged one its staged value where the pending bank has one, the others act on 0. -/
def State.keepWord (s : State) (a : Nat) : Word :=
  match fieldsAt a with
  | some l =>
    let e := s.staged a
    blend (e.1 &&& accMask l .st) (s.rd a) e.2 &&& (accMask l .rw ||| accMask l .cd ||| accMask l .st ||| accMask l .lk)
  | none => 0

/-- A register read as a command of its own: the word becomes the answer. -/
def State.readCmd (s : State) (ag : Agent) (a : Nat) : State :=
  let r := s.busRead ag a
  { r.2 with answer := r.1 }

/-- A register write as a command of its own. -/
def State.writeCmd (s : State) (ag : Agent) (a : Nat) (w : Word) : State :=
  let r := s.busWrite ag a w
  { r.2 with answer := if r.1 then some 0 else none }

/-- A write of one field; the word's other fields keep what they hold. -/
def State.fieldCmd (s : State) (ag : Agent) (f : Fld) (v : Nat) : State :=
  s.writeCmd ag f.adr (withField (s.keepWord f.adr) f.msb f.lsb v)

end Sys2Proof.Machine
end

