-- ==== Sys2Proof/Machine/TrackCmds.lean ====
section
/-!
DEFINITION. Machine/TrackCmds.lean: the commands of the position tracks (03), the Almanac (04), the event
fabric and the mailboxes (08). A command that stands for a write or a read of a register goes over the bus
with the rights of its agent.
-/
namespace Sys2Proof.Machine

/-! ### Position tracks -/

/-- `TRK_MEASUREMENT` (R101, R102, R128). -/
def execTrkMeasurement (n : TrackId) (s : State) : Result := .next (s.measurement n)

/-- `ENCODER_EDGE` (R111 to R113). -/
def execEncoderEdge (n : TrackId) (a b : Bool) (ts : Nat) (s : State) : Result := .next (s.encoderEdge n a b ts)

/-- `ENCODER_BOUNDARY_MEASUREMENT` (R114). -/
def execEncoderBoundaryMeasurement (n : TrackId) (s : State) : Result := .next (s.boundaryCheck n)

/-- `ENCODER_INDEX` (R115, R116). -/
def execEncoderIndex (n : TrackId) (ts : Nat) (s : State) : Result := .next (s.encoderIndex n ts)

/-- `SSI_START` (R119). -/
def execSsiStart (n : TrackId) (s : State) : Result := .next (s.ssiStart n)

/-- `SSI_FRAME_COMPLETE` (R118, R120). -/
def execSsiFrameComplete (n : TrackId) (bits : Word) (low : Bool) (s : State) : Result :=
  .next (s.ssiFrame n bits low)

/-- `OBSERVER_LOAD` (R124). -/
def execObserverLoad (ag : Agent) (n : TrackId) (ang : Word) (s : State) : Result :=
  .next (s.writeCmd ag (TRK_OBS_ANG.adr n) ang)

/-- `TRK_LOSS_CONDITION` (R104, R131). -/
def execTrkLossCondition (n : TrackId) (cond : LossCond) (s : State) : Result := .next (s.lossEvent n cond)

/-- `TRK_COAST_EXPIRY` (R133). -/
def execTrkCoastExpiry (n : TrackId) (s : State) : Result := .next (s.coastExpiry n)

/-- `TRK_LOST_CLEAR` (R135). -/
def execTrkLostClear (ag : Agent) (n : TrackId) (s : State) : Result :=
  .next (s.writeCmd ag (TRK_FLAGS.adr n) 4)

/-- `TRK_ENABLE` (R139). -/
def execTrkEnable (ag : Agent) (n : TrackId) (en : Bool) (s : State) : Result :=
  .next (s.fieldCmd ag (TRK_CTRL.EN n) (b2n en))

/-- `TRK_SOURCE_CHANGE` (R644): TYPE and IFACE, then `TRKn_SRCA`. -/
def execTrkSourceChange (ag : Agent) (n : TrackId) (ty iface : Fin 8) (srca : Word) (s : State) : Result :=
  let w := withField (withField (s.keepWord (TRK_CTRL.adr n)) 3 1 ty) 10 8 iface
  .next ((s.writeCmd ag (TRK_CTRL.adr n) w).writeCmd ag (TRK_SRCA.adr n) srca)

/-- `TRK_MULT_CHANGE` (R645). -/
def execTrkMultChange (ag : Agent) (n : TrackId) (mult : BitVec 7) (s : State) : Result :=
  .next (s.fieldCmd ag (TRK_CTRL.MULT n) mult.toNat)

/-- `TRK_ANG_READ` (R136). -/
def execTrkAngRead (ag : Agent) (n : TrackId) (s : State) : Result := .next (s.readCmd ag (TRK_ANG.adr n))

/-! ### Almanac -/

/-- `ALMANAC_COMMIT` (R145 to R151, R154). -/
def execAlmanacCommit (n : TrackId) (s : State) : Result := .next (s.almScan n)

/-- Time runs to the cycle in which track `n` issues its next firing, at most one in each cycle, and it issues it (R152,
R155). -/
def State.almIssue (s : State) (n : Fin 16) : State :=
  match nextFiring (s.alm[n]).queue with
  | none => s
  | some f =>
    let c := match (s.alm[n]).lastIssue with
      | some i => max (i + 1) (f.t / 16 - 1)
      | none => f.t / 16 - 1
    let s := s.reach c
    match nextFiring (s.almReady n) with
    | some g => if s.runs blkALM && (s.alm[n]).lastIssue != some s.now then s.almIssueNow n g else s
    | none => s

/-- `ALMANAC_FIRING_ISSUE` (R152, R153, R155, R157). -/
def execAlmanacFiringIssue (n : TrackId) (s : State) : Result := .next (s.almIssue n)

/-- `ALM_ARM` (R168). -/
def execAlmArm (ag : Agent) (idx : EntryId) (set : Bool) (s : State) : Result :=
  .next (s.writeCmd ag ALM_ARM.adr (BitVec.ofNat 32 (b2n set * 2 ^ 31 + idx)))

/-- The clock enable of fast-side block `b` is cleared (R525). -/
def State.enableOff (s : State) (b : Nat) : State := s.clkenWrite (setBit (s.get CPM_CLKEN.BLOCKS) b false)

/-- `ALMANAC_CLOCK_STOP` (R166): the enable is cleared, every committed firing is issued in its cycle, the clock stops. -/
def execAlmanacClockStop (s : State) : Result := .next ((s.enableOff blkALM).clockStopped blkALM)

/-! ### Event fabric -/

/-- `EVF_SWEV` (R274). -/
def execEvfSwev (ag : Agent) (mask : BitVec 16) (s : State) : Result :=
  .next (s.writeCmd ag EVF_SWEV.adr (mask.setWidth 32))

/-- `EVF_AO_SWEV` (R279). -/
def execEvfAoSwev (ag : Agent) (mask : BitVec 8) (s : State) : Result :=
  .next (s.writeCmd ag EVF_AO_SWEV.adr (mask.setWidth 32))

/-- `EVF_CLOCK_STOP` (R286). -/
def execEvfClockStop (s : State) : Result := .next ((s.enableOff blkEVF).clockStopped blkEVF)

/-! ### Mailboxes -/

/-- `MBX_PUSH` (R287, R288). -/
def execMbxPush (ag : Agent) (ch : ChanId) (hostBound : Bool) (val : Word) (s : State) : Result :=
  .next (s.writeCmd ag (if hostBound then MBX_HPUSH.adr ch else MBX_DPUSH.adr ch) val)

/-- `MBX_POP` (R287, R288). -/
def execMbxPop (ag : Agent) (ch : ChanId) (hostBound : Bool) (s : State) : Result :=
  .next (s.readCmd ag (if hostBound then MBX_HPOP.adr ch else MBX_DPOP.adr ch))

/-- `DOORBELL_RING` (R292). -/
def execDoorbellRing (ag : Agent) (mask : Word) (s : State) : Result := .next (s.writeCmd ag MBX_BELL_SET.adr mask)

/-- `MBX_CLOCK_STOP` (R291). -/
def execMbxClockStop (s : State) : Result := .next ((s.enableOff blkMBX).clockStopped blkMBX)

/-! ### Every other register -/

/-- `REGISTER_WRITE` (R12, R13, R25 to R32). -/
def execRegisterWrite (ag : Agent) (adr : BitVec 40) (val : Word) (s : State) : Result :=
  .next (s.writeCmd ag adr.toNat val)

end Sys2Proof.Machine
end

