-- ==== Sys2Proof/Machine/AoCmds.lean ====
section
/-!
DEFINITION. Machine/AoCmds.lean: the commands of the calendar and the serial ports (17), the hour ledger (11),
harvest and backup (16), the touch keys and the display (18).
-/
namespace Sys2Proof.Machine

/-! ### Calendar -/

/-- `CALENDAR_TICK` (R552, R553). -/
def execCalendarTick (s : State) : Result := .next s.calToTick

/-- `CALENDAR_SECOND_CARRY` (R550, R551). -/
def execCalendarSecondCarry (s : State) : Result := .next s.calToSecond

/-- `CALENDAR_TRIM` (R554). -/
def execCalendarTrim (s : State) : Result := .next s.calToTrim

/-- `PERIODIC_WAKE` (R563). -/
def execPeriodicWake (s : State) : Result := .next s.calToWake

/-- `RTC_APPLY` (R559, R560): a write with GO. -/
def execRtcApply (ag : Agent) (val : Word) (s : State) : Result :=
  .next (s.writeCmd ag RTC_APPLY.adr (val ||| 0x80000000#32))

/-- `RTC_READ_FREEZE` (R556, R557). -/
def execRtcReadFreeze (ag : Agent) (k : Fin 4) (s : State) : Result :=
  .next (s.readCmd ag (RTC_TIME.adr + 4 * k))

/-- `RTC_RELEASE` (R557). -/
def execRtcRelease (ag : Agent) (s : State) : Result := .next (s.writeCmd ag RTC_RELEASE.adr 1)

/-- `RTC_FREEZE_TIMEOUT` (R557). -/
def execRtcFreezeTimeout (s : State) : Result := .next s.rtcTimeout

/-! ### Hour ledger -/

/-- `HOUR_ENTRY` (R370). -/
def execHourEntry (s : State) : Result := .next s.hourEntry

/-- `LEDGER_SLOT_WRITE` (R372). -/
def execLedgerSlotWrite (s : State) : Result := .next s.slotWrite

/-- `LEDGER_SEAL` (R373 to R375). -/
def execLedgerSeal (s : State) : Result := .next s.ledgerSeal

/-- `LGR_NOTE` (R385): a write of 1 to NOTE. -/
def execLgrNote (ag : Agent) (s : State) : Result := .next (s.fieldCmd ag LGR_CTRL.NOTE 1)

/-- `LGR_SEAL_REQUEST` (R374): a write of 1 to SEAL. -/
def execLgrSealRequest (ag : Agent) (s : State) : Result := .next (s.fieldCmd ag LGR_CTRL.SEAL 1)

/-- `LEDGER_RECOVERY` (R376 to R378). -/
def execLedgerRecovery (s : State) : Result := .next s.ledgerRecovery

/-- `LEDGER_CONDENSE` (R382, R383). -/
def execLedgerCondense (s : State) : Result := .next s.ledgerCondense

/-- `TAMPER_ASSERT` (R384). -/
def execTamperAssert (j : Fin 4) (s : State) : Result := .next (s.tamperAssert j)

/-- `PARKED_MOTION_SAMPLE` (R386). -/
def execParkedMotionSample (a b : Bool) (s : State) : Result := .next (s.parkedMotion a b)

/-! ### Harvest and backup -/

/-- `VOC_SAMPLE` (R533). -/
def execVocSample (voc : Nat) (s : State) : Result := .next (s.vocSample voc)

/-- `PURSE_RECOMPUTE` (R535). -/
def execPurseRecompute (vin vstore : Nat) (s : State) : Result := .next (s.purseRecompute vin vstore)

/-- `STORE_FULL` (R531). -/
def execStoreFull (s : State) : Result := .next s.storeFull

/-- `GRANT_REQUEST` (R539, R540). -/
def execGrantRequest (h : Fin 4) (amount : BitVec 24) (s : State) : Result :=
  .next (if s.aoOn then s.grantRequest h amount.toNat else s)

/-- `GRANT_RETURN` (R541). -/
def execGrantReturn (h : Fin 4) (s : State) : Result :=
  .next (if s.aoOn then s.grantReturn h else s)

/-- `BROWN_OUT_WARNING` (R542). -/
def execBrownOutWarning (s : State) : Result := .next s.brownOut

/-- `SEAL_THRESHOLD` (R543, R544). -/
def execSealThreshold (s : State) : Result := .next s.sealThreshold

/-- `FINAL_SEQUENCE_COMPLETE` (R545 to R547). -/
def execFinalSequenceComplete (s : State) : Result := .next s.finalDone

/-- `CELLAR_EXIT` (R549). -/
def execCellarExit (s : State) : Result := .next s.cellarExit

/-- `AO_POWER_UP` (R528). -/
def execAoPowerUp (s : State) : Result := .next s.aoPowerUp

/-- `AO_POWER_LOSS` (R528). -/
def execAoPowerLoss (s : State) : Result := .next s.aoPowerLoss

/-! ### Serial ports -/

/-- `UART_CHAR_RECEIVED` (R574 to R579). -/
def execUartCharReceived (n : UartId) (char : SerialChar) (s : State) : Result := .next (s.uartRx n char)

/-- `UART_TX_START` (R572). -/
def execUartTxStart (n : UartId) (s : State) : Result := .next (s.uartTx n)

/-- `UART_DATA_WRITE` (R570). -/
def execUartDataWrite (ag : Agent) (n : UartId) (val : BitVec 9) (s : State) : Result :=
  .next (s.writeCmd ag (U_DATA.adr n) (val.setWidth 32))

/-- `UART_DATA_READ` (R577). -/
def execUartDataRead (ag : Agent) (n : UartId) (s : State) : Result := .next (s.readCmd ag (U_DATA.adr n))

/-- `RXFLUSH` (R570). -/
def execRxflush (ag : Agent) (n : UartId) (s : State) : Result := .next (s.fieldCmd ag (U_CTRL.RXFLUSH n) 1)

/-- `TXFLUSH` (R570). -/
def execTxflush (ag : Agent) (n : UartId) (s : State) : Result := .next (s.fieldCmd ag (U_CTRL.TXFLUSH n) 1)

/-- `UART_DEPTH_WRITE` (R569). -/
def execUartDepthWrite (ag : Agent) (n : UartId) (val : Word) (s : State) : Result :=
  .next (s.writeCmd ag (U_QCFG.adr n) val)

/-- `UART_IDLE` (R573). -/
def execUartIdle (n : UartId) (s : State) : Result := .next (s.uartIdle n)

/-- `UART_DISABLE` (R581): one write clears RXEN, TXEN or both. -/
def execUartDisable (ag : Agent) (n : UartId) (rx tx : Bool) (s : State) : Result :=
  let w := s.keepWord (U_CTRL.adr n)
  let w := if rx then withField w 0 0 0 else w
  let w := if tx then withField w 1 1 0 else w
  .next (s.writeCmd ag (U_CTRL.adr n) w)

/-! ### Touch keys -/

/-- `TOUCH_SCAN` (R585 to R595). -/
def execTouchScan (raws : List Nat) (s : State) : Result := .next (s.touchScan raws)

/-- `TOUCH_RECAL` (R591). -/
def execTouchRecal (ag : Agent) (hi : Bool) (keys : Word) (s : State) : Result :=
  .next (s.writeCmd ag (if hi then TCH_RECAL_HI.adr else TCH_RECAL_LO.adr) keys)

/-- `TOUCH_REPORT_READ` (R596). -/
def execTouchReportRead (ag : Agent) (s : State) : Result := .next (s.readCmd ag TCH_REPORT.adr)

/-- `TOUCH_ENTER_NOISE_TASK` (R595). -/
def execTouchEnterNoiseTask (s : State) : Result := .next (s.noiseTask 0xC8)

/-- `TOUCH_LEAVE_NOISE_TASK` (R595). -/
def execTouchLeaveNoiseTask (s : State) : Result := .next (s.noiseTask 0xC9)

/-- `TOUCH_DISABLE` (R597). -/
def execTouchDisable (ag : Agent) (s : State) : Result := .next (s.fieldCmd ag TCH_CTRL.EN 0)

/-! ### Display -/

/-- `LCD_UPD` (R602). -/
def execLcdUpd (ag : Agent) (mask : BitVec 8) (s : State) : Result :=
  .next (s.writeCmd ag LCD_UPD.adr (mask.setWidth 32))

/-- `FRAME_PAIR_BOUNDARY` (R602 to R608). -/
def execFramePairBoundary (s : State) : Result := .next s.lcdBoundary

/-- `LCD_TEMP_SAMPLE` (R606). -/
def execLcdTempSample (t : Int) (s : State) : Result := .next (s.lcdTemp t)

/-- `LCD_TRIM_LOAD` (R605): a write with LOAD. -/
def execLcdTrimLoad (ag : Agent) (val : Word) (s : State) : Result :=
  .next (s.writeCmd ag LCD_TRIM.adr (val ||| 0x80000000#32))

/-- `LCD_TRIM_LOAD_DONE` (R605). -/
def execLcdTrimLoadDone (s : State) : Result := .next s.lcdTrimDone

/-- `LCD_PUMP_SETTLED` (R600). -/
def execLcdPumpSettled (s : State) : Result := .next s.pumpSettled

/-- `LCD_DISABLE` (R608). -/
def execLcdDisable (ag : Agent) (s : State) : Result := .next (s.fieldCmd ag LCD_CTRL.EN 0)

end Sys2Proof.Machine
end

