-- ==== Sys2Proof/Machine/Flags.lean ====
section
/-!
DEFINITION. Machine/Flags.lean: FP32 arithmetic (R413, R414): exact values, one rounding to nearest even,
flush to zero, and the exception flags NV, DZ, OF, UF, NX in bits 4 to 0 as `FFLAGS` has them.
-/
namespace Sys2Proof.Machine

/-- A result with the flags it sets. -/
structure FpR where
  w : Word
  fl : Nat
  deriving DecidableEq, Repr

def fNV : Nat := 16
def fDZ : Nat := 8
def fOF : Nat := 4
def fUF : Nat := 2
def fNX : Nat := 1

/-- The one NaN result (R414). -/
def fpNan : Word := 0x7FC00000#32

/-- A value of binary32 with subnormals taken as zero (R414): NaN, infinity, or `m · 2^e` with a sign. -/
inductive Fp
  | nan (quiet : Bool)
  | inf (neg : Bool)
  | fin (neg : Bool) (m : Nat) (e : Int)
  deriving DecidableEq, Repr

/-- The value of a word. -/
def fpOf (w : Word) : Fp :=
  let neg := w.getLsbD 31
  let ex : Nat := w.toNat / 2 ^ 23 % 256
  let fr : Nat := w.toNat % 2 ^ 23
  if ex = 255 then (if fr = 0 then .inf neg else .nan (decide (2 ^ 22 ≤ fr)))
  else if ex = 0 then .fin neg 0 0
  else .fin neg (2 ^ 23 + fr) ((ex : Int) - 150)

def Fp.isNan : Fp → Bool
  | .nan _ => true
  | _ => false

/-- A signalling NaN. -/
def Fp.isSig : Fp → Bool
  | .nan q => !q
  | _ => false

def Fp.neg : Fp → Fp
  | .nan q => .nan q
  | .inf n => .inf (!n)
  | .fin n m e => .fin (!n) m e

/-- The word of a sign, a biased exponent and a fraction. -/
def fpWord (neg : Bool) (ex fr : Nat) : Word :=
  BitVec.ofNat 32 ((if neg then 2 ^ 31 else 0) + ex * 2 ^ 23 + fr)

def fpZero (neg : Bool) : Word := fpWord neg 0 0
def fpInf (neg : Bool) : Word := fpWord neg 255 0

/-- A NaN result of operands; a signalling one sets NV. -/
def fpNans (l : List Fp) : FpR := { w := fpNan, fl := if l.any Fp.isSig then fNV else 0 }

/-- An invalid operation. -/
def fpInvalid : FpR := { w := fpNan, fl := fNV }

/-- The binary32 nearest to `m · 2^e` (a little more when `sticky`), ties to even; a result that would be
subnormal is zero (R414). -/
def fpRound (neg : Bool) (m : Nat) (e : Int) (sticky : Bool) : FpR :=
  if m = 0 then { w := fpZero neg, fl := 0 }
  else
    let u : Int := max (e + Nat.log2 m - 23) (-149)
    let q0 := if u ≤ e then m * 2 ^ (e - u).toNat else m / 2 ^ (u - e).toNat
    let r := if u ≤ e then 0 else m % 2 ^ (u - e).toNat
    let half := if u ≤ e then 1 else 2 ^ ((u - e).toNat - 1)
    let up := decide (half < r) || (decide (half = r) && (sticky || decide (q0 % 2 = 1)))
    let q := if up then q0 + 1 else q0
    let nx := decide (r ≠ 0) || sticky
    if q < 2 ^ 23 then { w := fpZero neg, fl := fUF + fNX }
    else
      let (q, u) := if q = 2 ^ 24 then (2 ^ 23, u + 1) else (q, u)
      if 105 ≤ u then { w := fpInf neg, fl := fOF + fNX }
      else { w := fpWord neg (u + 150).toNat (q - 2 ^ 23), fl := if nx then fNX else 0 }

/-- The exact sum of two finite values as sign, magnitude and exponent; `z` is the sign of an exact zero. -/
def fpSum (n1 : Bool) (m1 : Nat) (e1 : Int) (n2 : Bool) (m2 : Nat) (e2 : Int) : FpR :=
  let e := if m1 = 0 then e2 else if m2 = 0 then e1 else min e1 e2
  let a : Int := if m1 = 0 then 0 else m1 * 2 ^ (e1 - e).toNat
  let b : Int := if m2 = 0 then 0 else m2 * 2 ^ (e2 - e).toNat
  let s : Int := (if n1 then -a else a) + (if n2 then -b else b)
  if s = 0 then { w := fpZero (n1 && n2), fl := 0 }
  else fpRound (decide (s < 0)) s.natAbs e false

def fpAdd2 (a b : Fp) : FpR :=
  match a, b with
  | .nan _, _ => fpNans [a, b]
  | _, .nan _ => fpNans [a, b]
  | .inf x, .inf y => if x = y then { w := fpInf x, fl := 0 } else fpInvalid
  | .inf x, .fin _ _ _ => { w := fpInf x, fl := 0 }
  | .fin _ _ _, .inf y => { w := fpInf y, fl := 0 }
  | .fin x m e, .fin y n f => fpSum x m e y n f

/-- `FADD`, `FSUB` (R413). -/
def fpAdd (a b : Word) : FpR := fpAdd2 (fpOf a) (fpOf b)
def fpSub (a b : Word) : FpR := fpAdd2 (fpOf a) (fpOf b).neg

/-- `FMUL` (R413). -/
def fpMul (a b : Word) : FpR :=
  match fpOf a, fpOf b with
  | .fin x m e, .fin y n f => fpRound (x != y) (m * n) (e + f) false
  | .inf x, .inf y => { w := fpInf (x != y), fl := 0 }
  | .inf x, .fin y n _ => if n = 0 then fpInvalid else { w := fpInf (x != y), fl := 0 }
  | .fin x m _, .inf y => if m = 0 then fpInvalid else { w := fpInf (x != y), fl := 0 }
  | u, v => fpNans [u, v]

/-- `FDIV` (R413). -/
def fpDiv (a b : Word) : FpR :=
  match fpOf a, fpOf b with
  | .fin x m e, .fin y n f =>
    if n = 0 then (if m = 0 then fpInvalid else { w := fpInf (x != y), fl := fDZ })
    else fpRound (x != y) (m * 2 ^ 40 / n) (e - f - 40) (decide (m * 2 ^ 40 % n ≠ 0))
  | .inf _, .inf _ => fpInvalid
  | .inf x, .fin y _ _ => { w := fpInf (x != y), fl := 0 }
  | .fin x _ _, .inf y => { w := fpZero (x != y), fl := 0 }
  | u, v => fpNans [u, v]

/-- `FSQRT` (R413). -/
def fpSqrt (a : Word) : FpR :=
  match fpOf a with
  | .nan q => fpNans [.nan q]
  | .inf x => if x then fpInvalid else { w := fpInf false, fl := 0 }
  | .fin x m e =>
    if m = 0 then { w := fpZero x, fl := 0 }
    else if x then fpInvalid
    else
      let k : Nat := if e % 2 = 0 then 40 else 41
      let r := isqrt (m * 2 ^ k)
      fpRound false r ((e - k) / 2) (decide (r * r ≠ m * 2 ^ k))

/-- a · b + c with one rounding. -/
def fpFma (a b c : Word) (cv : Fp) : FpR :=
  match fpOf a, fpOf b, cv with
  | .fin x m e, .fin y n f, .fin z p g => fpSum (x != y) (m * n) (e + f) z p g
  | .fin _ _ _, .fin _ _ _, .inf z => { w := fpInf z, fl := 0 }
  | u, v, w =>
    let zeroInf : Bool := match u, v with
      | .inf _, .fin _ n _ => decide (n = 0)
      | .fin _ m _, .inf _ => decide (m = 0)
      | _, _ => false
    if zeroInf then
      (if w.isNan && !w.isSig then { w := fpNan, fl := if Config.fmaInvalid a b c then fNV else 0 } else fpInvalid)
    else if u.isNan || v.isNan || w.isNan then fpNans [u, v, w]
    else
      let sgn : Bool := (match u with
        | .inf x => x
        | .fin x _ _ => x
        | .nan _ => false) != (match v with
        | .inf y => y
        | .fin y _ _ => y
        | .nan _ => false)
      match w with
      | .inf z => if z = sgn then { w := fpInf sgn, fl := 0 } else fpInvalid
      | _ => { w := fpInf sgn, fl := 0 }

/-- `FMADD`, `FMSUB`, `FNMADD` (R413). -/
def fpMadd (a b c : Word) : FpR := fpFma a b c (fpOf c)
def fpMsub (a b c : Word) : FpR := fpFma a b c (fpOf c).neg
def fpNmadd (a b c : Word) : FpR :=
  let r := fpMadd a b c
  if r.w = fpNan then r else { r with w := r.w ^^^ 0x80000000#32 }

/-- The order of two numbers: −1, 0 or 1; zeros are equal. -/
def fpCmp (a b : Fp) : Int :=
  let big : Int := 2 ^ 300
  let val (x : Fp) : Int := match x with
    | .nan _ => 0
    | .inf n => if n then -big else big
    | .fin n m e =>
      let v : Int := if m = 0 then 0 else m * 2 ^ (e + 149).toNat
      if n then -v else v
  if val a < val b then -1 else if val a = val b then 0 else 1

/-- A word with a subnormal taken as zero. -/
def fpFlush (w : Word) : Word := if w.toNat / 2 ^ 23 % 256 = 0 then w &&& 0x80000000#32 else w

/-- `FMIN` and `FMAX` (R413): −0 is less than +0. -/
def fpMinMax (mx : Bool) (a b : Word) : FpR :=
  let u := fpOf a
  let v := fpOf b
  let fl := if u.isSig || v.isSig then fNV else 0
  if u.isNan && v.isNan then { w := fpNan, fl := fl }
  else if u.isNan then { w := fpFlush b, fl := fl }
  else if v.isNan then { w := fpFlush a, fl := fl }
  else
    let c := fpCmp u v
    let less : Bool := decide (c = -1) || (decide (c = 0) && a.getLsbD 31)
    { w := fpFlush (if less != mx then a else b), fl := fl }

/-- `FEQ`, `FLT`, `FLE` (R413): 0 for a NaN; NV for any NaN in an ordering comparison. -/
def fpCompare (k : Nat) (a b : Word) : FpR :=
  let u := fpOf a
  let v := fpOf b
  if u.isNan || v.isNan then { w := 0, fl := if k ≠ 0 ∨ u.isSig ∨ v.isSig then fNV else 0 }
  else
    let c := fpCmp u v
    let t : Bool := if k = 0 then decide (c = 0) else if k = 1 then decide (c = -1) else decide (c ≠ 1)
    { w := if t then 1 else 0, fl := 0 }

/-- Conversion to an integer between `lo` and `hi`, towards zero, saturating (R413). -/
def fpToInt (lo hi : Int) (a : Word) : FpR :=
  match fpOf a with
  | .nan _ => { w := 0, fl := fNV }
  | .inf n => { w := BitVec.ofInt 32 (if n then lo else hi), fl := fNV }
  | .fin n m e =>
    let t : Int := if 0 ≤ e then m * 2 ^ e.toNat else m / 2 ^ (-e).toNat
    let exact : Bool := decide (0 ≤ e) || decide (m % 2 ^ (-e).toNat = 0)
    let v : Int := if n then -t else t
    if v < lo then { w := BitVec.ofInt 32 lo, fl := fNV }
    else if hi < v then { w := BitVec.ofInt 32 hi, fl := fNV }
    else { w := BitVec.ofInt 32 v, fl := if exact then 0 else fNX }

/-- `FCVTWS`, `FCVTWUS`, `FCVTSW`, `FCVTSWU` (R413). -/
def fpToS (a : Word) : FpR := fpToInt (-(2 ^ 31)) (2 ^ 31 - 1) a
def fpToU (a : Word) : FpR := fpToInt 0 (2 ^ 32 - 1) a
def fpOfS (a : Word) : FpR := fpRound (decide (a.toInt < 0)) a.toInt.natAbs 0 false
def fpOfU (a : Word) : FpR := fpRound false a.toNat 0 false

/-- A sign operation on the value of a word: a NaN result is the one NaN (R413, R414). -/
def fpSign (f : Word → Word) (a : Word) : FpR :=
  if (fpOf a).isNan then { w := fpNan, fl := 0 } else { w := f (fpFlush a), fl := 0 }

/-- `FNEG` and `FABS`. -/
def fpNeg (a : Word) : FpR := fpSign (fun w => w ^^^ 0x80000000#32) a
def fpAbs (a : Word) : FpR := fpSign (fun w => w &&& 0x7FFFFFFF#32) a

end Sys2Proof.Machine
end

