-- ==== Sys2Proof/Machine/Operands.lean ====
section
/-!
DEFINITION. Machine/Operands.lean: the operand forms and integer results of the cores (12): immediates,
results of the ALU, multiply and divide tables, long operations by their word, short operations of a pair.
-/
namespace Sys2Proof.Machine

/-- 1 or 0. -/
def wordOf (b : Bool) : Word := if b then 1 else 0

/-! ### Integer results (R408 to R410) -/

/-- Saturation to a signed word (R409, `ADDS`, `SUBS`). -/
def satWord (x : Int) : Word := BitVec.ofInt 32 (satInt 32 x)

/-- Count of leading zeros; 32 for zero. -/
def clz (a : Word) : Word := if a = 0 then 32 else BitVec.ofNat 32 (31 - Nat.log2 a.toNat)

def shl (a : Word) (n : Nat) : Word := a <<< (n % 32)
def shrl (a : Word) (n : Nat) : Word := a >>> (n % 32)
def shra (a : Word) (n : Nat) : Word := a.sshiftRight (n % 32)
def ltS (a b : Word) : Bool := decide (a.toInt < b.toInt)
def ltU (a b : Word) : Bool := decide (a.toNat < b.toNat)
def minS (a b : Word) : Word := if ltS b a then b else a
def maxS (a b : Word) : Word := if ltS a b then b else a
def minU (a b : Word) : Word := if ltU b a then b else a
def maxU (a b : Word) : Word := if ltU a b then b else a

/-- The upper words of products (R410). -/
def mulhSS (a b : Word) : Word := BitVec.ofInt 32 (a.toInt * b.toInt / 2 ^ 32)
def mulhUU (a b : Word) : Word := BitVec.ofNat 32 (a.toNat * b.toNat / 2 ^ 32)
def mulhSU (a b : Word) : Word := BitVec.ofInt 32 (a.toInt * b.toNat / 2 ^ 32)

/-- Quotients and remainders with the corners of R410. -/
def divS (a b : Word) : Word :=
  if b = 0 then 0xFFFFFFFF#32 else BitVec.ofInt 32 (a.toInt.tdiv b.toInt)
def remS (a b : Word) : Word := if b = 0 then a else BitVec.ofInt 32 (a.toInt.tmod b.toInt)
def divU (a b : Word) : Word := if b = 0 then 0xFFFFFFFF#32 else BitVec.ofNat 32 (a.toNat / b.toNat)
def remU (a b : Word) : Word := if b = 0 then a else BitVec.ofNat 32 (a.toNat % b.toNat)
def sqrtU (a : Word) : Word := BitVec.ofNat 32 (isqrt a.toNat)

/-! ### Long operations (R411, R443) -/

/-- The word of an L-R instruction (R404). -/
def wordLR (op rd rs1 rs2 func : Nat) : Word :=
  BitVec.ofNat 32 (op * 2 ^ 25 + rd * 2 ^ 20 + rs1 * 2 ^ 15 + rs2 * 2 ^ 10 + func)

/-- A long operation's result, flags and latency L. -/
structure LongRes where
  r : FpR
  lat : Nat
  deriving DecidableEq, Repr

/-- The long operation of opcode `op` and FUNC `f` on its operands; none: no long operation (R410, R413,
R443). -/
def longOf (op f : Nat) (a b c : Word) : Option LongRes :=
  let int (w : Word) : FpR := { w := w, fl := 0 }
  if op = 0x14 then
    (match f with
     | 4 => some ⟨int (divS a b), 18⟩
     | 5 => some ⟨int (divU a b), 18⟩
     | 6 => some ⟨int (remS a b), 18⟩
     | 7 => some ⟨int (remU a b), 18⟩
     | 8 => some ⟨int (sqrtU a), 17⟩
     | _ => none)
  else if op = 0x15 then
    (match f with
     | 0 => some ⟨fpAdd a b, 3⟩
     | 1 => some ⟨fpSub a b, 3⟩
     | 2 => some ⟨fpMul a b, 3⟩
     | 3 => some ⟨fpDiv a b, 12⟩
     | 4 => some ⟨fpSqrt a, 12⟩
     | 5 => some ⟨fpMinMax false a b, 1⟩
     | 6 => some ⟨fpMinMax true a b, 1⟩
     | 7 => some ⟨fpCompare 0 a b, 1⟩
     | 8 => some ⟨fpCompare 1 a b, 1⟩
     | 9 => some ⟨fpCompare 2 a b, 1⟩
     | 10 => some ⟨fpToS a, 2⟩
     | 11 => some ⟨fpOfS a, 2⟩
     | 12 => some ⟨fpToU a, 2⟩
     | 13 => some ⟨fpOfU a, 2⟩
     | 14 => some ⟨fpNeg a, 1⟩
     | 15 => some ⟨fpAbs a, 1⟩
     | _ =>
       if 0x20 ≤ f ∧ f < 0x40 then some ⟨fpMadd a b c, 4⟩
       else if 0x40 ≤ f ∧ f < 0x60 then some ⟨fpMsub a b c, 4⟩
       else if 0x60 ≤ f ∧ f < 0x80 then some ⟨fpNmadd a b c, 4⟩
       else none)
  else none

/-! ### Short operations of a pair (R404 to R406) -/

/-- A short operation: its code, RD, and RS, immediate or index. -/
structure Short where
  sop : Nat
  rd : Nat
  rs : Nat
  deriving DecidableEq, Repr

def shortOf (b : BitVec 15) : Short :=
  { sop := b.toNat / 2 ^ 10, rd := b.toNat / 2 ^ 5 % 32, rs := b.toNat % 32 }

/-- The code exists, and `SNOP` names no registers (R405). -/
def Short.legal (x : Short) : Bool := decide (x.sop < 0x18) && (x.sop != 0 || (x.rd == 0 && x.rs == 0))

def Short.isMem (x : Short) : Bool := x.sop == 0x16 || x.sop == 0x17

/-- The register that it writes. -/
def Short.writes (x : Short) : List Nat := if x.sop = 0 ∨ x.sop = 0x17 then [] else [x.rd]

/-- The registers that it reads. -/
def Short.reads (x : Short) : List Nat :=
  if x.sop = 0 ∨ x.sop = 0x10 ∨ x.sop = 0x16 then []
  else if x.sop = 1 ∨ x.sop = 0xB ∨ x.sop = 0xC then [x.rs]
  else if x.sop < 0x10 then [x.rd, x.rs]
  else [x.rd]

/-- Slot B depends on slot A (R406). -/
def dependent (a b : Short) : Bool :=
  a.writes.any (fun r => r != 0 && (b.reads.contains r || b.writes.contains r)) || (a.isMem && b.isMem)

/-- The result of a short operation other than `SNOP`, `SLW` and `SSW` from the values of RD and RS (R405). -/
def Short.value (x : Short) (d s : Word) : Word :=
  let imm : Word := (BitVec.ofNat 5 x.rs).signExtend 32
  match x.sop with
  | 1 => s
  | 2 => d + s
  | 3 => d - s
  | 4 => d &&& s
  | 5 => d ||| s
  | 6 => d ^^^ s
  | 7 => shl d s.toNat
  | 8 => shrl d s.toNat
  | 9 => shra d s.toNat
  | 0xA => d * s
  | 0xB => -s
  | 0xC => ~~~s
  | 0xD => minS d s
  | 0xE => maxS d s
  | 0xF => wordOf (ltS d s)
  | 0x10 => imm
  | 0x11 => d + imm
  | 0x12 => shl d x.rs
  | 0x13 => shrl d x.rs
  | 0x14 => shra d x.rs
  | 0x15 => d &&& BitVec.ofNat 32 x.rs
  | _ => d

/-! ### String instructions (R430, R431) -/

/-- The fields of a word of opcode 0x27. -/
structure Str where
  cd : Fin 8
  cs : Fin 8
  kind : Nat
  size : Nat
  down : Bool
  rd : Fin 32
  deriving DecidableEq, Repr

/-- A legal string instruction that follows `BRPT`; none: `BRPT` is illegal (R404, R430, R431). -/
def strOf (w : Word) : Option Str :=
  let n := w.toNat
  let x : Str := { cd := Fin.ofNat 8 (n / 2 ^ 22), cs := Fin.ofNat 8 (n / 2 ^ 19), kind := n / 2 ^ 16 % 8,
                   size := n / 2 ^ 14 % 4, down := w.getLsbD 13, rd := Fin.ofNat 32 (n / 2 ^ 8) }
  let usesRd := x.kind != 0
  let usesCd := decide (x.kind ≤ 2)
  let usesCs := x.kind != 1
  if n / 2 ^ 25 = 0x27 ∧ n % 256 = 0 ∧ x.kind < 5 ∧ (x.rd : Nat) < 29 ∧ (usesRd ∨ x.rd = 0) ∧
      (usesCd ∨ x.cd = 0) ∧ (usesCs ∨ x.cs = 0) then some x
  else none

end Sys2Proof.Machine
end

