-- ==== Sys2Proof/Machine/Caps.lean ====
section
/-!
DEFINITION. Machine/Caps.lean: capabilities, the checks of a core's access (R399 to R402, R417), and memory as a
core reads and writes it with its tags (R419, R420).
-/
namespace Sys2Proof.Machine

/-! ### Fields (R399) -/

def Cap.base (k : Cap) : Nat := k.bits.toNat % 2 ^ 40
def Cap.limit (k : Cap) : Nat := k.bits.toNat / 2 ^ 40 % 2 ^ 40
def Cap.perm (k : Cap) : Nat := k.bits.toNat / 2 ^ 80 % 2 ^ 12
def Cap.sl (k : Cap) : Nat := k.bits.toNat / 2 ^ 92 % 2 ^ 8

/-- A capability with bits [lsb + w - 1:lsb] replaced. -/
def Cap.put (k : Cap) (lsb w v : Nat) : Cap :=
  let n := k.bits.toNat
  { k with bits := BitVec.ofNat 128 (n % 2 ^ lsb + v % 2 ^ w * 2 ^ lsb + n / 2 ^ (lsb + w) * 2 ^ (lsb + w)) }

/-- Permission bits (R401). -/
def pRD : Nat := 0x001
def pWR : Nat := 0x002
def pRUN : Nat := 0x004
def pBLK : Nat := 0x008
def pTAKE : Nat := 0x010
def pPUT : Nat := 0x020
def pSHARE : Nat := 0x040
def pATOM : Nat := 0x080
def pKEY : Nat := 0x100
def pSYS : Nat := 0x200
def pPRIV : Nat := 0x400

/-- The capability holds every permission of a mask. -/
def Cap.holds (k : Cap) (need : Nat) : Bool := k.perm &&& need == need

/-! ### Faults (R488, R489) -/

/-- A fault on its way to a handler: descriptor, cause, capability named, fault on fetch, address; of a memory error the
bytes that were to be read. -/
structure Trouble where
  desc : Nat
  cause : Nat
  capn : Nat
  fetch : Bool
  addr : Nat
  size : Nat := 0
  deriving DecidableEq, Repr

/-- Faults by name (R488). -/
def illegal (fetch : Bool := false) : Trouble := { desc := 1, cause := 0, capn := 0, fetch := fetch, addr := 0 }
def illegalPair : Trouble := { desc := 2, cause := 0, capn := 0, fetch := false, addr := 0 }
/-- A privileged operation or `CSR` without its permission in `c0`. -/
def notPermitted : Trouble := { desc := 3, cause := 2, capn := 0, fetch := false, addr := 0 }
/-- A capability fault of an operation on capability register `n`. -/
def capTrouble (cause n : Nat) : Trouble := { desc := 3, cause := cause, capn := n, fetch := false, addr := 0 }
def flowTrouble (cause : Nat) : Trouble := { desc := 7, cause := cause, capn := 0, fetch := false, addr := 0 }

/-! ### Access checks (R417) -/

/-- Steps 1 to 4: the cause that fails first. -/
def Cap.check (k : Cap) (need offs sz : Nat) : Option Nat :=
  let a := k.base + offs
  if !k.tag then some 0
  else if k.sl ≠ 0 then some 1
  else if !k.holds need || (isRegAddr a && !k.holds pBLK) then some 2
  else if k.limit < a + sz - 1 ∨ 2 ^ 40 ≤ a + sz - 1 then some 3
  else none

/-- The core as an agent. -/
def coreOf (i : Fin 5) : Agent :=
  .core (if i = 0 then .ctl0 else if i = 1 then .ctl1 else if i = 2 then .mgt0 else if i = 3 then .mgt1 else .aoc)

def coreIx : CoreId → Fin 5
  | .ctl0 => 0
  | .ctl1 => 1
  | .mgt0 => 2
  | .mgt1 => 3
  | .aoc => 4

/-- The words of an access lie where the region filter permits them and registers are defined. -/
def State.reach6 (s : State) (i : Fin 5) (a sz : Nat) (wr : Bool) : Option Nat :=
  let bad (x : Nat) : Bool := !(s.allows (coreOf i) x wr && s.defined x)
  if bad a then some (s.busCause (coreOf i) a wr)
  else if 4 < sz ∧ isRegAddr a then
    ((List.range (sz / 4)).find? (fun j => bad (a + 4 * j))).map (fun j => s.busCause (coreOf i) (a + 4 * j) wr)
  else none

/-- An access of `sz` bytes at `offs` through capability register `n`: its address, or its first fault; the last is a
memory error of an access that reads (R333, R335, R488). -/
def State.access (s : State) (i : Fin 5) (n : Fin 8) (need offs sz : Nat) (wr : Bool) : Except Trouble Nat :=
  let k := (s.core[i]).caps[n]
  let a := k.base + offs
  let f (d c : Nat) : Trouble := { desc := d, cause := c, capn := n, fetch := false, addr := a }
  match k.check need offs sz with
  | some c => .error (f 3 c)
  | none =>
    if a % sz ≠ 0 then .error (f 4 0)
    else match s.reach6 i a sz wr with
      | some c => .error (f 5 c)
      | none =>
        if need &&& (pRD ||| pRUN) ≠ 0 && s.spoiltAny a sz then .error { f 6 0 with size := sz } else .ok a

/-! ### Memory as a core sees it -/

/-- Regions that keep tags (R419). -/
def hasTags (a : Nat) : Bool :=
  decide (0x20000000 ≤ a ∧ a < 0x20400000) || decide (0x28000000 ≤ a ∧ a < 0x28080000) ||
    decide (0x28100000 ≤ a ∧ a < 0x28180000) || decide (0x41000000 ≤ a ∧ a < 0x41050000)

/-- Regions in which `AMO` is permitted (R433). -/
def amoRegion (a : Nat) : Bool := hasTags a || decide (0x1000000000 ≤ a)

/-- A byte of memory; the boot ROM's bytes are a constant of the part. -/
def State.memByte (s : State) (a : Nat) : Byte := if a < 0x20000 then Config.bootRom a else s.byte a

/-- A little-endian number of `n` bytes of memory. -/
def State.memNum (s : State) (a n : Nat) : Nat := ofLeBytes ((List.range n).map (fun j => s.memByte (a + j)))

/-- Read `sz` bytes at `a` after the checks; a register word is read as a whole, and a narrow read takes its
bytes from it (DESIGN CHOICE). A single error in what is read is corrected (R333, R335). -/
def State.coreRead (s : State) (i : Fin 5) (a sz : Nat) : Nat × State :=
  let s := s.eccReads a sz
  if isRegAddr a then
    if sz ≤ 4 then
      let r := s.busRead (coreOf i) (a - a % 4)
      ((r.1.getD 0).toNat / 2 ^ (8 * (a % 4)) % 2 ^ (8 * sz), r.2)
    else
      (List.range (sz / 4)).foldl (fun (x : Nat × State) j =>
        let r := x.2.busRead (coreOf i) (a + 4 * j)
        (x.1 + (r.1.getD 0).toNat * 2 ^ (32 * j), r.2)) (0, s)
  else (s.memNum a sz, s)

/-- Write `sz` bytes at `a` after the checks; a narrow write of a register leaves its other bytes alone (DESIGN
CHOICE). -/
def State.coreWrite (s : State) (i : Fin 5) (a sz v : Nat) : State :=
  if isRegAddr a then
    if sz < 4 then
      let w := a - a % 4
      let lsb := 8 * (a % 4)
      (s.busWrite (coreOf i) w (withField (s.keepWord w) (lsb + 8 * sz - 1) lsb v)).2
    else
      (List.range (sz / 4)).foldl (fun (s : State) j =>
        (s.busWrite (coreOf i) (a + 4 * j) (BitVec.ofNat 32 (v / 2 ^ (32 * j)))).2) s
  else s.putLe a sz v

/-- The tag of a granule. -/
def State.tagAt (s : State) (a : Nat) : Bool := hasTags a && s.tags.contains (a / 16)

/-- Set the tag of a granule. -/
def State.setTag (s : State) (a : Nat) : State :=
  { s with tags := insertBy (fun (x y : Nat) => decide (x < y)) (a / 16) (s.tags.filter (fun g => g != a / 16)) }

/-- The capability in a granule; its tag comes only through TAKE (R420). -/
def State.granule (s : State) (i : Fin 5) (a : Nat) (take : Bool) : Cap × State :=
  let r := s.coreRead i a 16
  ({ bits := BitVec.ofNat 128 r.1, tag := take && s.tagAt a }, r.2)

/-! ### Registers of a core -/

def State.modCore (s : State) (i : Fin 5) (f : CoreSt → CoreSt) : State :=
  { s with core := s.core.set i (f s.core[i]) }

/-- General register `r`; `g0` reads as zero (R397). -/
def State.gr (s : State) (i : Fin 5) (r : Reg) : Word := if r = 0 then 0 else (s.core[i]).regs[r]

/-- Write general register `r`; a write to `g0` is discarded (R397). -/
def State.setGr (s : State) (i : Fin 5) (r : Reg) (w : Word) : State :=
  if r = 0 then s else s.modCore i (fun k => { k with regs := k.regs.set r w })

def State.cap (s : State) (i : Fin 5) (n : CapIx) : Cap := (s.core[i]).caps[n]

def State.setCap (s : State) (i : Fin 5) (n : CapIx) (c : Cap) : State :=
  s.modCore i (fun k => { k with caps := k.caps.set n c })

/-- `c0` holds PRIV, SYS or KEY. -/
def State.code (s : State) (i : Fin 5) (p : Nat) : Bool := (s.cap i 0).holds p

end Sys2Proof.Machine
end

