-- ==== Sys2Proof/Machine/Entry.lean ====
section
/-!
DEFINITION. Machine/Entry.lean: a core's clock, its predictor, long operations in flight, the interrupt sources,
the descriptor check, handler entry and escalation (13, 14).
-/
namespace Sys2Proof.Machine

/-! ### The clock of a core -/

/-- `n` cycles of the core pass; `IPEND.TM` is set when `CYCLE_LO` becomes equal to `TMCMP` (R477). -/
def CoreSt.spend (k : CoreSt) (n : Nat) : CoreSt :=
  let gap := (k.tmcmp.toNat + 2 ^ 32 - (k.cycle + 1) % 2 ^ 32) % 2 ^ 32
  { k with cycle := k.cycle + n, tm := k.tm || decide (gap < n) }

def State.spend (s : State) (i : Fin 5) (n : Nat) : State := s.modCore i (fun k => k.spend n)

/-- Add to performance counter `p`: 0 WPFETCH, 1 MISPRED, 2 ICMISS, 3 STALL (13). -/
def CoreSt.count (k : CoreSt) (p : Fin 4) (n : Nat) : CoreSt := { k with perf := k.perf.set p (k.perf[p] + n) }

/-- A time of at least `n` cycles that the spec does not fix (R441, R444). -/
def State.spendOpen (s : State) (i : Fin 5) (n : Nat) : State :=
  let d := s.drawNat
  d.2.spend i (n + d.1)

/-! ### Direction prediction (R452 to R457) -/

/-- The predictor works with tags: Start-up, Test and Recovery. -/
def CoreSt.tagged (k : CoreSt) : Bool := k.svc != 1

/-- The counter of a branch at offset `o` (R452, R457). -/
def CoreSt.predIx (k : CoreSt) (o : Word) : Nat :=
  let b := o.toNat / 4 % 1024
  if k.tagged then b ^^^ (k.scrambles.getD k.ctx 0) % 1024 else b

def CoreSt.predGet (k : CoreSt) (o : Word) : Nat × Nat := SMap.get (fun _ => (1, k.predTag)) k.pred (k.predIx o)

/-- A branch reaches W (R453, R456). -/
def CoreSt.predUpdate (k : CoreSt) (o : Word) (taken : Bool) : CoreSt :=
  let put (v : Nat × Nat) : CoreSt := { k with pred := SMap.set (fun _ => (1, k.predTag)) k.pred (k.predIx o) v }
  let e := k.predGet o
  if k.tagged && !k.drawn then k
  else if k.tagged && e.2 != k.ctx then put (if taken then 2 else 1, k.ctx)
  else put (if taken then min 3 (e.1 + 1) else e.1 - 1, e.2)

/-- Branches whose W comes before the D stage of an instruction with X in cycle `x` have updated the predictor
(R438, R453). -/
def CoreSt.predSettle (k : CoreSt) (x : Nat) : CoreSt :=
  let done := k.upd.filter (fun (u : Nat × Word × Bool) => decide (u.1 + 4 < x))
  done.foldl (fun (k : CoreSt) (u : Nat × Word × Bool) => k.predUpdate u.2.1 u.2.2)
    { k with upd := k.upd.filter (fun (u : Nat × Word × Bool) => !decide (u.1 + 4 < x)) }

/-- Every branch so far has updated the predictor. -/
def CoreSt.predAll (k : CoreSt) : CoreSt :=
  k.upd.foldl (fun (k : CoreSt) (u : Nat × Word × Bool) => k.predUpdate u.2.1 u.2.2) { k with upd := [] }

/-- The direction predicted for a branch at offset `o`. -/
def CoreSt.predicted (k : CoreSt) (o : Word) : Bool :=
  let e := k.predGet o
  decide (2 ≤ e.1) && (!k.tagged || (k.drawn && e.2 == k.ctx))

/-- Every counter becomes 1 and every tag CTXID (R452, R456). -/
def CoreSt.predFlush (k : CoreSt) : CoreSt := { k with pred := [], predTag := k.ctx, upd := [] }

/-- The flushes that only Normal makes (R455). -/
def CoreSt.predFlushNormal (k : CoreSt) : CoreSt := if k.svc = 1 then k.predFlush else k

/-! ### Long operations in flight (R411, R443) -/

/-- The long operation in flight writes its result. -/
def CoreSt.longWrite (k : CoreSt) : CoreSt :=
  match k.long with
  | none => k
  | some l =>
    { k with long := none, regs := if l.rd = 0 then k.regs else k.regs.set l.rd l.result,
             fflags := k.fflags ||| l.flags }

/-! ### Lockup (R493) -/

/-- The number of a control pair's core. -/
def pairIx (i : Fin 5) : Fin 2 := if i = 0 then 0 else 1

/-- The core belongs to a pair that is locked up. -/
def State.lockedUp (s : State) (i : Fin 5) : Bool := decide (i.val < 2) && s.locked[pairIx i]

/-- The pair locks up: 1 by a double fault, 2 by a lockstep mismatch. -/
def State.lockup (s : State) (n : Fin 2) (why : Nat) : State :=
  let i : Fin 5 := if n = 0 then 0 else 1
  if s.locked[n] then s
  else
    let s := s.modCore i (fun k => { k with long := none, slot := none, flip := false })
    ({ s with locked := s.locked.set n true } : State).set (CPM_PAIR_RST.WHY n) why

/-- The long operation in flight, whose result is due by the core's present cycle, completes; an injected
mismatch shows in that write (R495, R496). -/
def State.longDone (s : State) (i : Fin 5) : State :=
  let k := s.core[i]
  match k.long with
  | none => s
  | some l =>
    if k.cycle < l.due then s
    else if k.flip && l.rd != 0 then s.lockup (pairIx i) 2
    else s.modCore i CoreSt.longWrite

/-! ### Interrupt sources (R474, R475) -/

/-- The core event bits of a core. -/
def State.coreBits (s : State) (i : Fin 5) : Nat :=
  if i = 4 then s.get EVF_AO_PEND.PEND else s.get (EVF_CORE_PEND.PEND i)

/-- The source of entry 16 + `j` holds its condition. -/
def State.source (s : State) (i : Fin 5) (j : Nat) : Bool :=
  if j < 8 then (s.coreBits i).testBit j
  else if j = 8 then (s.core[i]).tm
  else if i = 2 ∨ i = 3 then
    (match j with
     | 9 => s.uartLine 2
     | 10 => s.uartLine 3
     | 11 => Config.grnLine s.grnState
     | 12 => !s.waiting.isEmpty
     | 13 => s.on CPM_ECC_STAT.UE || s.on MEMC_ECC_STAT.UE
     | 14 => s.locked[0] || s.locked[1]
     | _ => false)
  else if i = 4 then
    (match j with
     | 9 => (s.on RTC_STAT.ALM && s.on RTC_ALM_CTRL.EN) || (s.on RTC_STAT.PWK && s.on RTC_PWAKE.EN)
     | 10 => !s.tch.reports.isEmpty
     | 11 => s.on LGR_TAMP_STAT.SEEN || s.lgr.queue.any (fun e => e.type == 0x23)
     | 12 => s.on HRV_STAT.BOWARN
     | 13 => s.uartLine 0
     | 14 => s.uartLine 1
     | 15 => s.lgr.queue.isEmpty && s.lgr.seals.isEmpty && s.lgr.hourDue.isNone
     | _ => false)
  else false

/-- `IPEND.SRC`. -/
def State.sources (s : State) (i : Fin 5) : Nat :=
  (List.range 16).foldl (fun m j => if s.source i j then m + 2 ^ j else m) 0

/-! ### Descriptors (R478, R481) -/

/-- A descriptor that has passed its check. -/
structure Desc where
  offs : Word
  level : Fin 4
  code : Cap
  stack : Option Cap
  mask : Nat
  auth : List (Option Cap)
  deriving DecidableEq, Repr

def HdtCopy.byteAt (h : HdtCopy) (e j : Nat) : Nat := (h.bytes.getD (32 * e + j) 0).toNat

/-- Level `l` lies above the level `cur`; 4 is the base. -/
def above (l cur : Nat) : Bool := cur == 4 || decide (cur < l)

/-- A vault slot by its byte. -/
def HdtCopy.slot (h : HdtCopy) (b : Nat) : Cap := if b < 32 then h.vault.getD b Cap.null else Cap.null

/-- An AUTH byte: none keeps the interrupted value (R478). -/
def HdtCopy.authOf (h : HdtCopy) (b : Nat) : Option Cap :=
  if b = 0xFE then none else if b = 0xFF then some Cap.null else some (h.slot b)

/-- Descriptor `e`, when the check of R481 passes; `over` asks for a LEVEL above the present one. -/
def CoreSt.descriptor (k : CoreSt) (e : Nat) (higher : Bool) : Option Desc :=
  match k.hdt with
  | none => none
  | some h =>
    let b := h.byteAt e
    let code := h.slot (b 5)
    let stack := h.slot (b 6)
    let zero := (List.range 18).all (fun j => b (14 + j) == 0) && b 4 / 4 % 32 == 0 && b 7 / 16 == 0
    let codeOk := decide (b 5 < 32) && code.tag && code.sl == 0 && code.holds pRUN
    let stackOk := b 6 == 0xFE || (decide (b 6 < 32) && stack.tag && stack.sl == 0 && stack.holds (pRD ||| pWR))
    let authOk := (List.range 6).all (fun j =>
      let a := b (8 + j)
      a == 0xFE || a == 0xFF || (decide (a < 32) && (h.slot a).tag))
    let level : Fin 4 := Fin.ofNat 4 (b 4)
    if b 4 / 128 = 1 && zero && codeOk && stackOk && authOk && (!higher || above level k.cur) then
      some { offs := BitVec.ofNat 32 (ofLeBytes ((List.range 4).map (fun j => BitVec.ofNat 8 (b j)))), level := level,
             code := code, stack := if b 6 = 0xFE then none else some stack, mask := b 7 % 16,
             auth := (List.range 6).map (fun j => h.authOf (b (8 + j))) }
    else none

/-- The authority set of a descriptor (R482). -/
def Desc.install (d : Desc) (caps : Vector Cap 8) : Vector Cap 8 :=
  Vector.ofFn (fun (n : Fin 8) =>
    if n = 0 then d.code
    else if n = 1 then d.stack.getD caps[n]
    else (match d.auth.getD (n - 2) none with
      | some c => c
      | none => caps[n]))

/-- The request that is taken next (R475): entry and level. -/
def State.request (s : State) (i : Fin 5) : Option (Nat × Nat) :=
  let k := s.core[i]
  if k.df then none
  else match k.hdt with
    | none => none
    | some h =>
      let up (j : Nat) : Bool :=
        let b := h.byteAt (16 + j) 4
        s.source i j && k.ien.testBit j && decide (b / 128 = 1) && above (b % 4) k.cur && !k.mask.testBit (b % 4)
      (List.range 16).foldl (fun (best : Option (Nat × Nat)) j =>
        if up j then
          let l := h.byteAt (16 + j) 4 % 4
          (match best with
           | some x => if x.2 < l then some (16 + j, l) else some x
           | none => some (16 + j, l))
        else best) none

/-! ### Fetch checks (R418) -/

/-- A fetch address that is served from a memory with fixed timing. -/
def nearCode (i : Fin 5) (a : Nat) : Bool :=
  if i = 0 then decide (0x28000000 ≤ a ∧ a < 0x28040000)
  else if i = 1 then decide (0x28100000 ≤ a ∧ a < 0x28140000)
  else if i = 4 then decide (0x41000000 ≤ a ∧ a < 0x41050000)
  else false

/-- Line size of the core's instruction cache. -/
def lineSize (i : Fin 5) : Nat := if i.val < 2 then 32 else 64

/-- The line of address `a` is in the core's line buffer or cache, so that a fetch reads no memory (R444 to R446). -/
def State.lineHeld (s : State) (i : Fin 5) (a : Nat) : Bool :=
  let k := s.core[i]
  let line := a / lineSize i
  !nearCode i a && decide (i.val < 4) && (k.line == some line || k.ways.any (fun (e : Nat × Nat) => e.2 == line))

/-- The check of a fetch at the program counter, through `c0`; a memory error comes only where memory is read (R333). -/
def State.fetchTrouble (s : State) (i : Fin 5) : Option Trouble :=
  match s.access i 0 pRUN (s.core[i]).pc.toNat 4 false with
  | .ok _ => none
  | .error t => if t.desc = 6 ∧ s.lineHeld i t.addr then none else some { t with fetch := true }

/-! ### Save registers (R483) -/

/-- `SSTAT` (14). -/
def sstatOf (k : CoreSt) (code cause capn : Nat) (fetch : Bool) : Word :=
  BitVec.ofNat 32 (cause * 2 ^ 24 + capn * 2 ^ 21 + (if fetch then 2 ^ 20 else 0) +
    (if (k.caps[0]).tag then 2 ^ 19 else 0) + k.cur * 2 ^ 16 + k.mask * 2 ^ 12 + code)

/-- A transfer whose slot has not completed is undone: the boundary moves before it (R429, R462), and a branch among them
leaves its counter unchanged (R453). -/
def CoreSt.undoTransfer (k : CoreSt) : CoreSt :=
  match k.slot with
  | none => k
  | some t =>
    let j : Fin 6 := if k.df then 5 else if h : k.cur < 5 then ⟨k.cur, by omega⟩ else 4
    { k with slot := none, pc := t.offs, upd := if t.cond.isSome then k.upd.dropLast else k.upd, regs := (match t.oldLink with
               | some w => k.regs.set 28 w
               | none => k.regs),
             caps := k.caps.set 6 t.oldCap,
             shadow := k.shadow.set j t.oldStack }

/-! ### Entry and escalation (R464, R490 to R492) -/

/-- The core enters a handler whose descriptor has passed its check (R482, R483, R487). -/
def CoreSt.enter (k : CoreSt) (d : Desc) (sv : SaveSt) : CoreSt :=
  let l : Fin 4 := d.level
  { k with save := k.save.set l sv, bank := k.bank.set l (Vector.ofFn (fun (n : Fin 7) => k.caps[(n : Nat) + 1])),
           caps := d.install k.caps, cur := l, mask := k.mask ||| d.mask, pc := d.offs,
           shadow := k.shadow.set l.val [] }

/-- What entry costs: cycles, and squashed words (R458, R464). -/
def CoreSt.entered (k : CoreSt) (cost : Nat) : CoreSt :=
  { (k.predFlushNormal.count 0 (cost - 11)).spend cost with load := [], waiting := false }

/-- A service-class core resets its domain (R492). -/
def State.thirdFault (s : State) (i : Fin 5) : State :=
  if i = 4 then (s.raise APM_RSTCAUSE.AODF).aoRestart
  else ((s.raise APM_RSTCAUSE.MGTDF).set APM_RSTCAUSE.CORE i).fastReset

/-- On a double fault what was to be saved passes to `DFPC`, `DFSTAT` and `DFADDR` (R483). -/
def CoreSt.doubled (k : CoreSt) (sv : SaveSt) : CoreSt := { k with dfpc := sv.spc, dfstat := sv.sstat, dfaddr := sv.faddr }

/-- A double fault (R491, R493). -/
def State.doubleFault (s : State) (i : Fin 5) (sv : SaveSt) (cost : Nat) : State :=
  if i.val < 2 then (s.modCore i (fun k => k.doubled sv)).lockup (pairIx i) 1
  else
    let k := s.core[i]
    match k.descriptor 0 false with
    | none => s.thirdFault i
    | some d =>
      let t := s.modCore i (fun k =>
        { k.doubled sv with df := true, caps := d.install k.caps, pc := d.offs, shadow := k.shadow.set 5 [] })
      match t.fetchTrouble i with
      | some _ => t.thirdFault i
      | none => t.modCore i (fun k => k.entered cost)

/-- Entry to the handler of descriptor `e` (R464, R481); an injected mismatch shows in its writes (R496). -/
def State.enter (s : State) (i : Fin 5) (e : Nat) (fault : Bool) (sv : SaveSt) (cost : Nat) : State :=
  let k := s.core[i]
  if k.flip then s.lockup (pairIx i) 2
  else match k.descriptor e fault with
    | none => s.doubleFault i sv cost
    | some d =>
      let t := s.modCore i (fun k => k.enter d sv)
      match t.fetchTrouble i with
      | some _ => s.doubleFault i sv cost
      | none => t.modCore i (fun k => k.entered cost)

/-- A fault is taken in W (R465, R488, R489); a memory error is recorded (R333, R335). -/
def State.takeFault (s : State) (i : Fin 5) (t : Trouble) : State :=
  let s := s.eccReads t.addr t.size
  let k := s.core[i]
  let s := match k.long with
    | some l => (s.spend i (max l.due (k.cycle + 2) - (k.cycle + 2))).modCore i (fun k => { k with
        long := some { l with due := 0 } })
    | none => s
  let s := s.longDone i
  if s.lockedUp i then s
  else
    let s := s.modCore i CoreSt.undoTransfer
    let k := s.core[i]
    if k.df then s.thirdFault i
    else
      let sv : SaveSt :=
        { spc := k.pc, sstat := sstatOf k t.desc t.cause t.capn t.fetch, scap := k.caps[0],
          replay0 := 0, replay1 := 0, faddr := BitVec.ofNat 40 t.addr }
      s.enter i t.desc true sv 17

/-- An interrupt request is sampled and entered (R461 to R464). -/
def State.takeInterrupt (s : State) (i : Fin 5) (e : Nat) : State :=
  let k := s.core[i]
  let s := match k.long with
    | some l => if l.due ≤ k.cycle + 1 then
        (s.modCore i (fun k => { k with long := some { l with due := 0 } })).longDone i else s
    | none => s
  if s.lockedUp i then s
  else
    let s := s.modCore i CoreSt.undoTransfer
    let k := s.core[i]
    let rp : Word × Word := match k.long with
      | some l => (l.word, (l.offs &&& 0xFFFFFFFC#32) ||| 1#32)
      | none => (0, 0)
    let s := s.modCore i (fun k => { k with long := none })
    let sv : SaveSt :=
      { spc := k.pc, sstat := sstatOf k e 0 0 false, scap := k.caps[0], replay0 := rp.1, replay1 := rp.2, faddr := 0 }
    s.enter i e false sv 16

end Sys2Proof.Machine
end

