-- ==== Sys2Proof/Machine/Pipeline.lean ====
section
/-!
DEFINITION. Machine/Pipeline.lean: the course of one instruction of a core: fetch, issue, execution or fault,
retirement, and the delay slot of a transfer (12, 13).
-/
namespace Sys2Proof.Machine

/-! ### Whether a core runs -/

/-- A core event bit is set, or a request is pending (R435, R466). -/
def State.wakes (s : State) (i : Fin 5) : Bool := decide (s.coreBits i ≠ 0) || (s.request i).isSome

/-- The core has its clock, is out of reset, and is not locked up (R494, R502, R620, 15). -/
def State.coreUp (s : State) (i : Fin 5) : Bool :=
  if i.val < 2 then s.fastUp && !s.on (CPM_PAIR_RST.HOLD i) && !s.lockedUp i
  else if i.val < 4 then s.fastUp && !(s.core[i]).held
  else decide (s.ao.phase = .on) && s.on APM_CLKSTAT.BRCRUN && !s.on HRV_STAT.SEALING && decide (s.mode ≠ mCellar)

/-- The core executes its next instruction. -/
def State.coreRuns (s : State) (i : Fin 5) : Bool := s.coreUp i && (!(s.core[i]).waiting || s.wakes i)

/-! ### Fetch (R444 to R446) -/

/-- The way into which a miss allocates (R445, R446): a way that holds no line of the set comes first. -/
def CoreSt.victim (k : CoreSt) (i : Fin 5) (set : Nat) : Option Nat :=
  let open_ (w : Nat) : Bool := decide (2 ≤ i.val) || !(k.icctl / 16).testBit w
  if i.val < 2 ∧ k.icctl.testBit 2 then some (k.icctl % 4)
  else
    let used := (k.ways.filter (fun (e : Nat × Nat) => e.2 % 128 == set)).map (fun (e : Nat × Nat) => e.1)
    match (List.range 4).find? (fun w => open_ w && !used.contains w) with
    | some w => some w
    | none => (used.filter open_).getLast?

/-- A line enters the line buffer, and a way unless the locks forbid it. -/
def CoreSt.allocate (k : CoreSt) (i : Fin 5) (line : Nat) : CoreSt :=
  match k.victim i (line % 128) with
  | none => { k with line := some line }
  | some w =>
    { k with line := some line,
             ways := (w, line) :: k.ways.filter (fun (e : Nat × Nat) => !(e.1 == w && e.2 % 128 == line % 128)) }

/-- The word at the program counter is fetched: whether it missed, and the state, in which a single error in what was read
is corrected (R333). -/
def State.fetch (s : State) (i : Fin 5) : Bool × State :=
  let k := s.core[i]
  let a := (k.caps[0]).base + k.pc.toNat
  if nearCode i a then (false, s.eccReads a 4)
  else if i = 4 then (false, s.spendOpen i 0)
  else
    let line := a / lineSize i
    if k.line = some line then (false, s)
    else match k.ways.find? (fun (e : Nat × Nat) => e.2 == line) with
      | some e => (false, s.modCore i (fun k => { k with line := some line, ways := e :: k.ways.erase e }))
      | none => (true, ((s.eccReads (line * lineSize i) (lineSize i)).spendOpen i 1).modCore i (fun k => k.allocate i line))

/-! ### Issue (R411, R440) -/

/-- What an instruction reads and writes: general registers 0 to 31, capability registers 32 to 39; what it
gives at the end of M only; whether it is a long operation, writes a system register, may stand in a delay
slot; and what it adds to `RETIRED`. -/
structure Op where
  reads : List Nat
  writes : List Nat
  late : List Nat := []
  long : Bool := false
  sys : Bool := false
  slotOk : Bool := true
  count : Nat := 1
  deriving DecidableEq, Repr

/-- An instruction of this shape changes a register that the checker of a pair compares (R495). -/
def Op.changes (op : Op) : Bool := op.sys || (!op.long && op.writes.any (fun r => r != 0))

/-- The instruction waits for the long operation in flight (R411). -/
def Op.waitsFor (op : Op) (l : LongOp) : Bool :=
  op.long || (l.rd != 0 && (op.reads ++ op.writes).contains l.rd.val) ||
    l.srcs.any (fun r => r != 0 && op.writes.contains r.val)

/-- Issue: stalls in I, then the X stage, whose cycle becomes the core's present one. -/
def State.issue (s : State) (i : Fin 5) (op : Op) : State :=
  let k := s.core[i]
  let a : Nat := if k.load.any (fun r => r != 0 && op.reads.contains r) then 1 else 0
  let b : Nat := match k.long with
    | some l => if op.waitsFor l then l.due - k.cycle else 0
    | none => 0
  let n := max a b
  let s := s.modCore i (fun k => { ((k.spend n).count 3 n) with load := op.late })
  (s.longDone i).spend i 1

/-! ### Retirement -/

/-- The slot of a transfer has completed: the transfer and its slot retire (R427, R429, R450, R453). -/
def CoreSt.leaveSlot (k : CoreSt) (t : Transfer) : CoreSt :=
  let wrong := t.cond.isSome && t.cost == 4
  let k := ((k.count 0 t.cost).count 1 (if wrong then 1 else 0)).count 2 (if t.missed then 1 else 0)
  let k := { k.spend t.cost with
             slot := none, retired := k.retired + 1, pc := if t.taken then t.target else t.offs + 8 }
  match t.code with
  | none => k
  | some c =>
    let k' := { k with caps := k.caps.set 0 c }
    if c.holds pPRIV = (k.caps[0]).holds pPRIV then k' else k'.predFlushNormal

/-- The instruction retires, or waits as a transfer for its slot. -/
def CoreSt.retire (k : CoreSt) (n : Nat) (missed : Bool) : CoreSt :=
  match k.slot with
  | some t =>
    if k.pc = t.offs then { k with pc := t.offs + 4, slot := some { t with missed := missed } }
    else
      let k := { k with retired := k.retired + n }
      (k.count 2 (if missed then 1 else 0)).leaveSlot t
  | none => { k.count 2 (if missed then 1 else 0) with retired := k.retired + n, pc := k.pc + 4 }

def State.retire (s : State) (i : Fin 5) (n : Nat) (missed : Bool) : State := s.modCore i (fun k => k.retire n missed)

/-- What the execution of an instruction answers: the state, and its fault. -/
abbrev Body := State → State × Option Trouble

/-- A body that leaves the state alone when it faults. -/
def Body.of (f : State → Except Trouble State) : Body := fun s =>
  match f s with
  | .ok t => (t, none)
  | .error x => (s, some x)

/-- The pair's checker finds the injected mismatch: no register of the pair is written (R495, R496). -/
def State.mismatch (s t : State) (i : Fin 5) : State :=
  ({ t with core := t.core.set i s.core[i] } : State).lockup (pairIx i) 2

/-- One instruction of core `c` at its program counter (R438, R439): fetch check, illegal use in a delay slot,
issue, execution, then retirement or the fault. An instruction that resets its own core does not retire. -/
def State.run (s : State) (c : CoreId) (op : Op) (body : Body) : State :=
  let i := coreIx c
  if !s.coreRuns i then s
  else
    let s := s.modCore i (fun k => { k with waiting := false })
    match s.fetchTrouble i with
    | some x => (s.spend i 1).takeFault i x
    | none =>
      let f := s.fetch i
      let s := f.2
      if (s.core[i]).slot.isSome && !op.slotOk then (s.spend i 1).takeFault i illegal
      else
        let s := s.issue i op
        if s.lockedUp i then s
        else
          let r := body s
          match r.2 with
          | some x => r.1.takeFault i x
          | none =>
            if (r.1.core[i]).cycle < (s.core[i]).cycle then r.1
            else if (s.core[i]).flip && op.changes then s.mismatch r.1 i
            else r.1.retire i op.count f.1

/-- An instruction whose body computes register results only. -/
def State.runOk (s : State) (c : CoreId) (op : Op) (f : State → State) : State :=
  s.run c op (fun s => (f s, none))

/-! ### Transfers of control (R424 to R429, R448 to R451) -/

/-- The shadow stack of the present flow (R485, R491). -/
def CoreSt.stackIx (k : CoreSt) : Fin 6 := if k.df then 5 else if h : k.cur < 5 then ⟨k.cur, by omega⟩ else 4

def CoreSt.stack (k : CoreSt) : List ShadowEntry := k.shadow[k.stackIx]

/-- Entries that a shadow stack holds (R485, R491). -/
def CoreSt.stackMax (k : CoreSt) : Nat := if k.df then 32 else 256

/-- The checks of a taken transfer to `target` under the code capability `code`, which register `n` holds
(R429). -/
def targetTrouble (code : Cap) (n : Nat) (target : Word) : Option Trouble :=
  let a := code.base + target.toNat
  if target.toNat % 4 ≠ 0 then some { desc := 4, cause := 0, capn := n, fetch := false, addr := 0 }
  else if !code.tag then some (capTrouble 0 n)
  else if code.sl ≠ 0 then some (capTrouble 1 n)
  else if !code.holds pRUN then some (capTrouble 2 n)
  else if code.limit < a + 3 ∨ 2 ^ 40 ≤ a + 3 then some (capTrouble 3 n)
  else none

/-- The effect of a transfer beside the program counter: link, `c6`, shadow stack. -/
structure Link where
  g28 : Option Word := none
  c6 : Option Cap := none
  stack : Option (List ShadowEntry) := none
  deriving DecidableEq, Repr

/-- The transfer waits for its slot. -/
def State.transferTo (s : State) (i : Fin 5) (target : Word) (taken : Bool) (code : Option Cap) (cost : Nat)
    (cond : Option Bool) (l : Link) : State :=
  s.modCore i (fun k =>
    let t : Transfer := { offs := k.pc, target := target, taken := taken, code := code, cost := cost, cond := cond,
                          oldLink := l.g28.map (fun _ => k.regs[28]), oldCap := k.caps[6], oldStack := k.stack, missed := false }
    { k with slot := some t, regs := (match l.g28 with
               | some w => k.regs.set 28 w
               | none => k.regs),
             caps := (match l.c6 with
               | some c => k.caps.set 6 c
               | none => k.caps),
             shadow := (match l.stack with
               | some x => k.shadow.set k.stackIx x
               | none => k.shadow) })

/-- An unconditional transfer: the checks of its target, its control-flow check, its effect. -/
def State.transferVia (s : State) (i : Fin 5) (target : Word) (code : Option (Nat × Cap)) (cost : Nat)
    (flow : Except Trouble Link) : State × Option Trouble :=
  let c : Nat × Cap := match code with
    | some x => x
    | none => (0, s.cap i 0)
  match targetTrouble c.2 c.1 target with
  | some x => (s, some x)
  | none =>
    match flow with
    | .error x => (s, some x)
    | .ok l => (s.transferTo i target true (code.map (fun x => x.2)) cost none l, none)

/-- A conditional branch (R424, R425, R449): a branch that is not taken and annuls its slot retires alone. -/
def State.branchTo (s : State) (i : Fin 5) (an : Bool) (disp : BitVec 14) (taken : Bool) : State × Option Trouble :=
  let s := s.modCore i (fun k => k.predSettle k.cycle)
  let k := s.core[i]
  let target := k.pc + (disp.signExtend 32) * 4
  let guess := k.predicted k.pc
  let cost : Nat := if guess = taken then (if taken then 1 else 0) else 4
  match (if taken then targetTrouble (s.cap i 0) 0 target else none) with
  | some x => (s, some x)
  | none =>
    let s := s.modCore i (fun k => { k with upd := k.upd ++ [(k.cycle, k.pc, taken)] })
    if !taken && an then
      (s.modCore i (fun k =>
        { ((k.count 0 cost).count 1 (if cost = 4 then 1 else 0)).spend cost with pc := k.pc + 4 }), none)
    else (s.transferTo i target taken none cost (some taken) {}, none)

/-! ### Data accesses (R441) -/

/-- Cycles beyond 1 that a read of address `a` holds M. -/
def State.readTime (s : State) (i : Fin 5) (a : Nat) : State :=
  if i = 4 then (if 0x41000000 ≤ a ∧ a < 0x41050000 then s else s.spendOpen i 2)
  else if i = 0 ∧ 0x28040000 ≤ a ∧ a < 0x28080000 then s
  else if i = 1 ∧ 0x28140000 ≤ a ∧ a < 0x28180000 then s
  else if 0x30000000 ≤ a ∧ a < 0x30C00000 ∧ ¬(0x30800000 ≤ a ∧ a < 0x30A00000) then s.spend i 5
  else if 2 ≤ i.val ∧ (0x20000000 ≤ a ∧ a < 0x20400000 ∨ 0x1000000000 ≤ a) then s.spendOpen i 0
  else s.spendOpen i 2

/-- The offset of an access of format L-M (R416). -/
def State.offsetLM (s : State) (i : Fin 5) (rb : Reg) (imm : BitVec 12) : Nat :=
  (s.gr i rb + imm.signExtend 32).toNat

/-- A load of `sz` bytes. -/
def State.loadAt (s : State) (i : Fin 5) (n : CapIx) (offs sz : Nat) : Except Trouble (Nat × State) :=
  match s.access i n pRD offs sz false with
  | .error x => .error x
  | .ok a =>
    let r := s.coreRead i a sz
    .ok (r.1, r.2.readTime i a)

/-- A store of `sz` bytes. -/
def State.storeAt (s : State) (i : Fin 5) (n : CapIx) (offs sz v : Nat) : Except Trouble State :=
  match s.access i n pWR offs sz true with
  | .error x => .error x
  | .ok a => .ok (s.coreWrite i a sz v)

end Sys2Proof.Machine
end

