-- ==== Sys2Proof/Machine/CoreAlu.lean ====
section
/-!
DEFINITION. Machine/CoreAlu.lean: the integer instructions of the cores, the pair of short operations, and the
long operations (R404 to R415).
-/
namespace Sys2Proof.Machine

/-! ### Shapes -/

/-- An instruction with two general sources and a general destination; `late` says that its result comes at the
end of M (R440). -/
def State.alu3 (s : State) (c : CoreId) (rd rs1 rs2 : Reg) (late : Bool) (f : Word → Word → Word) : State :=
  let i := coreIx c
  s.runOk c { reads := [rs1.val, rs2.val], writes := [rd.val], late := if late then [rd.val] else [] }
    (fun s => s.setGr i rd (f (s.gr i rs1) (s.gr i rs2)))

/-- An instruction with one general source and a general destination. -/
def State.alu2 (s : State) (c : CoreId) (rd rs1 : Reg) (f : Word → Word) : State :=
  let i := coreIx c
  s.runOk c { reads := [rs1.val], writes := [rd.val] } (fun s => s.setGr i rd (f (s.gr i rs1)))

/-- The general registers that the fields of a long operation's word name: RS1, RS2, and for the fused operations
RS3. -/
def longRegs (w : Word) : Reg × Reg × Reg :=
  (Fin.ofNat 32 (fieldOf w 19 15), Fin.ofNat 32 (fieldOf w 14 10), Fin.ofNat 32 (fieldOf w 4 0))

/-- The source registers of a long operation by its word. -/
def longSources (w : Word) : List Reg :=
  let r := longRegs w
  if fieldOf w 30 25 = 0x15 ∧ 0x20 ≤ fieldOf w 9 0 then [r.1, r.2.1, r.2.2] else [r.1, r.2.1]

/-- The long operation of a word enters the unit with X in cycle `x` (R443). -/
def State.longStart (s : State) (i : Fin 5) (w offs : Word) (x : Nat) : State :=
  let r := longRegs w
  match longOf (fieldOf w 30 25) (fieldOf w 9 0) (s.gr i r.1) (s.gr i r.2.1) (s.gr i r.2.2) with
  | none => s
  | some l =>
    let rd : Reg := Fin.ofNat 32 (fieldOf w 24 20)
    s.modCore i (fun k =>
      { k with
        long := some { word := w, offs := offs, rd := rd, srcs := longSources w,
                              result := l.r.w, flags := l.r.fl, due := x + l.lat - 1 } })

/-- A long operation; the AOC has no floating-point unit (R415). -/
def State.longInstr (s : State) (c : CoreId) (w : Word) : State :=
  let i := coreIx c
  s.run c { reads := (longSources w).map (fun r => r.val), writes := [fieldOf w 24 20], long := true }
    (Body.of (fun s =>
      if fieldOf w 30 25 = 0x15 ∧ i = 4 then .error illegal
      else .ok (s.longStart i w (s.core[i]).pc (s.core[i]).cycle)))

/-! ### The pair (R405 to R407) -/

/-- A slot's effect: the registers it writes, from the state before the pair. -/
def State.shortOp (s : State) (i : Fin 5) (x : Short) : Except Trouble (Option Word × State) :=
  let d := s.gr i (Fin.ofNat 32 x.rd)
  if x.sop = 0 then .ok (none, s)
  else if x.sop = 0x16 then
    (match s.loadAt i 1 (4 * x.rs) 4 with
     | .error t => .error t
     | .ok r => .ok (some (BitVec.ofNat 32 r.1), r.2))
  else if x.sop = 0x17 then
    (match s.storeAt i 1 (4 * x.rs) 4 d.toNat with
     | .error t => .error t
     | .ok t => .ok (none, t))
  else .ok (some (x.value d (s.gr i (Fin.ofNat 32 x.rs))), s)

/-- Both slots of a pair; both have read their sources before either writes, and at most one accesses memory. -/
def State.pairOp (s : State) (i : Fin 5) (a b : Short) : Except Trouble State :=
  match s.shortOp i a with
  | .error t => .error t
  | .ok ra =>
    match ra.2.shortOp i b with
    | .error t => .error t
    | .ok rb =>
      let put (s : State) (x : Short) (w : Option Word) : State := match w with
        | some v => s.setGr i (Fin.ofNat 32 x.rd) v
        | none => s
      .ok (put (put rb.2 a ra.1) b rb.1)

/-- A pair of short operations (R403, R405 to R407). -/
def State.pairInstr (s : State) (c : CoreId) (a b : Short) (low : Bool) : State :=
  let i := coreIx c
  let cap : List Nat := if a.isMem || b.isMem then [33] else []
  let late (x : Short) : List Nat := if x.sop = 0x16 ∨ x.sop = 0xA then [x.rd] else []
  s.run c { reads := a.reads ++ b.reads ++ cap, writes := a.writes ++ b.writes, late := late a ++ late b, count := 2 }
    (Body.of (fun s =>
      if low || !a.legal || !b.legal then .error illegal
      else if dependent a b then .error illegalPair
      else s.pairOp i a b))

/-- `PAIRED_WORD` (R407). -/
def execPairedWord (c : CoreId) (slotA slotB : BitVec 15) (low : Bool) (s : State) : Result :=
  .next (s.pairInstr c (shortOf slotA) (shortOf slotB) low)

/-! ### Opcode 0x00 (R409) -/

/-- `ADD` (R409). -/
def execAdd (c : CoreId) (rd rs1 rs2 : Reg) (s : State) : Result :=
  .next (s.alu3 c rd rs1 rs2 false (fun a b => a + b))

/-- `SUB` (R409). -/
def execSub (c : CoreId) (rd rs1 rs2 : Reg) (s : State) : Result :=
  .next (s.alu3 c rd rs1 rs2 false (fun a b => a - b))

/-- `AND` (R409). -/
def execAnd (c : CoreId) (rd rs1 rs2 : Reg) (s : State) : Result :=
  .next (s.alu3 c rd rs1 rs2 false (fun a b => a &&& b))

/-- `OR` (R409). -/
def execOr (c : CoreId) (rd rs1 rs2 : Reg) (s : State) : Result :=
  .next (s.alu3 c rd rs1 rs2 false (fun a b => a ||| b))

/-- `XOR` (R409). -/
def execXor (c : CoreId) (rd rs1 rs2 : Reg) (s : State) : Result :=
  .next (s.alu3 c rd rs1 rs2 false (fun a b => a ^^^ b))

/-- `SLL` (R409). -/
def execSll (c : CoreId) (rd rs1 rs2 : Reg) (s : State) : Result :=
  .next (s.alu3 c rd rs1 rs2 false (fun a b => shl a b.toNat))

/-- `SRL` (R409). -/
def execSrl (c : CoreId) (rd rs1 rs2 : Reg) (s : State) : Result :=
  .next (s.alu3 c rd rs1 rs2 false (fun a b => shrl a b.toNat))

/-- `SRA` (R409). -/
def execSra (c : CoreId) (rd rs1 rs2 : Reg) (s : State) : Result :=
  .next (s.alu3 c rd rs1 rs2 false (fun a b => shra a b.toNat))

/-- `SLT` (R409). -/
def execSlt (c : CoreId) (rd rs1 rs2 : Reg) (s : State) : Result :=
  .next (s.alu3 c rd rs1 rs2 false (fun a b => wordOf (ltS a b)))

/-- `SLTU` (R409). -/
def execSltu (c : CoreId) (rd rs1 rs2 : Reg) (s : State) : Result :=
  .next (s.alu3 c rd rs1 rs2 false (fun a b => wordOf (ltU a b)))

/-- `MIN` (R409). -/
def execMin (c : CoreId) (rd rs1 rs2 : Reg) (s : State) : Result :=
  .next (s.alu3 c rd rs1 rs2 false (fun a b => minS a b))

/-- `MAX` (R409). -/
def execMax (c : CoreId) (rd rs1 rs2 : Reg) (s : State) : Result :=
  .next (s.alu3 c rd rs1 rs2 false (fun a b => maxS a b))

/-- `MINU` (R409). -/
def execMinu (c : CoreId) (rd rs1 rs2 : Reg) (s : State) : Result :=
  .next (s.alu3 c rd rs1 rs2 false (fun a b => minU a b))

/-- `MAXU` (R409). -/
def execMaxu (c : CoreId) (rd rs1 rs2 : Reg) (s : State) : Result :=
  .next (s.alu3 c rd rs1 rs2 false (fun a b => maxU a b))

/-- `SLLI` (R409). -/
def execSlli (c : CoreId) (rd rs1 : Reg) (sh : Fin 32) (s : State) : Result :=
  .next (s.alu2 c rd rs1 (fun a => shl a sh))

/-- `SRLI` (R409). -/
def execSrli (c : CoreId) (rd rs1 : Reg) (sh : Fin 32) (s : State) : Result :=
  .next (s.alu2 c rd rs1 (fun a => shrl a sh))

/-- `SRAI` (R409). -/
def execSrai (c : CoreId) (rd rs1 : Reg) (sh : Fin 32) (s : State) : Result :=
  .next (s.alu2 c rd rs1 (fun a => shra a sh))

/-- `ADDS` (R409). -/
def execAdds (c : CoreId) (rd rs1 rs2 : Reg) (s : State) : Result :=
  .next (s.alu3 c rd rs1 rs2 false (fun a b => satWord (a.toInt + b.toInt)))

/-- `SUBS` (R409). -/
def execSubs (c : CoreId) (rd rs1 rs2 : Reg) (s : State) : Result :=
  .next (s.alu3 c rd rs1 rs2 false (fun a b => satWord (a.toInt - b.toInt)))

/-- `CLZ` (R409). -/
def execClz (c : CoreId) (rd rs1 : Reg) (s : State) : Result :=
  .next (s.alu2 c rd rs1 (fun a => clz a))

/-- `SEXTB` (R409). -/
def execSextb (c : CoreId) (rd rs1 : Reg) (s : State) : Result :=
  .next (s.alu2 c rd rs1 (fun a => (a.setWidth 8).signExtend 32))

/-- `SEXTH` (R409). -/
def execSexth (c : CoreId) (rd rs1 : Reg) (s : State) : Result :=
  .next (s.alu2 c rd rs1 (fun a => (a.setWidth 16).signExtend 32))

/-- `ZEXTH` (R409). -/
def execZexth (c : CoreId) (rd rs1 : Reg) (s : State) : Result :=
  .next (s.alu2 c rd rs1 (fun a => a &&& 0xFFFF#32))

/-! ### Immediates (R408) -/

/-- `ADDI` (R408). -/
def execAddi (c : CoreId) (rd rs1 : Reg) (imm : BitVec 15) (s : State) : Result :=
  .next (s.alu2 c rd rs1 (fun a => a + imm.signExtend 32))

/-- `ANDI` (R408). -/
def execAndi (c : CoreId) (rd rs1 : Reg) (imm : BitVec 15) (s : State) : Result :=
  .next (s.alu2 c rd rs1 (fun a => a &&& imm.setWidth 32))

/-- `ORI` (R408). -/
def execOri (c : CoreId) (rd rs1 : Reg) (imm : BitVec 15) (s : State) : Result :=
  .next (s.alu2 c rd rs1 (fun a => a ||| imm.setWidth 32))

/-- `XORI` (R408). -/
def execXori (c : CoreId) (rd rs1 : Reg) (imm : BitVec 15) (s : State) : Result :=
  .next (s.alu2 c rd rs1 (fun a => a ^^^ imm.setWidth 32))

/-- `SLTI` (R408). -/
def execSlti (c : CoreId) (rd rs1 : Reg) (imm : BitVec 15) (s : State) : Result :=
  .next (s.alu2 c rd rs1 (fun a => wordOf (ltS a (imm.signExtend 32))))

/-- `SLTIU` (R408). -/
def execSltiu (c : CoreId) (rd rs1 : Reg) (imm : BitVec 15) (s : State) : Result :=
  .next (s.alu2 c rd rs1 (fun a => wordOf (ltU a (imm.signExtend 32))))

/-- `LUI` (R408). -/
def execLui (c : CoreId) (rd : Reg) (imm : BitVec 20) (s : State) : Result :=
  .next (s.runOk c { reads := [], writes := [rd.val] }
    (fun s => s.setGr (coreIx c) rd (BitVec.ofNat 32 (imm.toNat * 2 ^ 12))))

/-! ### Opcode 0x14 (R410) -/

/-- `MUL` (R410). -/
def execMul (c : CoreId) (rd rs1 rs2 : Reg) (s : State) : Result :=
  .next (s.alu3 c rd rs1 rs2 true (fun a b => a * b))

/-- `MULH` (R410). -/
def execMulh (c : CoreId) (rd rs1 rs2 : Reg) (s : State) : Result :=
  .next (s.alu3 c rd rs1 rs2 true (fun a b => mulhSS a b))

/-- `MULHU` (R410). -/
def execMulhu (c : CoreId) (rd rs1 rs2 : Reg) (s : State) : Result :=
  .next (s.alu3 c rd rs1 rs2 true (fun a b => mulhUU a b))

/-- `MULHSU` (R410). -/
def execMulhsu (c : CoreId) (rd rs1 rs2 : Reg) (s : State) : Result :=
  .next (s.alu3 c rd rs1 rs2 true (fun a b => mulhSU a b))

/-- `DIV` (R410). -/
def execDiv (c : CoreId) (rd rs1 rs2 : Reg) (s : State) : Result :=
  .next (s.longInstr c (wordLR 0x14 rd rs1 rs2 0x4))

/-- `DIVU` (R410). -/
def execDivu (c : CoreId) (rd rs1 rs2 : Reg) (s : State) : Result :=
  .next (s.longInstr c (wordLR 0x14 rd rs1 rs2 0x5))

/-- `REM` (R410). -/
def execRem (c : CoreId) (rd rs1 rs2 : Reg) (s : State) : Result :=
  .next (s.longInstr c (wordLR 0x14 rd rs1 rs2 0x6))

/-- `REMU` (R410). -/
def execRemu (c : CoreId) (rd rs1 rs2 : Reg) (s : State) : Result :=
  .next (s.longInstr c (wordLR 0x14 rd rs1 rs2 0x7))

/-- `SQRTU` (R410). -/
def execSqrtu (c : CoreId) (rd rs1 : Reg) (s : State) : Result :=
  .next (s.longInstr c (wordLR 0x14 rd rs1 0 0x8))

/-! ### Opcode 0x15 (R413, R414) -/

/-- `FADD` (R413). -/
def execFadd (c : CoreId) (rd rs1 rs2 : Reg) (s : State) : Result :=
  .next (s.longInstr c (wordLR 0x15 rd rs1 rs2 0x0))

/-- `FSUB` (R413). -/
def execFsub (c : CoreId) (rd rs1 rs2 : Reg) (s : State) : Result :=
  .next (s.longInstr c (wordLR 0x15 rd rs1 rs2 0x1))

/-- `FMUL` (R413). -/
def execFmul (c : CoreId) (rd rs1 rs2 : Reg) (s : State) : Result :=
  .next (s.longInstr c (wordLR 0x15 rd rs1 rs2 0x2))

/-- `FDIV` (R413). -/
def execFdiv (c : CoreId) (rd rs1 rs2 : Reg) (s : State) : Result :=
  .next (s.longInstr c (wordLR 0x15 rd rs1 rs2 0x3))

/-- `FSQRT` (R413). -/
def execFsqrt (c : CoreId) (rd rs1 : Reg) (s : State) : Result :=
  .next (s.longInstr c (wordLR 0x15 rd rs1 0 0x4))

/-- `FMIN` (R413). -/
def execFmin (c : CoreId) (rd rs1 rs2 : Reg) (s : State) : Result :=
  .next (s.longInstr c (wordLR 0x15 rd rs1 rs2 0x5))

/-- `FMAX` (R413). -/
def execFmax (c : CoreId) (rd rs1 rs2 : Reg) (s : State) : Result :=
  .next (s.longInstr c (wordLR 0x15 rd rs1 rs2 0x6))

/-- `FEQ` (R413). -/
def execFeq (c : CoreId) (rd rs1 rs2 : Reg) (s : State) : Result :=
  .next (s.longInstr c (wordLR 0x15 rd rs1 rs2 0x7))

/-- `FLT` (R413). -/
def execFlt (c : CoreId) (rd rs1 rs2 : Reg) (s : State) : Result :=
  .next (s.longInstr c (wordLR 0x15 rd rs1 rs2 0x8))

/-- `FLE` (R413). -/
def execFle (c : CoreId) (rd rs1 rs2 : Reg) (s : State) : Result :=
  .next (s.longInstr c (wordLR 0x15 rd rs1 rs2 0x9))

/-- `FCVTWS` (R413). -/
def execFcvtws (c : CoreId) (rd rs1 : Reg) (s : State) : Result :=
  .next (s.longInstr c (wordLR 0x15 rd rs1 0 0xa))

/-- `FCVTWUS` (R413). -/
def execFcvtwus (c : CoreId) (rd rs1 : Reg) (s : State) : Result :=
  .next (s.longInstr c (wordLR 0x15 rd rs1 0 0xc))

/-- `FCVTSW` (R413). -/
def execFcvtsw (c : CoreId) (rd rs1 : Reg) (s : State) : Result :=
  .next (s.longInstr c (wordLR 0x15 rd rs1 0 0xb))

/-- `FCVTSWU` (R413). -/
def execFcvtswu (c : CoreId) (rd rs1 : Reg) (s : State) : Result :=
  .next (s.longInstr c (wordLR 0x15 rd rs1 0 0xd))

/-- `FNEG` (R413). -/
def execFneg (c : CoreId) (rd rs1 : Reg) (s : State) : Result :=
  .next (s.longInstr c (wordLR 0x15 rd rs1 0 0xe))

/-- `FABS` (R413). -/
def execFabs (c : CoreId) (rd rs1 : Reg) (s : State) : Result :=
  .next (s.longInstr c (wordLR 0x15 rd rs1 0 0xf))

/-- `FMADD` (R413). -/
def execFmadd (c : CoreId) (rd rs1 rs2 rs3 : Reg) (s : State) : Result :=
  .next (s.longInstr c (wordLR 0x15 rd rs1 rs2 (0x20 + rs3)))

/-- `FMSUB` (R413). -/
def execFmsub (c : CoreId) (rd rs1 rs2 rs3 : Reg) (s : State) : Result :=
  .next (s.longInstr c (wordLR 0x15 rd rs1 rs2 (0x40 + rs3)))

/-- `FNMADD` (R413). -/
def execFnmadd (c : CoreId) (rd rs1 rs2 rs3 : Reg) (s : State) : Result :=
  .next (s.longInstr c (wordLR 0x15 rd rs1 rs2 (0x60 + rs3)))

end Sys2Proof.Machine
end

