-- ==== Sys2Proof/Machine/CoreBranch.lean ====
section
/-!
DEFINITION. Machine/CoreBranch.lean: branches, jumps, calls and returns of the cores (R424 to R429, R485 to R487).
-/
namespace Sys2Proof.Machine

/-! ### Shapes -/

/-- A conditional branch. -/
def State.branchInstr (s : State) (c : CoreId) (rs1 rs2 : Reg) (an : Bool) (disp : BitVec 14)
    (cond : Word → Word → Bool) : State :=
  let i := coreIx c
  s.run c { reads := [rs1.val, rs2.val], writes := [], slotOk := false }
    (fun s => s.branchTo i an disp (cond (s.gr i rs1) (s.gr i rs2)))

/-- A call pushes an entry, unless the shadow stack is full (R486). -/
def State.pushed (s : State) (i : Fin 5) (e : ShadowEntry) : Except Trouble (List ShadowEntry) :=
  let k := s.core[i]
  if k.stackMax ≤ k.stack.length then .error (flowTrouble 10) else .ok (e :: k.stack)

/-- The return offset of a call: that of the word after its slot (R426). -/
def State.linkOf (s : State) (i : Fin 5) : Word := (s.core[i]).pc + 8

/-- The link of a plain call (R426, R485). -/
def State.plainLink (s : State) (i : Fin 5) : Except Trouble Link :=
  match s.pushed i { offs := s.linkOf i, cap := none } with
  | .error t => .error t
  | .ok l => .ok { g28 := some (s.linkOf i), stack := some l }

/-- The link of a capability call (R426, R485). -/
def State.capLink (s : State) (i : Fin 5) : Except Trouble Link :=
  let k := s.cap i 0
  match s.pushed i { offs := s.linkOf i, cap := some (BitVec.ofNat 40 k.base, BitVec.ofNat 40 k.limit) } with
  | .error t => .error t
  | .ok l => .ok { g28 := some (s.linkOf i), c6 := some k, stack := some l }

/-- The check of a return against the shadow stack (R486): the kind of entry that must match, if it is of the
capability kind with its bounds. -/
def State.popped (s : State) (i : Fin 5) (bounds : Option (BitVec 40 × BitVec 40)) : Except Trouble Link :=
  match (s.core[i]).stack with
  | [] => .error (flowTrouble 9)
  | e :: l => if e.offs = s.gr i 28 ∧ e.cap = bounds then .ok { stack := some l } else .error (flowTrouble 8)

/-! ### Conditional branches (R408, R424, R425) -/

/-- `BEQ` (R424). -/
def execBeq (c : CoreId) (rs1 rs2 : Reg) (an : Bool) (disp : BitVec 14) (s : State) : Result :=
  .next (s.branchInstr c rs1 rs2 an disp (fun a b => decide (a = b)))

/-- `BNE` (R424). -/
def execBne (c : CoreId) (rs1 rs2 : Reg) (an : Bool) (disp : BitVec 14) (s : State) : Result :=
  .next (s.branchInstr c rs1 rs2 an disp (fun a b => decide (a ≠ b)))

/-- `BLT` (R424). -/
def execBlt (c : CoreId) (rs1 rs2 : Reg) (an : Bool) (disp : BitVec 14) (s : State) : Result :=
  .next (s.branchInstr c rs1 rs2 an disp ltS)

/-- `BGE` (R424). -/
def execBge (c : CoreId) (rs1 rs2 : Reg) (an : Bool) (disp : BitVec 14) (s : State) : Result :=
  .next (s.branchInstr c rs1 rs2 an disp (fun a b => !ltS a b))

/-- `BLTU` (R424). -/
def execBltu (c : CoreId) (rs1 rs2 : Reg) (an : Bool) (disp : BitVec 14) (s : State) : Result :=
  .next (s.branchInstr c rs1 rs2 an disp ltU)

/-- `BGEU` (R424). -/
def execBgeu (c : CoreId) (rs1 rs2 : Reg) (an : Bool) (disp : BitVec 14) (s : State) : Result :=
  .next (s.branchInstr c rs1 rs2 an disp (fun a b => !ltU a b))

/-! ### Jumps and calls (R424, R426, R427) -/

/-- `JMP` (R424). -/
def execJmp (c : CoreId) (disp : BitVec 25) (s : State) : Result :=
  let i := coreIx c
  .next (s.run c { reads := [], writes := [], slotOk := false }
    (fun s => s.transferVia i ((s.core[i]).pc + disp.signExtend 32 * 4) none 1 (.ok {})))

/-- `CALL` (R426). -/
def execCall (c : CoreId) (disp : BitVec 25) (s : State) : Result :=
  let i := coreIx c
  .next (s.run c { reads := [], writes := [28], slotOk := false }
    (fun s => s.transferVia i ((s.core[i]).pc + disp.signExtend 32 * 4) none 1 (s.plainLink i)))

/-- `JUMPR` (R424). -/
def execJumpr (c : CoreId) (rs1 : Reg) (imm : BitVec 15) (s : State) : Result :=
  let i := coreIx c
  .next (s.run c { reads := [rs1.val], writes := [], slotOk := false }
    (fun s => s.transferVia i (s.gr i rs1 + imm.signExtend 32) none 4 (.ok {})))

/-- `CALLR` (R426). -/
def execCallr (c : CoreId) (rs1 : Reg) (imm : BitVec 15) (s : State) : Result :=
  let i := coreIx c
  .next (s.run c { reads := [rs1.val], writes := [28], slotOk := false }
    (fun s => s.transferVia i (s.gr i rs1 + imm.signExtend 32) none 4 (s.plainLink i)))

/-- `RET` (R486). -/
def execRet (c : CoreId) (s : State) : Result :=
  let i := coreIx c
  .next (s.run c { reads := [28], writes := [], slotOk := false }
    (fun s => s.transferVia i (s.gr i 28) none 4 (s.popped i none)))

/-- `JC` (R427). -/
def execJc (c : CoreId) (cs : CapIx) (rs : Reg) (s : State) : Result :=
  let i := coreIx c
  .next (s.run c { reads := [rs.val, 32 + cs.val], writes := [32], slotOk := false }
    (fun s => s.transferVia i (s.gr i rs) (some (cs.val, s.cap i cs)) 4 (.ok {})))

/-- `CALLC` (R426). -/
def execCallc (c : CoreId) (cs : CapIx) (rs : Reg) (s : State) : Result :=
  let i := coreIx c
  .next (s.run c { reads := [rs.val, 32 + cs.val], writes := [28, 38], slotOk := false }
    (fun s => s.transferVia i (s.gr i rs) (some (cs.val, s.cap i cs)) 4 (s.capLink i)))

/-- `RETC` (R486). -/
def execRetc (c : CoreId) (s : State) : Result :=
  let i := coreIx c
  .next (s.run c { reads := [28, 38], writes := [32], slotOk := false }
    (fun s =>
      let k := s.cap i 6
      s.transferVia i (s.gr i 28) (some (6, k)) 4
        (s.popped i (some (BitVec.ofNat 40 k.base, BitVec.ofNat 40 k.limit)))))

end Sys2Proof.Machine
end

