-- ==== Sys2Proof/Machine/CoreCap.lean ====
section
/-!
DEFINITION. Machine/CoreCap.lean: the capability operations of the cores (R421 to R423).
-/
namespace Sys2Proof.Machine

/-- A copy of a capability register, changed by `f`; `c0` is no destination (R400). -/
def State.capCopy (s : State) (c : CoreId) (cd cs : CapIx) (f : Cap → Cap) : State :=
  let i := coreIx c
  s.run c { reads := [32 + cs.val], writes := [32 + cd.val] }
    (Body.of (fun s => if cd = 0 then .error illegal else .ok (s.setCap i cd (f (s.cap i cs)))))

/-- A derivation (R422, R423): `f` answers the new capability, or the cause of its failure. -/
def State.capDerive (s : State) (c : CoreId) (cd cs : CapIx) (rs : Reg) (f : CoreSt → Cap → Word → Except Nat Cap) :
    State :=
  let i := coreIx c
  s.run c { reads := [32 + cs.val, rs.val], writes := [32 + cd.val] }
    (Body.of (fun s =>
      if cd = 0 then .error illegal
      else
        let k := s.cap i cs
        if !k.tag then .error (capTrouble 0 cs)
        else match f s.core[i] k (s.gr i rs) with
          | .error cause => .error (capTrouble cause cs)
          | .ok k' => .ok (s.setCap i cd k')))

/-- A derivation that a sealed capability does not allow. -/
def unsealed (f : Cap → Word → Except Nat Cap) (k : Cap) (v : Word) : Except Nat Cap :=
  if k.sl ≠ 0 then .error 1 else f k v

/-- A read of a capability's fields into a general register. -/
def State.capRead (s : State) (c : CoreId) (rs : Reg) (cs : CapIx) (f : Cap → Nat) : State :=
  let i := coreIx c
  s.runOk c { reads := [32 + cs.val], writes := [rs.val] }
    (fun s => s.setGr i rs (BitVec.ofNat 32 (f (s.cap i cs))))

/-- Bit `t` of the seal-type mask (R437). -/
def CoreSt.sealBit (k : CoreSt) (t : Nat) : Bool := (k.sealmask[Fin.ofNat 8 (t / 32)]).getLsbD (t % 32)

/-- `CCOPY` (R421). -/
def execCcopy (c : CoreId) (cd cs : CapIx) (s : State) : Result := .next (s.capCopy c cd cs (fun k => k))

/-- `CRAISE` (R422). -/
def execCraise (c : CoreId) (cd cs : CapIx) (rs : Reg) (s : State) : Result :=
  .next (s.capDerive c cd cs rs (fun _ => unsealed (fun k v =>
    let b := k.base + v.toNat
    if k.limit < b ∨ 2 ^ 40 ≤ b then .error 4 else .ok (k.put 0 40 b))))

/-- `CTRIM` (R422). -/
def execCtrim (c : CoreId) (cd cs : CapIx) (rs : Reg) (s : State) : Result :=
  .next (s.capDerive c cd cs rs (fun _ => unsealed (fun k v =>
    let l := k.base + v.toNat - 1
    if v = 0 ∨ k.limit < l then .error 4 else .ok (k.put 40 40 l))))

/-- `CMASKP` (R422). -/
def execCmaskp (c : CoreId) (cd cs : CapIx) (rs : Reg) (s : State) : Result :=
  .next (s.capDerive c cd cs rs (fun _ => unsealed (fun k v => .ok (k.put 80 12 (k.perm &&& v.toNat)))))

/-- `CWRAP` (R423). -/
def execCwrap (c : CoreId) (cd cs : CapIx) (rs : Reg) (s : State) : Result :=
  .next (s.capDerive c cd cs rs (fun q => unsealed (fun k v =>
    let t := v.toNat % 256
    if t = 0 ∨ !q.sealBit t then .error 5 else .ok (k.put 92 8 t))))

/-- `CUNWRAP` (R423): an unsealed capability passes, since bit 0 of the mask reads 1 (R437). -/
def execCunwrap (c : CoreId) (cd cs : CapIx) (s : State) : Result :=
  .next (s.capDerive c cd cs 0 (fun q k _ => if !q.sealBit k.sl then .error 5 else .ok (k.put 92 8 0)))

/-- `CUNTAG` (R421). -/
def execCuntag (c : CoreId) (cd cs : CapIx) (s : State) : Result :=
  .next (s.capCopy c cd cs (fun k => { k with tag := false }))

/-- `CRDB` (R421). -/
def execCrdb (c : CoreId) (rs : Reg) (cs : CapIx) (s : State) : Result := .next (s.capRead c rs cs Cap.base)

/-- `CRDBH` (R421). -/
def execCrdbh (c : CoreId) (rs : Reg) (cs : CapIx) (s : State) : Result :=
  .next (s.capRead c rs cs (fun k => k.base / 2 ^ 32))

/-- `CRDL` (R421). -/
def execCrdl (c : CoreId) (rs : Reg) (cs : CapIx) (s : State) : Result := .next (s.capRead c rs cs Cap.limit)

/-- `CRDLH` (R421). -/
def execCrdlh (c : CoreId) (rs : Reg) (cs : CapIx) (s : State) : Result :=
  .next (s.capRead c rs cs (fun k => k.limit / 2 ^ 32))

/-- `CRDP` (R421). -/
def execCrdp (c : CoreId) (rs : Reg) (cs : CapIx) (s : State) : Result := .next (s.capRead c rs cs Cap.perm)

/-- `CRDS` (R421). -/
def execCrds (c : CoreId) (rs : Reg) (cs : CapIx) (s : State) : Result := .next (s.capRead c rs cs Cap.sl)

/-- `CRDT` (R421). -/
def execCrdt (c : CoreId) (rs : Reg) (cs : CapIx) (s : State) : Result :=
  .next (s.capRead c rs cs (fun k => b2n k.tag))

end Sys2Proof.Machine
end

