-- ==== Sys2Proof/Machine/CoreMem.lean ====
section
/-!
DEFINITION. Machine/CoreMem.lean: loads, stores, capability loads and stores, atomic operations and block repeat
of the cores (R416 to R420, R430 to R433).
-/
namespace Sys2Proof.Machine

/-! ### Loads and stores (R416) -/

/-- A load of `sz` bytes whose value `f` extends to a word. -/
def State.loadInstr (s : State) (c : CoreId) (rd : Reg) (cap : CapIx) (rb : Reg) (imm : BitVec 12) (sz : Nat)
    (f : Nat → Word) : State :=
  let i := coreIx c
  s.run c { reads := [rb.val, 32 + cap.val], writes := [rd.val], late := [rd.val] }
    (Body.of (fun s => match s.loadAt i cap (s.offsetLM i rb imm) sz with
      | .error t => .error t
      | .ok r => .ok (r.2.setGr i rd (f r.1))))

/-- A store of the low `sz` bytes of RD. -/
def State.storeInstr (s : State) (c : CoreId) (rd : Reg) (cap : CapIx) (rb : Reg) (imm : BitVec 12) (sz : Nat) :
    State :=
  let i := coreIx c
  s.run c { reads := [rd.val, rb.val, 32 + cap.val], writes := [] }
    (Body.of (fun s => s.storeAt i cap (s.offsetLM i rb imm) sz ((s.gr i rd).toNat % 2 ^ (8 * sz))))

/-- `LB` (R416). -/
def execLb (c : CoreId) (rd : Reg) (cap : CapIx) (rb : Reg) (imm : BitVec 12) (s : State) : Result :=
  .next (s.loadInstr c rd cap rb imm 1 (fun v => (BitVec.ofNat 8 v).signExtend 32))

/-- `LBU` (R416). -/
def execLbu (c : CoreId) (rd : Reg) (cap : CapIx) (rb : Reg) (imm : BitVec 12) (s : State) : Result :=
  .next (s.loadInstr c rd cap rb imm 1 (BitVec.ofNat 32))

/-- `LH` (R416). -/
def execLh (c : CoreId) (rd : Reg) (cap : CapIx) (rb : Reg) (imm : BitVec 12) (s : State) : Result :=
  .next (s.loadInstr c rd cap rb imm 2 (fun v => (BitVec.ofNat 16 v).signExtend 32))

/-- `LHU` (R416). -/
def execLhu (c : CoreId) (rd : Reg) (cap : CapIx) (rb : Reg) (imm : BitVec 12) (s : State) : Result :=
  .next (s.loadInstr c rd cap rb imm 2 (BitVec.ofNat 32))

/-- `LW` (R416). -/
def execLw (c : CoreId) (rd : Reg) (cap : CapIx) (rb : Reg) (imm : BitVec 12) (s : State) : Result :=
  .next (s.loadInstr c rd cap rb imm 4 (BitVec.ofNat 32))

/-- `SB` (R416). -/
def execSb (c : CoreId) (rd : Reg) (cap : CapIx) (rb : Reg) (imm : BitVec 12) (s : State) : Result :=
  .next (s.storeInstr c rd cap rb imm 1)

/-- `SH` (R416). -/
def execSh (c : CoreId) (rd : Reg) (cap : CapIx) (rb : Reg) (imm : BitVec 12) (s : State) : Result :=
  .next (s.storeInstr c rd cap rb imm 2)

/-- `SW` (R416). -/
def execSw (c : CoreId) (rd : Reg) (cap : CapIx) (rb : Reg) (imm : BitVec 12) (s : State) : Result :=
  .next (s.storeInstr c rd cap rb imm 4)

/-! ### Capability loads and stores (R420) -/

/-- The load of a capability register. -/
def State.cldOp (s : State) (i : Fin 5) (cr cap : CapIx) (offs : Nat) : Except Trouble State :=
  if cr = 0 then .error illegal
  else match s.access i cap pRD offs 16 false with
    | .error t => .error t
    | .ok a =>
      if offs % 16 ≠ 0 then .error { desc := 4, cause := 0, capn := cap, fetch := false, addr := a }
      else
        let g := s.granule i a ((s.cap i cap).holds pTAKE)
        .ok ((g.2.readTime i a).setCap i cr g.1)

/-- The private region of a core: the memories of its own pair. -/
def privateTo (i : Fin 5) (a : Nat) : Bool :=
  (decide (i = 0) && decide (0x28000000 ≤ a ∧ a < 0x28080000)) ||
    (decide (i = 1) && decide (0x28100000 ≤ a ∧ a < 0x28180000))

/-- The store of a capability register with its tag; the causes PRIVATE and TAGLESS come before alignment and the
region filter (R488). -/
def State.cstOp (s : State) (i : Fin 5) (cr cap : CapIx) (offs : Nat) : Except Trouble State :=
  let k := s.cap i cap
  let v := s.cap i cr
  let a := k.base + offs
  let f (d cause : Nat) : Except Trouble State :=
    .error { desc := d, cause := cause, capn := cap, fetch := false, addr := a }
  match k.check (pWR ||| pPUT) offs 16 with
  | some cause => f 3 cause
  | none =>
    if v.tag && !v.holds pSHARE && !privateTo i a then f 3 6
    else if !hasTags a then f 3 7
    else if offs % 16 ≠ 0 ∨ a % 16 ≠ 0 then f 4 0
    else match s.reach6 i a 16 true with
      | some cause => f 5 cause
      | none =>
        let t := s.coreWrite i a 16 v.bits.toNat
        .ok (if v.tag then t.setTag a else t)

/-- `CLD` (R420). -/
def execCld (c : CoreId) (cr cap : CapIx) (rb : Reg) (imm : BitVec 12) (s : State) : Result :=
  .next (s.run c { reads := [rb.val, 32 + cap.val], writes := [32 + cr.val], late := [32 + cr.val] }
    (Body.of (fun s => s.cldOp (coreIx c) cr cap (s.offsetLM (coreIx c) rb imm))))

/-- `CST` (R420). -/
def execCst (c : CoreId) (cr cap : CapIx) (rb : Reg) (imm : BitVec 12) (s : State) : Result :=
  .next (s.run c { reads := [rb.val, 32 + cap.val, 32 + cr.val], writes := [] }
    (Body.of (fun s => s.cstOp (coreIx c) cr cap (s.offsetLM (coreIx c) rb imm))))

/-! ### Atomic operations (R433) -/

/-- The aligned word at `offs` is read into RD; `f` gives the word written, none for no write. -/
def State.amoOp (s : State) (i : Fin 5) (rd : Reg) (n : CapIx) (offs : Nat) (f : Word → Option Word) :
    Except Trouble State :=
  match s.access i n (pRD ||| pWR ||| pATOM) offs 4 true with
  | .error t => .error t
  | .ok a =>
    if !amoRegion a then .error { desc := 5, cause := 3, capn := n, fetch := false, addr := a }
    else
      let r := s.coreRead i a 4
      let old : Word := BitVec.ofNat 32 r.1
      let t : State := match f old with
        | some w => r.2.coreWrite i a 4 w.toNat
        | none => r.2
      .ok ((t.readTime i a).setGr i rd old)

/-- An atomic instruction with the registers it reads. -/
def State.amoInstr (s : State) (c : CoreId) (rd : Reg) (cap : CapIx) (rb : Reg) (srcs : List Reg)
    (f : State → Word → Option Word) : State :=
  let i := coreIx c
  s.run c { reads := [rb.val, 32 + cap.val] ++ srcs.map (fun r => r.val), writes := [rd.val], late := [rd.val] }
    (Body.of (fun s => s.amoOp i rd cap (s.gr i rb).toNat (f s)))

/-- `SWAP` (R433). -/
def execSwap (c : CoreId) (rd : Reg) (cap : CapIx) (rb rs : Reg) (s : State) : Result :=
  .next (s.amoInstr c rd cap rb [rs] (fun s _ => some (s.gr (coreIx c) rs)))

/-- `AMO_ADD` (R433). -/
def execAmoAdd (c : CoreId) (rd : Reg) (cap : CapIx) (rb rs : Reg) (s : State) : Result :=
  .next (s.amoInstr c rd cap rb [rs] (fun s old => some (old + s.gr (coreIx c) rs)))

/-- `CAS` (R433). -/
def execCas (c : CoreId) (rd : Reg) (cap : CapIx) (rb rs rc : Reg) (s : State) : Result :=
  .next (s.amoInstr c rd cap rb [rs, rc]
    (fun s old => if old = s.gr (coreIx c) rc then some (s.gr (coreIx c) rs) else none))

/-! ### Block repeat (R430 to R432) -/

/-- A value of a general register as an element: both halves of an element of 8 bytes. -/
def elemOf (x : Str) (w : Word) : Nat :=
  if x.size = 3 then w.toNat + w.toNat * 2 ^ 32 else w.toNat % 2 ^ (8 * 2 ^ x.size)

/-- An offset one element on. -/
def Str.step (x : Str) (o : Word) : Word :=
  if x.down then o - BitVec.ofNat 32 (2 ^ x.size) else o + BitVec.ofNat 32 (2 ^ x.size)

/-- One element: whether it ends the loop early, and the state. -/
def State.element (s : State) (i : Fin 5) (x : Str) : Except Trouble (Bool × State) :=
  let sz := 2 ^ x.size
  let src := (s.gr i 30).toNat
  let dst := (s.gr i 31).toNat
  match x.kind with
  | 0 =>
    (match s.loadAt i x.cs src sz with
     | .error t => .error t
     | .ok r => (match r.2.storeAt i x.cd dst sz r.1 with
       | .error t => .error t
       | .ok t => .ok (false, t)))
  | 1 =>
    (match s.storeAt i x.cd dst sz (elemOf x (s.gr i x.rd)) with
     | .error t => .error t
     | .ok t => .ok (false, t))
  | 2 =>
    (match s.loadAt i x.cs src sz with
     | .error t => .error t
     | .ok r => (match r.2.loadAt i x.cd dst sz with
       | .error t => .error t
       | .ok q =>
         if r.1 = q.1 then .ok (false, q.2)
         else .ok (true, q.2.setGr i x.rd (if q.1 < r.1 then 1 else 0xFFFFFFFF))))
  | 3 =>
    (match s.loadAt i x.cs src sz with
     | .error t => .error t
     | .ok r => .ok (r.1 == elemOf x (s.gr i x.rd), r.2))
  | _ =>
    (match s.loadAt i x.cs src sz with
     | .error t => .error t
     | .ok r => .ok (false, r.2.setGr i x.rd (s.gr i x.rd + BitVec.ofNat 32 (r.1 + r.1 / 2 ^ 32))))

/-- The registers after an element that does not end the loop: count, and the offsets that the string instruction
uses. -/
def State.nextElement (s : State) (i : Fin 5) (x : Str) : State :=
  let s := s.setGr i 29 (s.gr i 29 - 1)
  let s := if x.kind != 1 then s.setGr i 30 (x.step (s.gr i 30)) else s
  let s := if x.kind ≤ 2 then s.setGr i 31 (x.step (s.gr i 31)) else s
  s.modCore i (fun k => { k.spend 1 with retired := k.retired + 1 })

/-- The loop, at most `n` more elements: whether it has ended (rather than stopped for a request or a fault), and
the fault. -/
def State.blockLoop (s : State) (i : Fin 5) (x : Str) : Nat → Bool × State × Option Trouble
  | 0 => (true, if x.kind = 2 then s.setGr i x.rd 0 else s, none)
  | n + 1 =>
    if (s.request i).isSome then (false, s, none)
    else match s.element i x with
      | .error t => (false, s, some t)
      | .ok r =>
        if r.1 then (true, r.2, none)
        else (r.2.nextElement i x).blockLoop i x n

/-- The following word is fetched and checked as the instruction's own (R418, R430). -/
def State.fetchNext (s : State) (i : Fin 5) : Option Trouble :=
  (s.modCore i (fun k => { k with pc := k.pc + 4 })).fetchTrouble i

/-- `BRPT` with the word that follows it: the loop ends, or stops before an element with the program counter at
`BRPT`. -/
def State.brptOp (s : State) (i : Fin 5) (w : Word) : State × Option Trouble :=
  match s.fetchNext i with
  | some t => (s, some t)
  | none =>
    match strOf w with
    | none => (s, some illegal)
    | some x =>
      let r := s.blockLoop i x (s.gr i 29).toNat
      if r.1 then (r.2.1.modCore i (fun k => { k with pc := k.pc + 4, retired := k.retired + 1 }), none)
      else (match r.2.2 with
        | some t => (r.2.1, some t)
        | none => (r.2.1.modCore i (fun k => { k with pc := k.pc - 4 }), none))

/-- The general registers that a block repeat reads or writes, and its capability registers. -/
def strRegs (w : Word) : List Nat × List Nat :=
  match strOf w with
  | some x => ([29, 30, 31, x.rd.val, 32 + x.cd.val, 32 + x.cs.val], [29, 30, 31, x.rd.val])
  | none => ([], [])

/-- `BRPT` (R430 to R432). -/
def execBrpt (c : CoreId) (follow : Word) (s : State) : Result :=
  .next (s.run c { reads := (strRegs follow).1, writes := (strRegs follow).2, slotOk := false, count := 0 }
    (fun s => s.brptOp (coreIx c) follow))

end Sys2Proof.Machine
end

