-- ==== Sys2Proof/Machine/Csr.lean ====
section
/-!
DEFINITION. Machine/Csr.lean: the system registers of a core (R436, R437, 13, 14).
-/
namespace Sys2Proof.Machine

/-- What a change of a system register may touch: none, where a core defines no such number; 0 for a
read-only register. -/
def csrMask (i : Fin 5) (n : Nat) : Option Word :=
  if n = 0x000 then some 0x1F
  else if n = 0x001 ∨ (0x010 ≤ n ∧ n < 0x014) then some 0
  else if 0x020 ≤ n ∧ n < 0x028 then some 0xFFFFFFFF
  else if 0x100 ≤ n ∧ n < 0x140 ∧ n % 16 < 10 then
    some (if n % 16 = 0 then 0xFFFFFFFF else if n % 16 = 1 then 0xF000 else if n % 16 = 7 then 1 else 0)
  else if 0x140 ≤ n ∧ n < 0x144 then some 0
  else if n = 0x150 then some 0xF0
  else if n = 0x151 then some 0xFFFF
  else if n = 0x152 then some 0x10000
  else if n = 0x153 ∨ n = 0x155 then some 0xFFFFFFFF
  else if n = 0x154 then some 0x17
  else if n = 0x156 then some 0x1FF
  else if n = 0x200 then some 3
  else if n = 0x201 then some 0xF
  else if n = 0x202 ∧ i.val < 2 then some 0xF7
  else if 0x210 ≤ n ∧ n < 0x218 then some 0
  else none

/-- Counter `j`: `CYCLE`, `RETIRED`, then the performance counters. -/
def CoreSt.counter (k : CoreSt) (j : Fin 6) : Nat :=
  if j = 0 then k.cycle else if j = 1 then k.retired else k.perf[Fin.ofNat 4 (j - 2)]

/-- Word `p` of a counter; a read of the lower word latches the upper one. -/
def CoreSt.readCounter (k : CoreSt) (j : Fin 6) (hi : Bool) : Word × CoreSt :=
  if hi then (k.latch[j], k)
  else
    (BitVec.ofNat 32 (k.counter j), { k with latch := k.latch.set j (BitVec.ofNat 32 (k.counter j / 2 ^ 32)) })

/-- Word `o` of the save registers of a level (R483). -/
def SaveSt.word (v : SaveSt) (o : Nat) : Word :=
  if o = 0 then v.spc
  else if o = 1 then v.sstat
  else if o < 6 then BitVec.ofNat 32 (v.scap.bits.toNat / 2 ^ (32 * (o - 2)))
  else if o = 6 then v.replay0
  else if o = 7 then v.replay1
  else if o = 8 then v.faddr.setWidth 32
  else (v.faddr >>> 32).setWidth 32

/-- A read of system register `n`. -/
def State.csrRead (s : State) (i : Fin 5) (n : Nat) : Word × State :=
  let k := s.core[i]
  let ctr (j : Fin 6) : Word × State :=
    let r := k.readCounter j (n % 2 == 1)
    (r.1, s.modCore i (fun _ => r.2))
  let num (x : Nat) : Word × State := (BitVec.ofNat 32 x, s)
  if n = 0x000 then num k.fflags
  else if n = 0x001 then num (i.val + if i = 4 then 0 else 16)
  else if n < 0x020 then ctr (Fin.ofNat 6 ((n - 0x010) / 2))
  else if n < 0x028 then (k.sealmask[Fin.ofNat 8 (n - 0x020)], s)
  else if n < 0x140 then ((k.save[Fin.ofNat 4 ((n - 0x100) / 16)]).word (n % 16), s)
  else if n = 0x140 then (k.dfpc, s)
  else if n = 0x141 then (k.dfstat, s)
  else if n = 0x142 then (k.dfaddr.setWidth 32, s)
  else if n = 0x143 then ((k.dfaddr >>> 32).setWidth 32, s)
  else if n = 0x150 then num ((if k.df then 256 else 0) + 16 * k.mask + k.cur)
  else if n = 0x151 then num k.ien
  else if n = 0x152 then num ((if k.tm then 65536 else 0) + s.sources i)
  else if n = 0x153 then (k.hdtBase, s)
  else if n = 0x154 then num (if k.hdt.isSome then 256 else 0)
  else if n = 0x155 then (k.tmcmp, s)
  else if n = 0x156 then num (65536 * k.stack.length)
  else if n = 0x200 then num k.svc
  else if n = 0x201 then num k.ctx
  else if n = 0x202 then num k.icctl
  else ctr (Fin.ofNat 6 (2 + (n - 0x210) / 2))

/-! ### The load of the descriptor table (R480) -/

/-- Load `m` more granules, starting with granule `j`. -/
def State.hdtGranules (s : State) (i : Fin 5) (n : CapIx) (base : Word) :
    Nat → Nat → List Cap → Except Trouble (List Cap × State)
  | 0, _, l => .ok (l, s)
  | m + 1, j, l =>
    match s.access i n pRD (base + BitVec.ofNat 32 (16 * j)).toNat 16 false with
    | .error x => .error x
    | .ok a =>
      let g := s.granule i a ((s.cap i n).holds pTAKE)
      g.2.hdtGranules i n base m (j + 1) (l ++ [g.1])

/-- A write of `HDT_CTL` with LOAD. -/
def State.hdtLoad (s : State) (i : Fin 5) (n : CapIx) : Except Trouble State :=
  match s.hdtGranules i n (s.core[i]).hdtBase 160 0 [] with
  | .error x => .error x
  | .ok r =>
    let bytes := (r.1.take 128).flatMap (fun c => leBytes 16 c.bits.toNat)
    let copy : HdtCopy := { bytes := bytes, vault := r.1.drop 128 }
    .ok ((r.2.spendOpen i 0).modCore i (fun k => { k with hdt := some copy }))

/-! ### Changes -/

/-- The service state changes: the predictor is flushed, and the tagged states draw new scrambles (R454,
R457). -/
def CoreSt.setSvc (k : CoreSt) (v : Nat) : CoreSt :=
  if v = k.svc then k
  else { k.predAll with svc := v, scrambles := [], drawn := false }.predFlush

/-- `PRED_CTX` is written (R455). -/
def CoreSt.setCtx (k : CoreSt) (v : Nat) : CoreSt := { k.predAll with ctx := v }.predFlushNormal

/-- A change of save register word `o` of level `l`. -/
def CoreSt.setSave (k : CoreSt) (l : Fin 4) (o : Nat) (w : Word) : CoreSt :=
  let v := k.save[l]
  let v' : SaveSt :=
    if o = 0 then { v with spc := w }
    else if o = 1 then { v with sstat := withField v.sstat 15 12 (fieldOf w 15 12) }
    else if w.getLsbD 0 then { v with replay1 := v.replay1 &&& 0xFFFFFFFE#32 }
    else v
  { k with save := k.save.set l v' }

/-- A change of system register `n` to `w`, other than a load of the descriptor table. -/
def CoreSt.setCsr (k : CoreSt) (n : Nat) (w : Word) : CoreSt :=
  if n = 0x000 then { k with fflags := fieldOf w 4 0 }
  else if n < 0x028 then
    let w' : Word := if n = 0x020 then w ||| 1#32 else w
    { k with sealmask := k.sealmask.set (Fin.ofNat 8 (n - 0x020)) w' }
  else if n < 0x140 then k.setSave (Fin.ofNat 4 ((n - 0x100) / 16)) (n % 16) w
  else if n = 0x150 then { k with mask := fieldOf w 7 4 }
  else if n = 0x151 then { k with ien := fieldOf w 15 0 }
  else if n = 0x152 then { k with tm := k.tm && !w.getLsbD 16 }
  else if n = 0x153 then { k with hdtBase := w }
  else if n = 0x154 then k
  else if n = 0x155 then { k with tmcmp := w }
  else if n = 0x156 then { k with shadow := k.shadow.set k.stackIx (k.stack.drop (fieldOf w 8 0)) }
  else if n = 0x200 then k.setSvc (fieldOf w 1 0)
  else if n = 0x201 then k.setCtx (fieldOf w 3 0)
  else if n = 0x202 then { k with icctl := w.toNat &&& 0xF7 }
  else k

/-- The word that a `CSR` instruction writes (R436). -/
def csrWord (kind : Fin 4) (old v : Word) : Word :=
  if kind = 1 then v else if kind = 2 then old ||| v else if kind = 3 then old &&& ~~~v else old

/-- `CSR` (R436, R437): `v` is rs1, `change` says that the register is to change. -/
def State.csrOp (s : State) (i : Fin 5) (rd : Reg) (kind : Fin 4) (change : Bool) (v : Word) (n : Nat) :
    Except Trouble State :=
  match csrMask i n with
  | none => .error illegal
  | some m =>
    if change && m == 0 then .error illegal
    else if !s.code i pSYS then .error notPermitted
    else if change && decide (0x020 ≤ n ∧ n < 0x028) && !s.code i pKEY then .error notPermitted
    else
      let r := s.csrRead i n
      let w := csrWord kind r.1 v
      if !change then .ok (r.2.setGr i rd r.1)
      else if n = 0x154 ∧ w.getLsbD 4 then
        (match r.2.hdtLoad i (Fin.ofNat 8 (fieldOf w 2 0)) with
         | .error x => .error x
         | .ok t => .ok (t.setGr i rd r.1))
      else .ok ((r.2.modCore i (fun k => k.setCsr n w)).setGr i rd r.1)

/-- A `CSR` instruction of core `c`. -/
def State.csrInstr (s : State) (c : CoreId) (rd rs1 : Reg) (kind : Fin 4) (n : Nat) : State :=
  let change := decide (kind = 1) || (decide (kind ≠ 0) && decide (rs1 ≠ 0))
  s.run c { reads := if kind = 0 then [] else [rs1.val], writes := [rd.val], sys := change }
    (Body.of (fun s => s.csrOp (coreIx c) rd kind change (s.gr (coreIx c) rs1) n))

/-- A `CSR` instruction of core `c` that writes `w` to register `n` and reads into `g0`. -/
def State.csrWrite (s : State) (c : CoreId) (n : Nat) (w : Word) : State :=
  s.run c { reads := [], writes := [], sys := true }
    (Body.of (fun s => s.csrOp (coreIx c) 0 1 true w n))

end Sys2Proof.Machine
end

