-- ==== Sys2Proof/Machine/CoreSys.lean ====
section
/-!
DEFINITION. Machine/CoreSys.lean: system instructions of the cores, and the events of a core: interrupt entry,
timer match, the end of a long operation and of a scramble draw, a lockstep mismatch (R435, R436, R464 to R467,
R477, R484, R495).
-/
namespace Sys2Proof.Machine

/-! ### System instructions -/

/-- An instruction that squashes and refetches the words after it, at its retire (R447). -/
def State.refetch (s : State) (i : Fin 5) : State := s.modCore i (fun k => (k.count 0 6).spend 6)

/-- A privileged instruction (R435). -/
def State.privileged (s : State) (i : Fin 5) (f : State → Except Trouble State) : Except Trouble State :=
  if s.code i pPRIV then f s else .error notPermitted

/-- `CSR` (R436, R437). -/
def execCsr (c : CoreId) (rd rs1 : Reg) (kind : Fin 4) (num : BitVec 12) (s : State) : Result :=
  .next (s.csrInstr c rd rs1 kind num.toNat)

/-- `FENCE` (R435, R447); earlier accesses are complete. -/
def execFence (c : CoreId) (s : State) : Result :=
  .next (s.runOk c { reads := [], writes := [] } (fun s => s.refetch (coreIx c)))

/-- The state of the entered level is restored (R467, R484). -/
def State.leaveLevel (s : State) (i : Fin 5) (l : Fin 4) : State :=
  let k := s.core[i]
  let v := k.save[l]
  let t := s.modCore i (fun k => { k.spend 7 with
    caps := Vector.ofFn (fun (n : Fin 8) => if h : n.val = 0 then v.scap else (k.bank[l])[n.val - 1]),
    cur := fieldOf v.sstat 18 16, mask := fieldOf v.sstat 15 12, pc := v.spc - 4 })
  let t := t.modCore i CoreSt.predFlushNormal
  if v.replay1.getLsbD 0 then t.longStart i v.replay0 (v.replay1 &&& 0xFFFFFFFC#32) (k.cycle + 4) else t

/-- `RETI` (R484, R487). -/
def State.retiOp (s : State) (i : Fin 5) : Except Trouble State :=
  let k := s.core[i]
  if h : k.cur < 4 then
    if k.df then .error illegal
    else s.privileged i (fun s =>
      if k.stack.isEmpty then .ok (s.leaveLevel i ⟨k.cur, h⟩) else .error (flowTrouble 11))
  else .error illegal

/-- The replay slot of the present level is valid. -/
def CoreSt.replays (k : CoreSt) : Bool := if h : k.cur < 4 then (k.save[k.cur]).replay1.getLsbD 0 else false

/-- `RETI` (R484). -/
def execReti (c : CoreId) (s : State) : Result :=
  let i := coreIx c
  .next (s.run c { reads := [], writes := [], sys := true, slotOk := false, long := (s.core[i]).replays }
    (Body.of (fun s => s.retiOp i)))

/-- `WFE` (R435, R466): retires, then waits unless a request is pending or a core event bit is set. -/
def execWfe (c : CoreId) (s : State) : Result :=
  let i := coreIx c
  .next (s.run c { reads := [], writes := [], slotOk := false }
    (Body.of (fun s => s.privileged i (fun s =>
      .ok (if s.wakes i then s else s.modCore i (fun k => { k with waiting := true }))))))

/-- `ICINV` (R435, R447). -/
def State.icinvOp (s : State) (i : Fin 5) (cs : CapIx) (offs : Nat) : Except Trouble State :=
  s.privileged i (fun s =>
    let k := s.cap i cs
    let a := k.base + offs
    let f (cause : Nat) : Except Trouble State :=
      .error { desc := 3, cause := cause, capn := cs, fetch := false, addr := a }
    if !k.tag then f 0
    else if k.sl ≠ 0 then f 1
    else if k.limit < a ∨ 2 ^ 40 ≤ a then f 3
    else
      let line := a / lineSize i
      .ok ((s.modCore i (fun q => { q with
        line := if q.line = some line then none else q.line,
        ways := q.ways.filter (fun (e : Nat × Nat) => e.2 != line) })).refetch i))

/-- `ICINV` (R435, R447). -/
def execIcinv (c : CoreId) (cs : CapIx) (rs : Reg) (s : State) : Result :=
  let i := coreIx c
  .next (s.run c { reads := [rs.val, 32 + cs.val], writes := [] }
    (Body.of (fun s => s.icinvOp i cs (s.gr i rs).toNat)))

/-- `BPFLUSH` (R435, R455). -/
def execBpflush (c : CoreId) (s : State) : Result :=
  let i := coreIx c
  .next (s.run c { reads := [], writes := [] }
    (Body.of (fun s => s.privileged i (fun s => .ok (s.modCore i CoreSt.predFlush)))))

/-- `ECALL` (R435): the service-call fault. -/
def execEcall (c : CoreId) (s : State) : Result :=
  .next (s.run c { reads := [], writes := [], slotOk := false }
    (fun s => (s, some { desc := 8, cause := 0, capn := 0, fetch := false, addr := 0 })))

/-- `BREAK` (R435): the breakpoint fault. -/
def execBreakpoint (c : CoreId) (s : State) : Result :=
  .next (s.run c { reads := [], writes := [], slotOk := false }
    (fun s => (s, some { desc := 9, cause := 0, capn := 0, fetch := false, addr := 0 })))

/-! ### Writes of system registers with a row of their own -/

/-- `HDT_LOAD` (R480). -/
def execHdtLoad (c : CoreId) (cap : CapIx) (s : State) : Result :=
  .next (s.csrWrite c 0x154 (BitVec.ofNat 32 (16 + cap.val)))

/-- `SSTK_DISCARD` (R487). -/
def execSstkDiscard (c : CoreId) (n : BitVec 9) (s : State) : Result :=
  .next (s.csrWrite c 0x156 (n.setWidth 32))

/-- `SVC_WRITE` (R454). -/
def execSvcWrite (c : CoreId) (val : Word) (s : State) : Result := .next (s.csrWrite c 0x200 val)

/-- `PRED_CTX_WRITE` (R455). -/
def execPredCtxWrite (c : CoreId) (val : Word) (s : State) : Result := .next (s.csrWrite c 0x201 val)

/-- `SEALMASK_WRITE` (R437). -/
def execSealmaskWrite (c : CoreId) (k : Fin 8) (val : Word) (s : State) : Result :=
  .next (s.csrWrite c (0x020 + k.val) val)

/-! ### Events of a core -/

/-- `INTERRUPT_ENTRY` (R461 to R464): nothing happens while no request can be sampled. -/
def execInterruptEntry (c : CoreId) (s : State) : Result :=
  let i := coreIx c
  .next (if s.coreUp i then
      (match s.request i with
       | some r => s.takeInterrupt i r.1
       | none => s)
    else s)

/-- `TIMER_MATCH` (R477): the core's clock runs on to the cycle in which `CYCLE_LO` becomes equal to `TMCMP`. -/
def execTimerMatch (c : CoreId) (s : State) : Result :=
  let i := coreIx c
  .next (if s.coreUp i then s.modCore i (fun k =>
      k.spend ((k.tmcmp.toNat + 2 ^ 32 - (k.cycle + 1) % 2 ^ 32) % 2 ^ 32 + 1))
    else s)

/-- `LONG_OPERATION_COMPLETE` (R443): the core's clock runs on to the cycle of the result. -/
def execLongOperationComplete (c : CoreId) (s : State) : Result :=
  let i := coreIx c
  .next (if s.coreUp i then
      (match (s.core[i]).long with
       | some l => (s.spend i (l.due - (s.core[i]).cycle)).longDone i
       | none => s)
    else s)

/-- `LOCKSTEP_MISMATCH` (R495). -/
def execLockstepMismatch (n : Fin 2) (s : State) : Result :=
  .next (if s.coreUp (if n = 0 then 0 else 1) then s.lockup n 2 else s)

/-- `SCRAMBLE_DRAW_COMPLETE` (R457): sixteen scrambles, 10 bits each. -/
def execScrambleDrawComplete (c : CoreId) (s : State) : Result :=
  let i := coreIx c
  let k := s.core[i]
  .next (if s.coreUp i && k.tagged && !k.drawn then
      let x (j : Nat) : Nat := (Config.scramble (s.scrDraws + j)).toNat % 1024
      { s.modCore i (fun k => { k with
          scrambles := (List.range 16).map x, drawn := true }) with scrDraws := s.scrDraws + 16 }
    else s)

end Sys2Proof.Machine
end

