-- ==== Sys2Proof/Machine/Packets.lean ====
section
/-!
DEFINITION. Machine/Packets.lean: the opcodes and parameter layouts of the host commands (R67, R72), as bytes and
back, and the Wembi header (R47, R48).
-/
namespace Sys2Proof.Machine

/-! ### Opcodes and parameters (R72) -/

/-- The opcode of a host command (R72). -/
def hostOp : HostCmd → Nat
  | .identify => 0x0000
  | .windowRead _ _ => 0x0001
  | .windowWrite _ _ => 0x0002
  | .sessionOpen _ _ => 0x0003
  | .sessionClose => 0x0004
  | .stageWrite _ _ => 0x0100
  | .stageRead _ _ _ => 0x0101
  | .commit _ _ _ _ _ => 0x0102
  | .abort => 0x0103
  | .queryEpoch => 0x0104
  | .arm _ => 0x0200
  | .disarm _ => 0x0201
  | .setReference _ _ _ => 0x0202
  | .tripClear _ => 0x0203
  | .captureStart _ _ => 0x0300
  | .captureTrigger => 0x0301
  | .captureRead _ _ => 0x0302
  | .captureFreeze _ _ => 0x0303
  | .ledgerRead _ _ => 0x0400
  | .ledgerAck _ _ _ _ => 0x0401
  | .ledgerStatus => 0x0402
  | .timeSet _ => 0x0500
  | .timeQuery => 0x0501
  | .imageWrite _ _ _ _ => 0x0600
  | .imageActivate _ => 0x0601
  | .imageStatus => 0x0602
  | .modeRequest _ => 0x0700
  | .vote _ _ => 0x0701
  | .mbxPut _ _ => 0x0800
  | .mbxGet _ _ => 0x0801
  | .enumerate _ => 0x0900
  | .ringStatus => 0x0901
  | .faultInject _ _ _ _ _ _ => 0x0902
  | .lcAdvance _ => 0x0A00
  | .returnRequest _ _ _ => 0x0A01
  | .replaceHandover _ _ _ _ _ => 0x0A02

/-- Words as bytes, most significant byte first (R11). -/
def wordBytes : List Word → List Byte
  | [] => []
  | w :: l => beBytes 4 w.toNat ++ wordBytes l

/-- Bytes as words. -/
def wordsOf : List Byte → List Word
  | a :: b :: c :: d :: l => BitVec.ofNat 32 (ofBeBytes [a, b, c, d]) :: wordsOf l
  | _ => []

/-- `n` zero bytes. -/
def zeros (n : Nat) : List Byte := List.replicate n 0#8

/-- The calendar fields in the `TIME_SET` layout (R72). -/
def calBytes (c : CalFields) : List Byte :=
  beBytes 2 c.year.toNat ++ [c.month, c.day, c.hour, c.min, c.sec, 0#8] ++ beBytes 2 c.sub.toNat ++ [c.wday, c.flags]

/-- The request parameters of a host command (R67, R72). -/
def hostParams : HostCmd → List Byte
  | .identify | .sessionClose | .abort | .queryEpoch | .captureTrigger | .ledgerStatus | .timeQuery
  | .imageStatus | .ringStatus => []
  | .windowRead off cnt => [off, cnt, 0#8, 0#8]
  | .windowWrite off val => [off, 0#8, 0#8, 0#8] ++ beBytes 4 val.toNat
  | .sessionOpen rights nonce => beBytes 2 rights.toNat ++ zeros 2 ++ beBytes 16 nonce.toNat
  | .stageWrite item words => beBytes 4 item.toNat ++ beBytes 2 words.length ++ zeros 2 ++ wordBytes words
  | .stageRead item n bank => beBytes 4 item.toNat ++ beBytes 2 n.toNat ++ [bank, 0#8]
  | .commit epoch bound flags tmo arg =>
    beBytes 2 epoch.toNat ++ [bound, flags] ++ beBytes 2 tmo.toNat ++ zeros 2 ++ beBytes 8 arg.toNat
  | .arm mask | .disarm mask | .tripClear mask => beBytes 4 mask.toNat
  | .setReference sl idx val => [sl, idx, 0#8, 0#8] ++ beBytes 4 val.toNat
  | .captureStart mask kb => beBytes 4 mask.toNat ++ beBytes 4 kb.toNat
  | .captureRead off len => beBytes 8 off.toNat ++ beBytes 4 len.toNat
  | .captureFreeze when t => [when] ++ zeros 7 ++ beBytes 8 t.toNat
  | .ledgerRead first cnt => beBytes 4 first.toNat ++ beBytes 2 cnt.toNat
  | .ledgerAck idx head r s => beBytes 4 idx.toNat ++ beBytes 16 head.toNat ++ beBytes 32 r.toNat ++ beBytes 32 s.toNat
  | .timeSet cal => calBytes cal
  | .imageWrite slot flags off data => [slot, flags, 0#8, 0#8] ++ beBytes 4 off.toNat ++ data
  | .imageActivate slot => [slot, 0#8, 0#8, 0#8]
  | .modeRequest mode => [mode, 0#8, 0#8, 0#8]
  | .vote dom val => [dom, val, 0#8, 0#8]
  | .mbxPut ch words => [ch, BitVec.ofNat 8 words.length, 0#8, 0#8] ++ wordBytes words
  | .mbxGet ch n => [ch, n, 0#8, 0#8]
  | .enumerate adr => [adr, 0#8, 0#8, 0#8]
  | .faultInject port kind n etype first bits =>
    [port, kind] ++ beBytes 2 n.toNat ++ beBytes 2 etype.toNat ++ beBytes 2 first.toNat ++ [bits, 0#8, 0#8, 0#8]
  | .lcAdvance target => [target, 0#8, 0#8, 0#8]
  | .returnRequest nonce r s => beBytes 16 nonce.toNat ++ beBytes 32 r.toNat ++ beBytes 32 s.toNat
  | .replaceHandover old idx head r s =>
    [old, 0#8, 0#8, 0#8] ++ beBytes 4 idx.toNat ++ beBytes 16 head.toNat ++ beBytes 32 r.toNat ++ beBytes 32 s.toNat

/-! ### Parameters read back -/

/-- Byte `i`, and the big-endian number in `n` bytes from `i`. -/
def pByte (l : List Byte) (i : Nat) : Byte := l.getD i 0#8
def pNum (w : Nat) (l : List Byte) (i n : Nat) : BitVec w := BitVec.ofNat w (ofBeBytes ((l.drop i).take n))

/-- How the parameters of a request are read (R51, checks 6 and 7). -/
inductive Parsed
  | badOpcode
  | badLength
  | ok (cmd : HostCmd)
  deriving DecidableEq, Repr

/-- Calendar fields from the `TIME_SET` layout. -/
def calOf (l : List Byte) : CalFields :=
  CalFields.mk (pNum 16 l 0 2) (pByte l 2) (pByte l 3) (pByte l 4) (pByte l 5) (pByte l 6) (pNum 16 l 8 2) (pByte l 10)
    (pByte l 11)

/-- A layout of `n` bytes. -/
def sized (l : List Byte) (n : Nat) (c : HostCmd) : Parsed := if l.length = n then .ok c else .badLength

/-- The command that an opcode and its parameters spell (R72). -/
def parseHost (op : Nat) (l : List Byte) : Parsed :=
  if op = 0x0000 then sized l 0 .identify
  else if op = 0x0001 then sized l 4 (.windowRead (pByte l 0) (pByte l 1))
  else if op = 0x0002 then sized l 8 (.windowWrite (pByte l 0) (pNum 32 l 4 4))
  else if op = 0x0003 then sized l 20 (.sessionOpen (pNum 16 l 0 2) (pNum 128 l 4 16))
  else if op = 0x0004 then sized l 0 .sessionClose
  else if op = 0x0100 then
    (if 8 ≤ l.length ∧ l.length = 8 + 4 * (pNum 16 l 4 2).toNat then .ok (.stageWrite (pNum 32 l 0 4) (wordsOf (l.drop 8)))
     else .badLength)
  else if op = 0x0101 then sized l 8 (.stageRead (pNum 32 l 0 4) (pNum 16 l 4 2) (pByte l 6))
  else if op = 0x0102 then
    sized l 16 (.commit (pNum 16 l 0 2) (pByte l 2) (pByte l 3) (pNum 16 l 4 2) (pNum 64 l 8 8))
  else if op = 0x0103 then sized l 0 .abort
  else if op = 0x0104 then sized l 0 .queryEpoch
  else if op = 0x0200 then sized l 4 (.arm (pNum 32 l 0 4))
  else if op = 0x0201 then sized l 4 (.disarm (pNum 32 l 0 4))
  else if op = 0x0202 then sized l 8 (.setReference (pByte l 0) (pByte l 1) (pNum 32 l 4 4))
  else if op = 0x0203 then sized l 4 (.tripClear (pNum 32 l 0 4))
  else if op = 0x0300 then sized l 8 (.captureStart (pNum 32 l 0 4) (pNum 32 l 4 4))
  else if op = 0x0301 then sized l 0 .captureTrigger
  else if op = 0x0302 then sized l 12 (.captureRead (pNum 64 l 0 8) (pNum 32 l 8 4))
  else if op = 0x0303 then sized l 16 (.captureFreeze (pByte l 0) (pNum 64 l 8 8))
  else if op = 0x0400 then sized l 6 (.ledgerRead (pNum 32 l 0 4) (pNum 16 l 4 2))
  else if op = 0x0401 then sized l 84 (.ledgerAck (pNum 32 l 0 4) (pNum 128 l 4 16) (pNum 256 l 20 32) (pNum 256 l 52 32))
  else if op = 0x0402 then sized l 0 .ledgerStatus
  else if op = 0x0500 then sized l 12 (.timeSet (calOf l))
  else if op = 0x0501 then sized l 0 .timeQuery
  else if op = 0x0600 then
    (if 16 ≤ l.length ∧ l.length ≤ 9152 ∧ l.length % 8 = 0 then
      .ok (.imageWrite (pByte l 0) (pByte l 1) (pNum 32 l 4 4) (l.drop 8)) else .badLength)
  else if op = 0x0601 then sized l 4 (.imageActivate (pByte l 0))
  else if op = 0x0602 then sized l 0 .imageStatus
  else if op = 0x0700 then sized l 4 (.modeRequest (pByte l 0))
  else if op = 0x0701 then sized l 4 (.vote (pByte l 0) (pByte l 1))
  else if op = 0x0800 then
    (if 4 ≤ l.length ∧ l.length = 4 + 4 * (pByte l 1).toNat then .ok (.mbxPut (pByte l 0) (wordsOf (l.drop 4)))
     else .badLength)
  else if op = 0x0801 then sized l 4 (.mbxGet (pByte l 0) (pByte l 1))
  else if op = 0x0900 then sized l 4 (.enumerate (pByte l 0))
  else if op = 0x0901 then sized l 0 .ringStatus
  else if op = 0x0902 then
    sized l 12 (.faultInject (pByte l 0) (pByte l 1) (pNum 16 l 2 2) (pNum 16 l 4 2) (pNum 16 l 6 2) (pByte l 8))
  else if op = 0x0A00 then sized l 4 (.lcAdvance (pByte l 0))
  else if op = 0x0A01 then sized l 80 (.returnRequest (pNum 128 l 0 16) (pNum 256 l 16 32) (pNum 256 l 48 32))
  else if op = 0x0A02 then
    sized l 88 (.replaceHandover (pByte l 0) (pNum 32 l 4 4) (pNum 128 l 8 16) (pNum 256 l 24 32) (pNum 256 l 56 32))
  else .badOpcode

/-! ### The header (R47, R48) -/

/-- The opcode is a window opcode. -/
def isWindow (op : Nat) : Bool := op == 1 || op == 2

/-- The priority level of a Wembi frame that is forwarded (R299). DESIGN CHOICE: what arrives does not say whether a frame
came as an express frame; window frames, and requests with the express flag, count as such. -/
def forwardLevel (express : Bool) (op : Nat) : Nat := if isWindow op || express then 5 else 6

def flagBit (b : Bool) (k : Nat) : Nat := if b then 2 ^ k else 0

/-- The header of a request (R47, R48). -/
def requestHeader (rq : Req) (op len : Nat) : List Byte :=
  [0x02#8, BitVec.ofNat 8 (flagBit rq.express 6 + flagBit rq.ackReq 5 + flagBit (isWindow op) 4 + flagBit rq.auth 3),
    rq.dst, 0xFE#8] ++ beBytes 2 rq.seq.toNat ++ beBytes 2 op ++ beBytes 2 len ++ beBytes 2 rq.epoch.toNat ++
    beBytes 4 rq.tag.toNat

/-- The header and parameters of a request, which its CMAC covers (R58). -/
def requestBody (rq : Req) (cmd : HostCmd) : List Byte :=
  requestHeader rq (hostOp cmd) (hostParams cmd).length ++ hostParams cmd

/-- The header and parameters of a reply from source `src` (R47, R58). -/
def replyBody (src : Nat) (r : Reply) : List Byte :=
  [0x02#8, BitVec.ofNat 8 (0x80 + flagBit r.cmd.key.isSome 3), 0xFE#8, BitVec.ofNat 8 src] ++
    beBytes 2 r.cmd.rq.seq.toNat ++ beBytes 2 r.cmd.op ++ beBytes 2 r.params.length ++ beBytes 2 r.status ++
    beBytes 4 r.cmd.rq.tag.toNat ++ r.params

/-- The bytes behind the EtherType, and the 802.1Q tag. -/
def frameContent (l : List Byte) : List Byte := if ofBeBytes ((l.drop 12).take 2) = 0x8100 then l.drop 18 else l.drop 14
def frameTag (l : List Byte) : Option (BitVec 16) :=
  if ofBeBytes ((l.drop 12).take 2) = 0x8100 then some (pNum 16 l 14 2) else none

/-- The request header in a frame's content (R47, R48). -/
def parseReq (port : PortId) (l : List Byte) : Req :=
  let h := frameContent l
  let fl := pByte h 1
  { port := port, seq := pNum 16 h 4 2, tag := pNum 32 h 12 4, mac := pNum 48 l 6 6, dst := pByte h 2,
    auth := fl.getLsbD 3, express := fl.getLsbD 6, ackReq := fl.getLsbD 5, epoch := pNum 16 h 10 2, vlan := frameTag l }

/-! ### Device frames (R309, R312, R315, R319) -/

/-- Heartbeat parameters (R309). -/
def heartbeatParams (h : Heartbeat) : List Byte :=
  beBytes 4 h.rev.toNat ++ beBytes 4 h.mode.toNat ++ beBytes 4 h.fault.toNat ++ beBytes 2 h.act.toNat ++
    beBytes 2 h.pend.toNat ++ beBytes 4 h.ptpoff.toNat ++ beBytes 2 h.group.toNat ++ [h.flags, 0#8] ++
    beBytes 4 h.tripped.toNat ++ beBytes 4 h.armed.toNat ++ beBytes 8 h.time.toNat

def parseHeartbeat (l : List Byte) : Heartbeat :=
  { rev := pNum 32 l 0 4, mode := pNum 32 l 4 4, fault := pNum 32 l 8 4, act := pNum 16 l 12 2, pend := pNum 16 l 14 2,
    ptpoff := pNum 32 l 16 4, group := pNum 16 l 20 2, flags := pByte l 22, tripped := pNum 32 l 24 4,
    armed := pNum 32 l 28 4, time := pNum 64 l 32 8 }

/-- One record of an angle share (R312). -/
def recordBytes (r : ShareRecord) : List Byte :=
  [r.track, r.flags] ++ beBytes 2 r.turn.toNat ++ beBytes 4 r.angle.toNat ++ beBytes 6 r.vel.toNat ++ zeros 2

/-- Angle-share parameters (R312). -/
def shareParams (sh : AngleShare) : List Byte :=
  beBytes 8 sh.time.toNat ++ [BitVec.ofNat 8 sh.records.length] ++ zeros 7 ++ sh.records.flatMap recordBytes

def parseRecord (l : List Byte) : ShareRecord :=
  { track := pByte l 0, flags := pByte l 1, turn := pNum 16 l 2 2, angle := pNum 32 l 4 4, vel := pNum 48 l 8 6 }

def parseShare (l : List Byte) : AngleShare :=
  { time := pNum 64 l 0 8,
    records := (List.range (pByte l 8).toNat).map (fun i => parseRecord (l.drop (16 + 16 * i))) }

/-- Ring-trip parameters (R315). -/
def parseTrip (l : List Byte) : RingTrip :=
  { groups := pByte l 0, cause := pByte l 1, rep := pNum 16 l 2 2, time := pNum 64 l 4 8 }

/-- Parameters of a commit-ready or commit-abort frame (R319). -/
def votesParams (epoch : BitVec 16) (t : Nat) : List Byte := beBytes 2 epoch.toNat ++ zeros 6 ++ beBytes 8 t

end Sys2Proof.Machine
end

