-- ==== Sys2Proof/Machine/Startup.lean ====
section
/-!
DEFINITION. Machine/Startup.lean: the always-on start, the resets by pin and by watchdog, the image slots and
the boot decisions, and the persisted configuration (19, R338).
-/
namespace Sys2Proof.Machine

/-! ### The always-on start (R610 to R612) -/

/-- `ALWAYS_ON_START`: the straps are latched, the HOST votes are cast where R611 says so, the engine and the AOC
start (R610, R611). -/
def State.aoStarted (s : State) : State :=
  if s.ao.phase = .starting then
    let s := s.wr APM_STRAP.adr (BitVec.ofNat 32 (s.ao.boot % 4 + 4 * b2n s.ao.gpol))
    let cast := (s.ao.full || s.ao.byPin) && s.ao.vsys
    let s := { s with ao := { s.ao with phase := .on, full := false, byPin := false } }
    let s := if cast then ((s.raise (APM_VOTE.HOST 0)).raise (APM_VOTE.HOST 1)).raise (APM_VOTE.HOST 2) else s
    s.wakeBrc.domainVotes
  else s

/-! ### Reset by pin and by watchdog (R613 to R616) -/

/-- `PORESET_n` falls: the fast, memory and link domains are reset; the always-on domain restarts, or will
once the final sequence is complete (R613, R614, R649). -/
def State.poreset (s : State) : State :=
  if s.ao.phase = .off then s
  else
    let full := decide (s.ao.phase = .starting) && s.ao.full
    let s := s.raise APM_RSTCAUSE.PIN
    let s := if s.mode = mField then s.dropField.modeTo mYard else s
    let s := { s with ao := { s.ao with toField := false, byPin := true } }
    let s := ((s.dropTo5 0).dropTo5 1).dropTo5 2
    if s.on HRV_STAT.SEALING then { s with ao := { s.ao with restart := true } }
    else (s.aoStart full).wr APM_RSTCAUSE.adr (s.rd APM_RSTCAUSE.adr)

/-- `WATCHDOG_EXPIRY`: TIMEOUT is reached, or with RSTEN the millisecond after it is over (R616). -/
def State.watchdog (s : State) : State :=
  if s.fastUp && s.on CPM_WDOG.EN then
    match s.wdog.expired with
    | none =>
      let s := s.reach (s.wdog.since + usLc (1000 * max 1 (s.get CPM_WDOG.TIMEOUT)))
      { s with wdog := { s.wdog with expired := some s.now }, fcode := 0x0F01 }
    | some c =>
      if s.on CPM_WDOG.RSTEN then ((s.reach (c + usLc 1000)).raise APM_RSTCAUSE.WDOG).fastReset else s
  else s

/-! ### Image slots (R618, R619) -/

def slotBase (k : Nat) : Nat := 0x10100000 + 0x800000 * k
def slotSize : Nat := 0x800000

/-- Version and length in a slot's header (R618). -/
def State.imgVersion (s : State) (k : Nat) : Nat := s.le (slotBase k + 4) 4
def State.imgLength (s : State) (k : Nat) : Nat := s.le (slotBase k + 8) 4

/-- The image key of the life-cycle state (R388). -/
def State.imageKey (s : State) : Option (BitVec 512) :=
  match s.lcs with
  | .maker | .returned => some Config.makerImageKey
  | .provisioned | .deployed => s.sec.oemImage

/-- The digest of `len` bytes of slot `k` from offset `off` equals `pos` to `pos + 31` of the header; it does not where a
word cannot be read (R333; DEDUCED). -/
def State.digestOk (s : State) (k off len pos : Nat) : Bool :=
  !s.spoiltAny (slotBase k + off) len &&
  sha256 (s.bytes (slotBase k + off) len) == s.bytes (slotBase k + pos) 32

/-- The header of slot `k`: magic, length, zero bytes, class and signature are right (R619). -/
def State.headerOk (s : State) (k : Nat) : Bool :=
  let b := slotBase k
  let len := s.imgLength k
  !s.spoiltAny b 256 && decide (s.le b 4 = 0x544D4731 ∧ 256 ≤ len ∧ len ≤ slotSize) &&
    s.byte (b + 15) == 0#8 && (s.bytes (b + 160) 96).all (fun x => x == 0#8) &&
    s.byte (b + 12) == Config.revClass &&
    (match s.imageKey with
     | none => false
     | some key => ecdsaVerify key (s.bytes b 96) (ofBeBytes (s.bytes (b + 96) 32)) (ofBeBytes (s.bytes (b + 128) 32)))

/-- The AOC section of slot `k` has its digest. -/
def State.sectionOk (s : State) (k : Nat) : Bool :=
  s.digestOk k (s.le (slotBase k + 24) 4) (s.le (slotBase k + 28) 4) 64

/-- Slot `k` verifies (R619). -/
def State.slotOk (s : State) (k : Nat) : Bool :=
  s.headerOk k && s.digestOk k 256 (s.imgLength k - 256) 32 && s.sectionOk k

/-- The state that `IMAGE_STATUS` shows for slot `k` (R91). -/
def State.setImg (s : State) (k : Fin 2) (st : Nat) : State :=
  { s with img := s.img.set k { s.img[k] with state := st } }

/-- The verification of slot `k` is complete: verified or failed (R91, R619). -/
def State.verifySlot (s : State) (k : Fin 2) : State :=
  (s.eccReads (slotBase k) slotSize).setImg k (if s.slotOk k then 3 else 4)

/-- The slots of `l` are read in order, up to the first for which `ok` holds (R333). -/
def State.trySlots (s : State) (l : List (Fin 2)) (ok : Fin 2 → Bool) : State :=
  (l.take (l.findIdx ok + 1)).foldl (fun (s : State) (k : Fin 2) => s.eccReads (slotBase k) slotSize) s

/-! ### The boot decisions (R620, R621, R623) -/

/-- The boot word, and the slot it prefers (R620). -/
def bootWordAddr : Nat := 0x11B40000
def State.preferred (s : State) : Fin 2 :=
  let w := s.le bootWordAddr 8
  if w = 1 then 1 else 0

/-- The slots in the order in which they are tried; none when the straps ask for the recovery loader (R612,
R620). -/
def State.bootOrder (s : State) : List (Fin 2) :=
  let b := s.get APM_STRAP.BOOT
  if b = 2 then []
  else
    let p : Fin 2 := if b = 1 then 1 else s.preferred
    [p, 1 - p]

/-- The boot ROM of MGT0 decides what runs (R620). Its jump, and the registers that the images find, are not
modelled: the spec gives no capability for an image. -/
def State.bootDecision (s : State) : State :=
  if s.fastUp && decide (s.get CPM_BOOT.FWST = 1) && s.wdog.expired.isNone then
    let s := s.linkRelease
    let order := s.bootOrder
    let found := order.find? (fun (k : Fin 2) => s.slotOk k)
    let s := s.trySlots order (fun k => s.slotOk k)
    match found with
    | some k =>
      let p := order.headD 0
      let s := if k = p then s else s.setImg p 4
      let s := s.setImg k 3
      let h := slotBase k
      let w := (s.byte (h + 13)).toNat * 2 ^ 24 + (s.byte (h + 14)).toNat * 2 ^ 16 +
        (if k = p then 0x200 else 0x1300) + k.val
      let s := s.wr CPM_BOOT.adr (BitVec.ofNat 32 w)
      { s with core := s.core.set 3 { s.core[3] with held := false } }
    | none =>
      let s := order.foldl (fun (s : State) (k : Fin 2) => s.setImg k 4) s
      let s := s.modCore 2 (fun c => c.setSvc 3)
      ((s.set CPM_BOOT.FWST 2).set CPM_BOOT.FWMAJ 0).set CPM_BOOT.FWMIN 0
  else s

/-- The recovery loader runs on MGT0 (R620, R621). -/
def State.recovering (s : State) : Bool :=
  s.fastUp && decide (s.get CPM_BOOT.FWST = 2) && decide ((s.core[2]).svc = 3)

/-- AOC SRAM (R24). -/
def aocSram : Nat := 0x41000000
def aocSramSize : Nat := 0x50000

/-- The AOC's boot path: the first slot in order whose header and AOC section are right gives the section, which
goes to AOC SRAM; without one the AOC waits (R623). -/
def State.aocBoot (s : State) : State :=
  if s.aocAwake then
    let ok (k : Fin 2) : Bool := s.headerOk k && s.sectionOk k && decide (s.le (slotBase k + 28) 4 ≤ aocSramSize)
    let found := s.bootOrder.find? ok
    let s := s.trySlots s.bootOrder ok
    match found with
    | some k => s.putBytes aocSram (s.bytes (slotBase k + s.le (slotBase k + 24) 4) (s.le (slotBase k + 28) 4))
    | none => s.modCore 4 (fun c => { c with waiting := true })
  else s

/-! ### The persisted configuration (R338, R624) -/

/-- Copies A and B. -/
def copyBase (k : Nat) : Nat := 0x11900000 + 0x100000 * k
def copySize : Nat := 0x100000

/-- The length of a copy without its check word: a header of 16 bytes, and 8 bytes an item, its address and its
word (DESIGN CHOICE: the spec gives no layout of the items). -/
def State.copyLen (s : State) (k : Nat) : Nat := 16 + 8 * s.le (copyBase k + 12) 4

/-- Copy `k` is valid (R624); it is not where a word of it cannot be read (R333; DEDUCED). -/
def State.copyOk (s : State) (k : Nat) : Bool :=
  let n := s.copyLen k
  !s.spoiltAny (copyBase k) (n + 16) && decide (s.le (copyBase k) 4 = 0x43464731 ∧ n + 16 ≤ copySize) &&
    (sha256 (s.bytes (copyBase k) n)).take 16 == s.bytes (copyBase k + n) 16

/-- The generation of copy `k`. -/
def State.copyGen (s : State) (k : Nat) : Nat := s.le (copyBase k + 4) 4

/-- The newest valid copy (R624). -/
def State.newestCopy (s : State) : Option (Fin 2) :=
  if s.copyOk 0 then (if s.copyOk 1 && decide (s.copyGen 0 < s.copyGen 1) then some 1 else some 0)
  else if s.copyOk 1 then some 1 else none

/-- The items of copy `k`. -/
def State.copyItems (s : State) (k : Nat) : List (Nat × Word) :=
  (List.range (s.le (copyBase k + 12) 4)).map (fun j =>
    (s.le (copyBase k + 16 + 8 * j) 4, BitVec.ofNat 32 (s.le (copyBase k + 20 + 8 * j) 4)))

/-- The active configuration: the items whose words differ from reset. -/
def State.activeItems (s : State) : List (Nat × Word) :=
  s.reg.filter (fun kv => (itemAt kv.1).isSome)

/-- The active configuration and its epoch go to the copy that is not the newest valid one (R89, R338). -/
def State.persist (s : State) : State :=
  let k : Fin 2 := match s.newestCopy with
    | some i => 1 - i
    | none => 0
  let gen := match s.newestCopy with
    | some i => s.copyGen i + 1
    | none => 0
  let items := s.activeItems
  let body := leBytes 4 0x43464731 ++ leBytes 4 gen ++ leBytes 2 s.epoch.toNat ++ leBytes 2 0 ++
    leBytes 4 items.length ++ items.flatMap (fun (e : Nat × Word) => leBytes 4 e.1 ++ leBytes 4 e.2.toNat)
  s.putBytes (copyBase k) (body ++ (sha256 body).take 16)

/-- Stage a word for an item, as far as it is one. -/
def State.stageItem (s : State) (e : Nat × Word) : State :=
  match itemAt e.1 with
  | some m => s.stage e.1 m e.2
  | none => s

/-- The root takes its address and its reference (R294). -/
def State.becomeRoot (s : State) : State :=
  if s.on RING_CFG.ROOT then
    let s := { s with addr := some 0 }
    if s.get CPM_CLK_CTRL.SRC = 2 then s else s.switchReq 2
  else s

/-- `CONFIG_RESTORE`: the newest valid copy becomes active in one switch cycle; items that it does not list take
their reset values (R294, R624). -/
def State.configRestore (s : State) : State :=
  if s.fastUp && decide (2 ≤ s.get CPM_BOOT.FWST) && s.wdog.expired.isNone && !s.recovering && !s.restored then
    let newest := s.newestCopy
    let s := ({ s with restored := true }.eccReads (copyBase 0) copySize).eccReads (copyBase 1) copySize
    match newest with
    | none => s
    | some k =>
      let ep := BitVec.ofNat 16 (s.le (copyBase k + 8) 2)
      let items := s.copyItems k
      let s := (s.activeItems.map (fun (e : Nat × Word) => (e.1, resetWord e.1))).foldl State.stageItem s
      let s := (items.foldl State.stageItem s).switchBank
      ({ s with epoch := ep } : State).becomeRoot
  else s

end Sys2Proof.Machine
end

