-- ==== Sys2Proof/Machine/Window.lean ====
section
/-!
DEFINITION. Machine/Window.lean: the register window (02, R66 to R71) and the replies that leave the device (R43,
R47, R54 to R56).
-/
namespace Sys2Proof.Machine

/-! ### Window registers -/

/-- Fast-side signals reach the window: the domain is not clamped (R33). -/
def State.fastSeen (s : State) : Bool := decide ((s.dom[0]).level < 3)

def bitIf (b : Bool) (k : Nat) : Nat := if b then 2 ^ k else 0

/-- `WIN_ID`. -/
def State.winId (s : State) : Word :=
  BitVec.ofNat 32 (0x64800000 + (match s.addr with
    | some a => 256 + a
    | none => 0))

/-- `WIN_MODE`. -/
def State.winMode (s : State) : Word :=
  BitVec.ofNat 32 (lcsCode s.lcs * 2 ^ 24 + fieldOf s.bootWord 0 0 * 2 ^ 16 + s.fwst * 2 ^ 8 +
    bitIf (s.fastSeen && s.anyArmed) 3 + s.mode)

/-- The part of `WIN_FAULT` that blocks of the fast domain hold. -/
def State.fastFaults (s : State) : Nat :=
  bitIf (decide (s.trippedMask ≠ 0)) 31 + bitIf (s.locked[0] || s.locked[1]) 30 +
    bitIf ((List.range 16).any (fun n => s.on (SLC_STAT.TWIN n))) 29 +
    bitIf ((List.finRange 16).any (fun (n : Fin 16) => (s.trk[n]).lost)) 28 +
    bitIf ((List.range 12).any (fun k => s.on (CVPAIR_STAT.FAULT k))) 27 + bitIf (s.on GOU_RTRIP.RX) 26 +
    bitIf (s.on CPM_ECC_STAT.UE || s.on MEMC_ECC_STAT.UE) 25 + bitIf (fieldOf s.bootWord 12 12 == 1) 24 + bitIf (s.on CPM_CLK_STAT.HOLD) 23

/-- `WIN_FAULT`. -/
def State.winFault (s : State) : Word :=
  BitVec.ofNat 32 ((if s.fastSeen then s.fastFaults else 0) + bitIf s.ptpOff 22 + bitIf (s.on RING_STAT.VERHOLD) 21 +
    bitIf s.lgr.condense 20 + s.fcode % 65536)

/-- `WIN_EPOCH.PEND`: the epoch of a commit that awaits its switch. -/
def State.pendEpoch (s : State) : BitVec 16 :=
  match s.commit with
  | some c => if c.switched then 0 else c.epoch
  | none => 0

/-- `WIN_EPOCH`. -/
def State.winEpoch (s : State) : Word := s.pendEpoch ++ s.epoch

/-- `WIN_LINK`. -/
def State.winLink (s : State) : Word :=
  let a := s.port[0]
  let b := s.port[1]
  BitVec.ofNat 32 (bitIf a.up 31 + bitIf b.up 30 + bitIf a.preempt 29 + bitIf b.preempt 28 +
    (if s.fastSeen then s.get CPM_CLK_STAT.CUR else 2) * 2 ^ 24 + min 255 a.fec * 2 ^ 16 + min 255 b.fec * 2 ^ 8 +
    bitIf (s.fastSeen && s.on CPM_CLK_STAT.HOLD) 1 + s.upstream.val)

/-- The window register at offset `4 * k` (R66 to R71, R290). -/
def State.window (s : State) (k : Nat) : Word :=
  if k = 0 then s.winId
  else if k = 1 then s.winRev
  else if k = 2 then s.winMode
  else if k = 3 then s.winFault
  else if k = 4 then s.winEpoch
  else if k = 5 then BitVec.ofNat 32 (s.ptp / 2 ^ 32)
  else if k = 6 then BitVec.ofNat 32 s.ptp
  else if k = 7 then (if s.mbxOpen then s.rd MBX_BELL.adr else 0)
  else if k = 9 then BitVec.ofNat 32 (min 255 s.nocred * 2 ^ 16 + s.credits)
  else if k = 10 then s.winLink
  else if k = 11 then s.scratch
  else 0

/-! ### Replies -/

/-- Replies leave by the upstream port; a device without an address answers where the request came (R302,
R307). -/
def State.replyPort (s : State) (rq : Req) : PortId := if s.addr.isSome then portOf s.upstream else rq.port

/-- The priority level of a reply (R40, R48, R299). -/
def Reply.level (r : Reply) : Nat := if isWindow r.cmd.op || r.cmd.rq.express then 5 else 8

/-- A reply becomes ready to leave the device (R43, R47, R58). DESIGN CHOICE: a kept reply that is sent again (R56) is built
anew, with the ring address, MAC address, EtherType and upstream port of that time; the spec does not say whether it goes
out byte for byte as before. -/
def State.transmit (s : State) (r : Reply) : State :=
  let body := replyBody (s.addr.getD 0xFF) r
  let mac : List Byte := match r.cmd.key with
    | some k => cmac k body
    | none => []
  s.sendOn (s.replyPort r.cmd.rq) r.level
    (etherFrame r.cmd.rq.mac s.mac r.cmd.rq.vlan (s.get ETH_ETYPE.VALUE) (body ++ mac))

/-- A reply of the link responder, which holds no credit. -/
def State.answerNow (s : State) (w : Waiting) (status : Nat) (params : List Byte) : State :=
  s.transmit { cmd := w, status := status, params := params, credit := false }

/-- The oldest final reply leaves: its credit returns, and it is kept (R54 to R56). -/
def State.sendFinal (s : State) : State :=
  match s.replies with
  | [] => s
  | r :: l =>
    if s.domUp .link then
      let s := { s with replies := l }.transmit r
      let e : Kept := { seq := r.cmd.rq.seq, op := r.cmd.op, tag := r.cmd.rq.tag, mac := r.cmd.rq.mac, reply := r }
      let kept := s.kept ++ [e]
      { s with credits := min 16 (s.credits + 1), kept := kept.drop (kept.length - 16) }
    else s

/-- All replies that are ready leave. -/
def State.sendFinals : Nat → State → State
  | 0, s => s
  | n + 1, s => State.sendFinals n s.sendFinal

def State.sendAll (s : State) : State := State.sendFinals s.replies.length s

end Sys2Proof.Machine
end

