-- ==== Sys2Proof/Machine/Link.lean ====
section
/-!
DEFINITION. Machine/Link.lean: sessions (R57 to R62), where a request or reply goes (R42, R49, R296, R300, R301),
and the checks that the link responder makes itself (R51).
-/
namespace Sys2Proof.Machine

/-! ### Sessions -/

/-- The open session with a tag. -/
def State.session (s : State) (tag : Word) : Option Session := s.sessions.find? (fun x => x.tag == tag)

/-- A sequence number exceeds the last one by 1 to 32,767 (R59). -/
def seqFollows (last : Option (BitVec 16)) (q : BitVec 16) : Bool :=
  match last with
  | none => true
  | some p => decide (1 ≤ (q - p).toNat ∧ (q - p).toNat ≤ 32767)

/-- An authenticated request is accepted in its session (R59, R60). -/
def State.useSession (s : State) (tag : Word) (q : BitVec 16) : State :=
  { s with sessions := s.sessions.map (fun (x : Session) =>
      if x.tag = tag then { x with last := some q, count := x.count + 1, cycle := s.now } else x) }

/-- A session closes after its 65,535th authenticated request (R60). -/
def State.wornOut (s : State) (tag : Word) : State :=
  match s.session tag with
  | some x => if 65535 ≤ x.count then s.closeSession tag else s
  | none => s

/-- `SESSION_TIMEOUT`: 60 s without an authenticated request (R60). -/
def State.sessionTimeout (s : State) (tag : Word) : State :=
  match s.session tag with
  | some x => (s.reach (x.cycle + usLc 60000000)).closeSession tag
  | none => s

/-! ### Requests as they arrive -/

/-- A request at the link responder (R47, R48): header, version byte, window-frame flag, opcode, parameters,
header and parameters as their CMAC covers them, and the CMAC. -/
structure Incoming where
  rq : Req
  ver : Byte
  win : Bool
  op : Nat
  params : List Byte
  body : List Byte
  mac : List Byte
  deriving DecidableEq, Repr

/-- The CMAC that the sender of an authenticated request appends (R58): under the session's key, and for a
session of another device a value that this device cannot know. -/
def State.senderMac (s : State) (rq : Req) (body : List Byte) : List Byte :=
  if rq.auth then
    match s.session rq.tag with
    | some x => cmac x.key body
    | none => beBytes 16 (Config.foreignCmac body).toNat
  else []

/-- A host command as a request. -/
def State.incoming (s : State) (rq : Req) (c : HostCmd) : Incoming :=
  { rq := rq, ver := 2, win := isWindow (hostOp c), op := hostOp c, params := hostParams c,
    body := requestBody rq c, mac := s.senderMac rq (requestBody rq c) }

/-! ### Where a request goes -/

/-- A group or broadcast destination. -/
def manyDest (d : Byte) : Bool := d == 0xFF || decide (0x80 ≤ d.toNat ∧ d.toNat ≤ 0x8F)

/-- Whether a request is consumed, and whether it is forwarded (R42, R294, R296, R300, R301). -/
def State.routeRequest (s : State) (rq : Req) (op : Nat) : Bool × Bool :=
  let d := rq.dst.toNat
  if s.on RING_CFG.ROOT ∧ rq.port = .pa then (false, false)
  else if d = 0xFF then
    (if s.addr.isNone then (true, false)
     else if op = 0x0900 ∨ op = 0x0003 then (false, true) else (true, true))
  else if s.addr = some d then (true, false)
  else if 0x80 ≤ d ∧ d ≤ 0x8F ∧ s.bit ETH_GROUP.MEMBER (d - 0x80) then (true, true)
  else (false, true)

/-- The destination byte of a request is one that devices pass on (R49). -/
def destOk (d : Byte) : Bool := !(decide (0x40 ≤ d.toNat ∧ d.toNat ≤ 0x7F) || decide (0x90 ≤ d.toNat ∧ d.toNat ≤ 0xFE))

/-! ### The link responder's checks (R51, R54 to R56, R59) -/

/-- How the link responder takes a request. -/
inductive Verdict
  | refuse (status : Nat)
  | again (r : Reply)
  | window
  | command
  deriving DecidableEq, Repr

/-- The session that authenticates a request: open, and the CMAC verifies under its key. -/
def State.authBy (s : State) (i : Incoming) : Option Session :=
  if i.rq.auth then
    match s.session i.rq.tag with
    | some x => if cmac x.key i.body = i.mac then some x else none
    | none => none
  else none

/-- Check 5 with R59. -/
def State.authOk (s : State) (i : Incoming) : Bool :=
  !i.rq.auth || (match s.authBy i with
    | some x => seqFollows x.last i.rq.seq
    | none => false)

/-- The kept reply that a request asks for again (R56). -/
def State.keptReply (s : State) (i : Incoming) : Option Reply :=
  if i.rq.auth && (s.authBy i).isNone then none
  else (s.kept.find? (fun (k : Kept) =>
    k.seq == i.rq.seq && k.op == i.op && k.tag == i.rq.tag && k.mac == i.rq.mac)).map (·.reply)

/-- The status of a command frame at check 3: for a state that `WIN_MODE.FWST` does not name the spec gives no
status, and it is free. -/
def State.fwstStatus (s : State) : Nat :=
  let f := s.fwst
  if f = 0 ∨ f = 1 then 0x0300 else if f = 4 then 0x0F00 else Config.freeNat s.free % 65536

/-- Checks 1 to 5, in their order, with the retransmission between 5 and 3 (R51, R56). -/
def State.judge (s : State) (i : Incoming) : Verdict :=
  if i.ver ≠ 2 then .refuse 0x0103
  else if i.win ≠ isWindow i.op then .refuse (if i.win then 0x0100 else 0x0102)
  else match s.keptReply i with
    | some r => .again r
    | none =>
      if i.win then (if s.authOk i then .window else .refuse 0x0202)
      else if s.fwst ≠ 2 ∧ s.fwst ≠ 3 then .refuse s.fwstStatus
      else if s.credits = 0 then .refuse 0x0301
      else if s.authOk i then .command else .refuse 0x0202

/-- The command as it waits: the key of its session goes with it. -/
def State.waitingOf (s : State) (i : Incoming) : Waiting :=
  { rq := i.rq, op := i.op, key := (s.authBy i).map (·.key) }

/-! ### Window commands (R67 to R71, R290) -/

/-- Checks 6 to 12 of a window command. -/
def State.windowCheck (s : State) (w : Waiting) (params : List Byte) : Parsed × Nat :=
  match parseHost w.op params with
  | .badOpcode => (.badOpcode, 0x0100)
  | .badLength => (.badLength, 0x0101)
  | .ok c =>
    let right : Bool := match s.session w.rq.tag with
      | some x => w.key.isSome && x.rights.getLsbD 11
      | none => false
    (.ok c,
      if w.op = 2 ∧ s.lcs ≠ .maker ∧ !right then 0x0202
      else if w.rq.epoch ≠ 0 ∧ w.rq.epoch ≠ s.epoch then 0x0200
      else match c with
        | .windowRead off cnt =>
          if params = hostParams c ∧ off.toNat % 4 = 0 ∧ 1 ≤ cnt.toNat ∧ cnt.toNat ≤ 12 ∧
            off.toNat + 4 * cnt.toNat ≤ 0x30 then 0 else 0x0102
        | .windowWrite off _ =>
          if (off = 0x1C ∨ off = 0x20) ∧ !s.mbxOpen then 0x0201
          else if params = hostParams c ∧ !w.rq.express ∧ (off = 0x1C ∨ off = 0x20 ∨ off = 0x2C) then 0
          else 0x0102
        | _ => 0x0100)

/-- A window write takes effect: doorbells and mailbox 2 lc later (R289, R292). -/
def State.windowStore (s : State) (off : Byte) (val : Word) : State :=
  if off = 0x2C then { s with scratch := val }
  else s.later (s.now + 2) (.window (decide (off = 0x1C)) val)

/-- The link responder answers a window command itself (R66). -/
def State.windowCommand (s : State) (w : Waiting) (params : List Byte) : State :=
  match s.windowCheck w params with
  | (.ok c, 0) =>
    let s := if w.rq.ackReq then s.answerNow w 1 [] else s
    (match c with
     | .windowRead off cnt =>
       s.answerNow w 0 (wordBytes ((List.range cnt.toNat).map (fun k => s.window (off.toNat / 4 + k))))
     | .windowWrite off val => (s.answerNow w 0 []).windowStore off val
     | _ => s)
  | (_, st) => s.answerNow w st []

end Sys2Proof.Machine
end

