-- ==== Sys2Proof/Machine/HostChecks.lean ====
section
/-!
DEFINITION. Machine/HostChecks.lean: the checks 6 to 12 that firmware makes of a host command (R51, R52, R62 to
R65, R73 to R76, R79, R80, R82 and the chapters of the blocks).
-/
namespace Sys2Proof.Machine

/-! ### Check 8: life-cycle state (R65, R379, R387, R392) -/

/-- All five provisioning items are loaded (R387, R389). -/
def SecSt.loaded (x : SecSt) : Bool :=
  x.mac.isSome && x.etype.isSome && x.oemSession.isSome && x.oemImage.isSome && x.oemLedger.isSome

/-- An advance to state `t` is one the life-cycle permits, mode and supply apart (R387). -/
def State.advanceOk (s : State) (t : Nat) : Bool :=
  match s.lcs with
  | .maker => t == 1 && s.sec.loaded
  | .provisioned => t == 2 && s.on RTC_STAT.SET
  | _ => false

def State.lifeOk (s : State) (op : Nat) (c : HostCmd) : Bool :=
  match s.lcs with
  | .returned =>
    !(decide (0x0100 ≤ op ∧ op < 0x0300) || [0x0401, 0x0902, 0x0A00, 0x0A01, 0x0A02].contains op)
  | l =>
    if op = 0x0400 ∨ op = 0x0401 then l == .deployed
    else if op = 0x0A01 then l != .maker
    else match c with
      | .lcAdvance t => s.advanceOk t.toNat
      | _ => true

/-! ### Check 9: rights (R62 to R64) -/

/-- The right that an opcode requires, as its bit (R62, R72). -/
def rightOf (op : Nat) : Option Nat :=
  if op = 0x0002 then some 11
  else if op = 0x0100 ∨ op = 0x0102 ∨ op = 0x0103 then some 0
  else if 0x0200 ≤ op ∧ op ≤ 0x0203 then some 1
  else if 0x0300 ≤ op ∧ op ≤ 0x0303 then some 2
  else if op = 0x0401 then some 3
  else if op = 0x0500 then some 4
  else if op = 0x0600 ∨ op = 0x0601 then some 5
  else if op = 0x0700 ∨ op = 0x0701 then some 6
  else if op = 0x0800 ∨ op = 0x0801 then some 7
  else if op = 0x0900 then some 8
  else if op = 0x0902 then some 9
  else if 0x0A00 ≤ op ∧ op ≤ 0x0A02 then some 10
  else none

/-- The rights that a session may hold (R63). -/
def rightsMask : LifeState → BitVec 16
  | .returned => 0x0DF4
  | _ => 0x0FFF

/-- The request is authenticated in a session that holds right `b`. -/
def State.holdsRight (s : State) (w : Waiting) (b : Nat) : Bool :=
  match s.session w.rq.tag with
  | some x => w.key.isSome && x.rights.getLsbD b
  | none => false

/-- Check 9. `SESSION_CLOSE` must be authenticated in the session that it closes (R72). -/
def State.rightOk (s : State) (w : Waiting) : Bool :=
  if w.op = 0x0004 then w.key.isSome
  else match rightOf w.op with
    | none => true
    | some b =>
      decide (s.lcs = .maker) || (b == 9 && decide (s.lcs = .provisioned)) || s.holdsRight w b

/-! ### Check 11: mode and domains -/

/-- The mode, drive and supply conditions of a life-cycle transition out of PROVISIONED or DEPLOYED (R387, R392). -/
def State.yardIdle (s : State) : Bool := decide (s.mode = mYard) && !s.anyArmed && s.ao.vsys

/-- Check 11 (R73, R75, R290, R352, R354, R387, R392, R500, R621); a command that firmware carries out through the
registers of a block needs that block's clock (DEDUCED). -/
def State.modeOk (s : State) (op : Nat) (c : HostCmd) : Bool :=
  if s.recovering && !(decide (op < 0x0100) || decide (0x0600 ≤ op ∧ op < 0x0700)) then false
  else match c with
    | .arm mask =>
      s.blockUp blkGOU && decide (s.mode = mField) && decide (s.trippedMask &&& mask.toNat = 0)
    | .disarm _ | .tripClear _ => s.blockUp blkGOU
    | .setReference _ _ _ => s.blockUp blkSLC
    | .captureStart _ _ => s.domUp .mem && s.blockUp blkGRN
    | .captureTrigger => s.domUp .mem && s.blockUp blkGRN && s.grnState == gRun
    | .captureRead _ _ => s.domUp .mem && s.blockUp blkGRN && s.grnState == gFrozen
    | .captureFreeze _ _ => s.domUp .mem && s.blockUp blkGRN && s.grnOpen
    | .mbxPut _ _ | .mbxGet _ _ => s.mbxOpen
    | .lcAdvance t => t != 2 || s.yardIdle
    | .returnRequest _ _ _ => s.yardIdle
    | .modeRequest mode => (s.modeReq mode.toNat).1 != some 0x0201
    | _ => true

/-! ### Check 12: parameters -/

/-- Opcodes on which the express flag is valid (R52). -/
def expressOk (op : Nat) : Bool := [0x0001, 0x0201, 0x0203, 0x0301, 0x0303].contains op

/-- `n` words from item address `a` on are items (R79, R80). -/
def itemRange (a n : Nat) : Bool := (List.range n).all (fun k => (itemAt (a + 4 * k)).isSome)

/-- The boundary and the flags of a commit (R82, R85, R318). -/
def State.boundOk (s : State) (w : Waiting) (bound flags tmo : Nat) (arg : BitVec 64) : Bool :=
  let top := arg.toNat / 2 ^ 56
  (if bound = 0 then decide (arg = 0)
   else if bound = 1 then decide (top < 16)
   else if bound = 2 then
     decide (top < 16 ∧ arg.toNat / 2 ^ 48 % 256 ≤ 2 ∧ arg.toNat / 2 ^ 32 % 65536 = 0)
   else if bound = 3 then decide (arg.toNat ≤ s.ptp + 1000000 * tmo)
   else false) &&
  (!flags.testBit 1 || (bound == 3 && manyDest w.rq.dst))

/-- An index lies in a merged span (R380). -/
def State.inMerged (s : State) (i : Nat) : Bool := s.lgr.merged.any (fun x => decide (x.1 ≤ i ∧ i ≤ x.2))

/-- The parameters of a command are valid. -/
def State.paramsOk (s : State) (w : Waiting) (c : HostCmd) : Bool :=
  match c with
  | .stageWrite item words => decide (1 ≤ words.length ∧ words.length ≤ 2286) && itemRange item.toNat words.length
  | .stageRead item n bank =>
    decide (1 ≤ n.toNat ∧ n.toNat ≤ 2288 ∧ bank.toNat ≤ 1) && itemRange item.toNat n.toNat
  | .commit epoch bound flags tmo arg =>
    decide (epoch ≠ 0 ∧ epoch ≠ s.epoch ∧ flags.toNat ≤ 3 ∧ 1 ≤ tmo.toNat ∧ tmo.toNat ≤ 10000) &&
      s.boundOk w bound.toNat flags.toNat tmo.toNat arg
  | .setReference sl idx _ => decide (sl.toNat < 16 ∧ idx.toNat < 32)
  | .captureRead off len =>
    decide (1 ≤ len.toNat ∧ len.toNat ≤ 9152 ∧ off.toNat < s.rd2 GRN_RECLEN_LO.adr GRN_RECLEN_HI.adr)
  | .captureFreeze when t =>
    if when = 0 then true
    else decide (when.toNat ≤ 2 ∧ s.ptp ≤ t.toNat ∧ t.toNat ≤ s.ptp + 10000000000) &&
      (when != 2 || manyDest w.rq.dst)
  | .ledgerRead first cnt =>
    decide (1 ≤ cnt.toNat ∧ cnt.toNat ≤ 143 ∧ first.toNat + cnt.toNat ≤ s.newest + 1 ∧
      s.newest < first.toNat + ledgerSlots)
  | .ledgerAck idx head _ _ =>
    decide (s.get LGR_ACKED.INDEX ≤ idx.toNat ∧ idx.toNat ≤ s.newest) && !s.inMerged idx.toNat &&
      decide (beBytes 16 head.toNat = s.linkAt idx.toNat)
  | .timeSet cal => decide (cal.flags.toNat ≤ 1)
  | .imageWrite slot flags off data =>
    decide (slot.toNat ≤ 1 ∧ flags.toNat ≤ 7 ∧ off.toNat % 8 = 0 ∧ slot.toNat ≠ fieldOf s.bootWord 0 0 ∧
      off.toNat + data.length ≤ slotSize)
  | .imageActivate slot => decide (slot.toNat ≤ 1)
  | .modeRequest mode => decide (mode.toNat ≤ 2)
  | .vote dom val => decide (dom.toNat ≤ 2 ∧ val.toNat ≤ 1)
  | .mbxPut ch words => decide (ch.toNat ≤ 15 ∧ 1 ≤ words.length ∧ words.length ≤ 8)
  | .mbxGet ch n => decide (ch.toNat ≤ 15 ∧ 1 ≤ n.toNat ∧ n.toNat ≤ 8)
  | .enumerate adr => decide (adr.toNat ≤ 63 ∧ w.rq.dst = 0xFF)
  | .faultInject port kind n _ _ bits =>
    decide (port.toNat ≤ 1 ∧ kind.toNat ≤ 4) && (kind != 1 || n != 0) &&
      ((kind != 2 && kind != 3) || decide (1 ≤ bits.toNat ∧ bits.toNat ≤ 64)) &&
      (kind != 4 || decide (1 ≤ n.toNat ∧ n.toNat ≤ 4))
  | .returnRequest nonce _ _ => decide (beBytes 16 nonce.toNat = identityHash)
  | .replaceHandover old _ _ _ _ =>
    decide (s.lcs = .deployed) && !s.on LGR_STAT.FIELDSEEN && s.lgr.handover.isNone &&
      s.lgr.queue.all (fun e => e.type != 0x29) && decide (s.addr = some old.toNat)
  | _ => true

/-! ### The checks in order -/

/-- A command of the ledger group, or a handover, that needs the ledger recovered (R377, DESIGN CHOICE: BUSY). -/
def State.ledgerBusy (s : State) (op : Nat) : Bool :=
  ([0x0400, 0x0401, 0x0A02].contains op || (op == 0x0402 && (s.lcs == .deployed || s.lcs == .returned))) &&
    !s.lgr.recovered

/-- Checks 8 to 12 of a command that has passed 6 and 7; 0 when it passes all. The refusal of R624 and one while
the ledger is not yet recovered stand between 10 and 11 (DEDUCED); `LEDGER_ACK` while a condense runs
between 11 and 12 (R380). -/
def State.hostCheck (s : State) (w : Waiting) (params : List Byte) (c : HostCmd) : Nat :=
  if !s.lifeOk w.op c then 0x0203
  else if !s.rightOk w then 0x0202
  else if w.rq.epoch ≠ 0 ∧ w.rq.epoch ≠ s.epoch then 0x0200
  else if (0x0100 ≤ w.op ∧ w.op < 0x0300 ∧ !s.restored ∧ !s.recovering) ∨ s.ledgerBusy w.op then 0x0300
  else if !s.modeOk w.op c then 0x0201
  else if w.op = 0x0401 ∧ s.on LGR_STAT.CONDENSING then 0x0300
  else if (w.rq.express ∧ !expressOk w.op) ∨ params ≠ hostParams c ∨ !s.paramsOk w c then 0x0102
  else 0

end Sys2Proof.Machine
end

