-- ==== Sys2Proof/Machine/HostOps.lean ====
section
/-!
DEFINITION. Machine/HostOps.lean: what each host command does once it has passed its checks (R57 to R94 and the
chapters of the blocks), and the final replies.
-/
namespace Sys2Proof.Machine

/-- How a command ends for now: with a final reply, waiting for an event that answers it, or already answered. -/
inductive HostAnswer
  | reply (status : Nat) (params : List Byte)
  | wait
  | sent
  deriving DecidableEq, Repr

/-- A final reply with status OK. -/
def okReply (params : List Byte) (s : State) : HostAnswer × State := (.reply 0 params, s)
/-- A refusal. -/
def noReply (status : Nat) (s : State) : HostAnswer × State := (.reply status [], s)

/-- A 32-bit mask as reply bytes. -/
def maskBytes (n : Nat) : List Byte := beBytes 4 n

/-- The always-on registers are reached: BRC runs while `f` acts (R32, R523). -/
def State.viaAo (s : State) (f : State → State) : State :=
  if s.on APM_CLKSTAT.BRCRUN then f s else (f s.aoBus).brcSettle

/-! ### Identity and sessions -/

/-- `IDENTIFY` (R72). -/
def State.hostIdentify (s : State) : HostAnswer × State :=
  okReply (beBytes 4 s.winId.toNat ++ beBytes 4 s.winRev.toNat ++ beBytes 6 s.mac.toNat ++ zeros 2 ++ identityHash) s

/-- The root of session keys in the life-cycle state (R57). -/
def State.sessionRoot (s : State) : Option (BitVec 128) :=
  match s.lcs with
  | .maker | .returned => some Config.makerSessionKey
  | .provisioned | .deployed => s.sec.oemSession

/-- The tag that the device chooses: non-zero and not that of an open session (R57). -/
def State.freshTag (s : State) : Word :=
  let l : List Word := (List.range 8).map (fun i => Config.sessionTag (s.draws + i)) ++ [1, 2, 3, 4, 5]
  (l.find? (fun t => t != 0 && (s.session t).isNone)).getD 1

/-- The session key (R57). -/
def sessionKey (root hostNonce devNonce : BitVec 128) (rights : BitVec 16) (tag : Word) : BitVec 128 :=
  BitVec.ofNat 128 (ofBeBytes (cmac root ([0x57#8, 0x4D#8, 0x42#8, 0x31#8] ++ beBytes 16 hostNonce.toNat ++
    beBytes 16 devNonce.toNat ++ beBytes 2 rights.toNat ++ beBytes 4 tag.toNat)))

/-- `SESSION_OPEN` (R57, R60 to R63): the reply is authenticated under the new key. -/
def State.hostSessionOpen (s : State) (w : Waiting) (rights : BitVec 16) (nonce : BitVec 128) : HostAnswer × State :=
  if 4 ≤ s.sessions.length then noReply 0x0300 s
  else match s.sessionRoot with
    | none => noReply 0x0202 s
    | some root =>
      let tag := s.freshTag
      let dev := Config.nonce s.draws
      let granted := rights &&& rightsMask s.lcs
      let key := sessionKey root nonce dev granted tag
      let x : Session := { tag := tag, key := key, rights := granted, last := none, count := 0, cycle := s.now }
      let s := { s with draws := s.draws + 8, sessions := s.sessions ++ [x] }
      (.sent, s.finish { w with key := some key } 0
        (beBytes 4 tag.toNat ++ beBytes 16 dev.toNat ++ beBytes 2 granted.toNat))

/-- `SESSION_CLOSE` (R60). -/
def State.hostSessionClose (s : State) (w : Waiting) : HostAnswer × State := okReply [] (s.closeSession w.rq.tag)

/-! ### Staging and commit -/

/-- Stage words from an item address on (R79, R80). -/
def State.stageWords (s : State) (a : Nat) : List Word → State
  | [] => s
  | v :: l => (s.stageItem (a, v)).stageWords (a + 4) l

/-- `STAGE_WRITE` (R80, R81, R83). -/
def State.hostStageWrite (s : State) (item : Word) (words : List Word) : HostAnswer × State :=
  if s.commit.isSome then noReply 0x0300 s
  else
    let t := s.stageWords item.toNat words
    if 65536 < t.bank.length then noReply 0x0101 s else okReply [] t

/-- The word that `STAGE_READ` returns: from the pending bank the staged fields over the active word (R80). -/
def State.stageWord (s : State) (pend : Bool) (a : Nat) : Word := if pend then s.pendingWord a else s.activeWord a

/-- `STAGE_READ` (R80). -/
def State.hostStageRead (s : State) (item : Word) (n : Nat) (pend : Bool) : HostAnswer × State :=
  okReply (wordBytes ((List.range n).map (fun k => s.stageWord pend (item.toNat + 4 * k)))) s

/-- The other participants of a two-phase commit to a destination (R318). -/
def State.participants (s : State) (dst : Byte) : List Nat :=
  (List.range 64).filter (fun n => decide (s.addr ≠ some n) && s.hbs.any (fun (h : HbKept) =>
    h.sender == n && decide (s.now < h.cycle + usLc 300) &&
      (dst == 0xFF || h.hb.group.getLsbD (dst.toNat - 0x80))))

/-- A commit-abort frame (R319). -/
def State.sendAbort (s : State) (epoch : BitVec 16) (t : Nat) : State :=
  s.sendDevice .commitAbort (votesParams epoch t)

/-- `COMMIT` (R82 to R85, R318, R319): accepted, it waits for its switch. Boundary 0 switches in the next cycle, boundary 3
by its time; the cycles of boundaries 1 and 2 and of a two-phase commit are set when they are known. -/
def State.hostCommit (s : State) (w : Waiting) (epoch : BitVec 16) (bound flags tmo : Nat) (arg : BitVec 64) :
    HostAnswer × State :=
  if s.commit.isSome then noReply 0x0300 s
  else if bound = 3 ∧ arg.toNat < s.ptp then noReply 0x0011 s
  else if s.bankCold then noReply 0x0302 s
  else
    let two := flags.testBit 1
    let at0 : Option Nat :=
      if bound = 0 then some (s.now + 1)
      else if bound = 3 ∧ !two then some (max (s.now + 1) (s.cycleOfPtp arg.toNat))
      else none
    let late := two && decide (s.cycleOfPtp (arg.toNat - 20000) < s.now)
    let others := if two then s.participants w.rq.dst else []
    let c : CommitSt :=
      { epoch := epoch, bound := bound, flags := flags, arg := arg.toNat, accepted := s.now,
        limit := s.now + usLc (1000 * tmo), switchAt := at0, switched := false, parts := others, ready := [],
        aborted := late, readySent := 0 }
    let s := { s with commit := some c }
    (.wait, if late then s.sendAbort epoch arg.toNat else s)

/-- A commit that has not come to its switch cycle. -/
def State.cancelable (s : State) : Option CommitSt :=
  match s.commit with
  | some c => if c.switched then none else some c
  | none => none

/-- `ABORT` (R88, R321): before T − 4 µs a two-phase commit is aborted for every participant. In the switch cycle itself the
commit switches first. -/
def State.hostAbort (s : State) : HostAnswer × State :=
  let s := s.switchDue
  let s0 := { s with bank := [] }
  match s.cancelable with
  | none => okReply (zeros 4) s0
  | some c =>
    let t := ({ s0 with commit := none } : State).finishAll 0x0102 0x0010 []
    let t := if c.flags.testBit 1 ∧ s.ptp + 4000 < c.arg then t.sendAbort c.epoch c.arg else t
    okReply ([1#8] ++ zeros 3) t

/-- `QUERY_EPOCH` (R72). -/
def State.hostQueryEpoch (s : State) : HostAnswer × State :=
  okReply (beBytes 4 s.winEpoch.toNat ++ beBytes 4 s.bank.length) s

/-! ### Drives -/

/-- A pending commit holds a cold item that would change a drive of the mask (R83). -/
def State.armCold (s : State) (mask : Nat) : Bool :=
  s.commit.isSome && s.bank.any (fun e => match fieldsAt e.1 with
    | some l =>
      let old := s.rd e.1
      let new := s.itemWord e
      let t := s.wr e.1 new
      decide ((old ^^^ new) &&& accMask l .cd ≠ 0) &&
        (List.range 32).any (fun p => mask.testBit p && (s.drives e.1 old new p || t.drives e.1 old new p))
    | none => false)

/-- `ARM` (R73, R83, R243): firmware reads `GOU_ARMED` in the cycle after its write, when the pairs are armed. -/
def State.hostArm (s : State) (mask : Word) : HostAnswer × State :=
  if s.armCold mask.toNat then noReply 0x0302 s
  else
    let s := (s.armReq mask.toNat).reach (s.now + 1)
    okReply (maskBytes s.armedMask) s

/-- `DISARM` (R244). -/
def State.hostDisarm (s : State) (mask : Word) : HostAnswer × State :=
  let s := s.disarmReq mask.toNat
  okReply (maskBytes s.armedMask) s

/-- `SET_REFERENCE` (R83, R90): the write ranks as MGT0's. -/
def State.hostSetReference (s : State) (n : Fin 16) (k : Nat) (val : Word) : HostAnswer × State :=
  if s.commit.isSome ∧ (s.staged (SLC_PAR.adr n k)).1 ≠ 0 then noReply 0x0300 s
  else okReply [] (s.refWrite n k val (refRank (.core .mgt0)))

/-- `TRIP_CLEAR` (R74, R317): a ring trip of the same cycle keeps RX. -/
def State.hostTripClear (s : State) (mask : Word) : HostAnswer × State :=
  let before := s.trippedMask
  let s := (if s.clearable GOU_RTRIP.RX then s.set GOU_RTRIP.RX 0 else s).tripClear mask.toNat
  let after := s.trippedMask
  okReply (maskBytes (mask.toNat &&& before &&& (before ^^^ after)) ++ maskBytes (mask.toNat &&& after)) s

/-! ### Capture -/

/-- `CAPTURE_START` (R351). -/
def State.hostCaptureStart (s : State) (mask kb : Word) : HostAnswer × State :=
  match s.grnStart mask.toNat kb.toNat with
  | (.ok, t) => okReply [] t
  | (.badParam, _) => noReply 0x0102 s
  | (.busy, _) => noReply 0x0300 s

/-- `CAPTURE_TRIGGER` (R352). -/
def State.hostCaptureTrigger (s : State) : HostAnswer × State := okReply (beBytes 8 s.ptp) s.grnTrigger

/-- `CAPTURE_READ` (R358). -/
def State.hostCaptureRead (s : State) (off len : Nat) : HostAnswer × State := okReply (s.grnRead off len) s

/-- `CAPTURE_FREEZE` (R353, R354). -/
def State.hostCaptureFreeze (s : State) (when t : Nat) : HostAnswer × State :=
  if when = 0 then okReply (beBytes 8 s.ptp) (s.grnFreeze 2)
  else
    let s := (s.wr GRN_FRZTIME_LO.adr (BitVec.ofNat 32 t)).wr GRN_FRZTIME_HI.adr (BitVec.ofNat 32 (t / 2 ^ 32))
    (.wait, s.grnArm)

/-! ### Ledger and time -/

/-- The 64 bytes that a read of the slot of index `i` gives: all 0xFF when it cannot be read (R378). -/
def State.slotShown (s : State) (i : Nat) : List Byte :=
  if s.slotSpoilt i then List.replicate 64 0xFF#8 else s.slotBytes i

/-- `LEDGER_READ` (R378, R379). -/
def State.hostLedgerRead (s : State) (first cnt : Nat) : HostAnswer × State :=
  okReply ((slotRange first cnt).flatMap (fun (i : Nat) => s.slotShown i)) (s.slotReads (slotRange first cnt))

/-- A signature verifies under the OEM ledger key (R388). -/
def State.ledgerSigned (s : State) (msg : List Byte) (r t : BitVec 256) : Bool :=
  match s.sec.oemLedger with
  | some k => ecdsaVerify k msg r.toNat t.toNat
  | none => false

/-- `LEDGER_ACK` (R380). -/
def State.hostLedgerAck (s : State) (i : Word) (head : BitVec 128) (r t : BitVec 256) : HostAnswer × State :=
  if s.ledgerSigned (beBytes 4 i.toNat ++ beBytes 16 head.toNat) r t then okReply [] (s.ledgerAck i.toNat)
  else noReply 0x0202 s

/-- `LEDGER_STATUS` (R379, R381). -/
def State.hostLedgerStatus (s : State) : HostAnswer × State :=
  if s.lcs = .maker ∨ s.lcs = .provisioned then okReply (zeros 32) s
  else okReply (beBytes 4 (s.get LGR_NEWEST.INDEX) ++ beBytes 4 (s.get LGR_OLDUNACK.INDEX) ++
    beBytes 4 (s.get LGR_ACKED.INDEX) ++ beBytes 4 (bitIf s.lgr.condense 0 + bitIf (s.on LGR_STAT.SEALPEND) 1) ++
    beBytes 16 s.lgr.head.toNat) s

/-- `TIME_SET` (R76, R561): a setting that the calendar rejects fails check 12. -/
def State.hostTimeSet (s : State) (c : CalFields) : HostAnswer × State :=
  let t := s.aoBus.timeSet c
  if t.1 then okReply [] (s.viaAo (fun x => (x.timeSet c).2)) else noReply 0x0102 (s.viaAo (fun x => (x.timeSet c).2))

/-- `TIME_QUERY` (R72): the calendar as it stands. -/
def State.hostTimeQuery (s : State) : HostAnswer × State :=
  let c := s.cal
  let f : CalFields := CalFields.mk (BitVec.ofNat 16 c.year) (BitVec.ofNat 8 c.month) (BitVec.ofNat 8 c.day)
    (BitVec.ofNat 8 c.hour) (BitVec.ofNat 8 c.min) (BitVec.ofNat 8 c.sec) (BitVec.ofNat 16 c.sub)
    (BitVec.ofNat 8 c.wday) 0
  okReply (calBytes f ++ beBytes 8 s.ptp ++ beBytes 4 (s.rd RING_PTPOFF.adr).toNat) s

/-! ### Images -/

/-- The session that a request belongs to: its tag when it is authenticated. -/
def Waiting.owner (w : Waiting) : Word := if w.key.isSome then w.rq.tag else 0

/-- `IMAGE_WRITE` (R91, R92). -/
def State.hostImageWrite (s : State) (w : Waiting) (k : Fin 2) (flags off : Nat) (data : List Byte) :
    HostAnswer × State :=
  let x := s.img[k]
  let writing := decide (x.state = 1)
  let fst := flags.testBit 0
  if fst && writing && !flags.testBit 1 then noReply 0x0300 s
  else if !fst && (!writing || x.owner != w.owner) then noReply 0x0300 s
  else
    let s := if fst then { s with img := s.img.set k { state := 1, owner := w.owner } } else s
    let s := s.putBytes (slotBase k + off) data
    okReply [] (if flags.testBit 2 then s.setImg k 2 else s)

/-- `IMAGE_ACTIVATE` (R94, R620, R621): the recovery loader resets the fast domain after it. -/
def State.hostImageActivate (s : State) (w : Waiting) (k : Fin 2) : HostAnswer × State :=
  let x := s.img[k]
  if x.state = 1 then noReply 0x0300 s
  else if x.state ≠ 3 then noReply 0x0102 s
  else
    let t := s.putLe bootWordAddr 8 k
    if s.recovering then (.sent, ((t.finish w 0 []).sendAll).fastReset) else okReply [] t

/-- `IMAGE_STATUS` (R91). -/
def State.hostImageStatus (s : State) : HostAnswer × State :=
  okReply ([0, 1].flatMap (fun (k : Fin 2) =>
    [BitVec.ofNat 8 (s.img[k]).state, if s.preferred = k then 1#8 else 0#8] ++ zeros 2 ++
      beBytes 4 (s.imgVersion k) ++ beBytes 4 (s.imgLength k) ++ zeros 4)) s

/-! ### Modes and votes -/

/-- The wire time of what waits on a port. -/
def TxSt.load (t : TxSt) (now : Nat) : Nat :=
  (t.idleAt - now) + t.left + (t.queue.map (fun (i : TxItem) => txTime i.frame.bytes)).sum

/-- All replies that are ready leave, and time passes until they are sent. -/
def State.flush (s : State) : State :=
  let s := s.sendAll
  s.reach (s.now + 2 + max ((s.tx[0]).load s.now) ((s.tx[1]).load s.now))

/-- `MODE_REQUEST` (R73, R500, R501): Barn is answered before the link domain is released. -/
def State.hostModeRequest (s : State) (w : Waiting) (m : Nat) : HostAnswer × State :=
  let r := s.modeReq m
  match r.1 with
  | some 0 =>
    if m = mBarn then (.sent, (((s.finish w 0 []).flush).modeReq m).2) else okReply [] r.2
  | some st => noReply st r.2
  | none =>
    if r.2.mode = mField then okReply [] r.2
    else if r.2.ao.toField then (.wait, r.2) else noReply 0x0201 r.2

/-- `VOTE` (R507): the reply goes out before the domain acts on its votes. -/
def State.hostVote (s : State) (w : Waiting) (d : Fin 3) (cast : Bool) : HostAnswer × State :=
  let s := s.viaAo (fun x => x.set (APM_VOTE.HOST d) (b2n cast))
  (.sent, ((s.finish w 0 (beBytes 4 (s.rd (APM_VOTE.adr d)).toNat)).flush).domainVotes)

/-! ### Mailboxes -/

/-- The host's words on MBX13 or MBX14 are noted with their session (R389, R390). -/
def State.notePut (s : State) (w : Waiting) (c n : Nat) : State :=
  let e : PutInfo := { tag := w.owner, auth := w.key.isSome, life := s.holdsRight w 10, count := n }
  if c = 13 then { s with puts := s.puts.set 0 (some e) }
  else if c = 14 then { s with puts := s.puts.set 1 (some e) }
  else s

/-- `MBX_PUT` (R289). -/
def State.hostMbxPut (s : State) (w : Waiting) (c : Fin 16) (words : List Word) : HostAnswer × State :=
  let r := s.mbxPushAll c false words
  okReply [BitVec.ofNat 8 words.length, if r.1 then 1#8 else 0#8] (r.2.notePut w c words.length)

/-- `MBX_GET` (R289): up to `n` words, and HCOLL, which it clears. -/
def State.hostMbxGet (s : State) (c : Fin 16) (n : Nat) : HostAnswer × State :=
  let q := (s.chan[c]).host
  let coll := s.on (MBX_STAT.HCOLL c)
  let s := (s.setQueue c true (q.drop n)).set (MBX_STAT.HCOLL c) 0
  okReply ([BitVec.ofNat 8 (q.take n).length, if coll then 1#8 else 0#8] ++ zeros 2 ++ wordBytes (q.take n)) s

/-! ### Ring -/

/-- The heartbeat that a joining device compares itself with (R324): of the lowest-addressed device heard within
300 µs without VERHOLD. -/
def State.hbPeer (s : State) : Option HbKept :=
  (List.range 64).findSome? (fun n => s.hbs.find? (fun (h : HbKept) =>
    h.sender == n && decide (s.now < h.cycle + usLc 300) && !h.hb.fault.getLsbD 21))

/-- CLASS, FWMAJ and FWMIN of a `WIN_REV`. -/
def revKey (w : Word) : Word := w &&& 0xFF00FFFF#32

/-- `ENUMERATE` (R302, R324). -/
def State.hostEnumerate (s : State) (w : Waiting) (n : Nat) : HostAnswer × State :=
  let s := { s with addr := some n, upstream := portIx w.rq.port }
  let held : Bool := match s.hbPeer with
    | some h => decide (revKey h.hb.rev ≠ revKey s.winRev)
    | none => false
  let s := if held then s.set RING_STAT.VERHOLD 1 else s
  okReply ([BitVec.ofNat 8 n, BitVec.ofNat 8 s.upstream] ++ beBytes 6 s.mac.toNat ++ beBytes 4 s.winRev.toNat) s

/-- `RING_STATUS` (R72). -/
def State.hostRingStatus (s : State) : HostAnswer × State :=
  okReply ([BitVec.ofNat 8 (s.addr.getD 0), BitVec.ofNat 8 s.upstream,
    BitVec.ofNat 8 (bitIf s.ringClosed 0 + bitIf s.shareStale 1 + bitIf (s.on RING_STAT.VERHOLD) 2), 0#8] ++
    beBytes 4 (s.rd RING_PTPOFF.adr).toNat ++ beBytes 8 s.hbMap) s

/-- `FAULT_INJECT` (R326, R327): a new setting replaces the previous one. -/
def State.hostFaultInject (s : State) (w : Waiting) (p : Fin 2) (kind n etype first bits : Nat) :
    HostAnswer × State :=
  let s := s.injClear p
  if kind = 0 then okReply [] s
  else
    let x : InjSt := { etype := etype, firstBit := first, bits := bits, owner := w.owner, held := none }
    let s := { s with inj := s.inj.set p x }
    okReply [] (((s.set (RING_INJ.KIND p) kind).set (RING_INJ.LEFT p) (if kind = 2 ∨ kind = 3 then 1 else n)).set
      (RING_INJ.ACTIVE p) 1)

/-! ### Life-cycle -/

/-- A life-cycle transition closes every session and clears the injections (R60, R328). -/
def State.lifeTo (s : State) (l : LifeState) : State :=
  let s := (s.closeAll.injClear 0).injClear 1
  { s with lcs := l }

/-- `LC_ADVANCE` (R369, R387): answered before the sessions close. -/
def State.hostLcAdvance (s : State) (w : Waiting) (t : Nat) : HostAnswer × State :=
  let s := (s.finish w 0 ([BitVec.ofNat 8 t] ++ zeros 3)).sendAll
  (.sent, if t = 1 then s.lifeTo .provisioned else (s.lifeTo .deployed).ledgerDeploy)

/-- What SEC erases at return (R388, R392): the keys, the persisted configuration and the firmware data. -/
def State.returnErase (s : State) : State :=
  let s := { s with sec := { s.sec with oemSession := none, oemImage := none, oemLedger := none, identity := false } }
  (s.clearMem 0x11900000 0x11B00000).clearMem 0x11B40000 0x12000000

/-- In DEPLOYED the engine writes what waits, the LIFECYCLE entry and the return seal (R392). -/
def State.returnSeal (s : State) : State :=
  if s.lcs = .deployed then
    let s := State.slotWrites (fun x => x.lgr.hourDue.isSome || !x.lgr.queue.isEmpty) 17 s
    let s := s.ledgerEvent 0x28 3 (zeros 32)
    let s := State.slotWrites (fun x => !x.lgr.queue.isEmpty) 2 s
    s.writeSeal 6
  else s

/-- `RETURN_REQUEST` (R392). -/
def State.hostReturn (s : State) (w : Waiting) (nonce : BitVec 128) (r t : BitVec 256) : HostAnswer × State :=
  if ecdsaVerify Config.makerReturnKey (beBytes 16 nonce.toNat) r.toNat t.toNat then
    let s := (s.returnSeal.finish w 0 []).flush
    let s := (s.lifeTo .returned).returnErase
    (.sent, ((s.raise APM_RSTCAUSE.RETURN).fastReset).linkReset)
  else noReply 0x0202 s

/-- `REPLACE_HANDOVER` (R393, R394): answered once its entry is written; while the ledger takes no entry it is
refused with BUSY (DESIGN CHOICE). -/
def State.hostHandover (s : State) (old : Byte) (idx : Word) (head : BitVec 128) (r t : BitVec 256) :
    HostAnswer × State :=
  let msg := [old, 0#8, 0#8, 0#8] ++ beBytes 4 idx.toNat ++ beBytes 16 head.toNat
  if s.ledgerSigned msg r t then
    if 16 ≤ s.lgr.queue.length ∨ s.on LGR_STAT.FULL ∨ s.on HRV_STAT.SEALING then noReply 0x0300 s
    else (.wait, (s.ledgerEvent 0x29 0
      ([old, 0#8, 0#8, 0#8] ++ leBytes 4 idx.toNat ++ beBytes 16 head.toNat ++ zeros 8)).sealDue 5)
  else noReply 0x0202 s

/-! ### All commands -/

/-- Firmware carries out a command that has passed its checks. -/
def State.perform (s : State) (w : Waiting) : HostCmd → HostAnswer × State
  | .identify => s.hostIdentify
  | .windowRead _ _ => noReply 0x0102 s
  | .windowWrite _ _ => noReply 0x0102 s
  | .sessionOpen rights nonce => s.hostSessionOpen w rights nonce
  | .sessionClose => s.hostSessionClose w
  | .stageWrite item words => s.hostStageWrite item words
  | .stageRead item n bank => s.hostStageRead item n.toNat (bank == 1)
  | .commit epoch bound flags tmo arg => s.hostCommit w epoch bound.toNat flags.toNat tmo.toNat arg
  | .abort => s.hostAbort
  | .queryEpoch => s.hostQueryEpoch
  | .arm mask => s.hostArm mask
  | .disarm mask => s.hostDisarm mask
  | .setReference sl idx val => s.hostSetReference (Fin.ofNat 16 sl.toNat) idx.toNat val
  | .tripClear mask => s.hostTripClear mask
  | .captureStart mask kb => s.hostCaptureStart mask kb
  | .captureTrigger => s.hostCaptureTrigger
  | .captureRead off len => s.hostCaptureRead off.toNat len.toNat
  | .captureFreeze when t => s.hostCaptureFreeze when.toNat t.toNat
  | .ledgerRead first cnt => s.hostLedgerRead first.toNat cnt.toNat
  | .ledgerAck idx head r t => s.hostLedgerAck idx head r t
  | .ledgerStatus => s.hostLedgerStatus
  | .timeSet cal => s.hostTimeSet cal
  | .timeQuery => s.hostTimeQuery
  | .imageWrite slot flags off data => s.hostImageWrite w (Fin.ofNat 2 slot.toNat) flags.toNat off.toNat data
  | .imageActivate slot => s.hostImageActivate w (Fin.ofNat 2 slot.toNat)
  | .imageStatus => s.hostImageStatus
  | .modeRequest mode => s.hostModeRequest w mode.toNat
  | .vote dom val => s.hostVote w (Fin.ofNat 3 dom.toNat) (val == 1)
  | .mbxPut ch words => s.hostMbxPut w (Fin.ofNat 16 ch.toNat) words
  | .mbxGet ch n => s.hostMbxGet (Fin.ofNat 16 ch.toNat) n.toNat
  | .enumerate adr => s.hostEnumerate w adr.toNat
  | .ringStatus => s.hostRingStatus
  | .faultInject port kind n etype first bits =>
    s.hostFaultInject w (Fin.ofNat 2 port.toNat) kind.toNat n.toNat etype.toNat first.toNat bits.toNat
  | .lcAdvance target => s.hostLcAdvance w target.toNat
  | .returnRequest nonce r t => s.hostReturn w nonce r t
  | .replaceHandover old idx head r t => s.hostHandover old idx head r t

/-- What `perform` answered becomes the final reply, or the command waits for it. -/
def State.conclude (w : Waiting) : HostAnswer × State → State
  | (.reply st ps, s) => s.finish w st ps
  | (.wait, s) => { s with waiting := s.waiting ++ [w] }
  | (.sent, s) => s

/-- A final status of checks 6 to 12: the command was not accepted. -/
def checkFailed : HostAnswer → Bool
  | .reply st _ => decide (0x0100 ≤ st ∧ st < 0x0300)
  | _ => false

/-- A refused two-phase `COMMIT` sends a commit-abort frame at once (R319). -/
def State.refusedCommit (s : State) (op : Nat) (params : List Byte) : State :=
  match parseHost op params with
  | .ok (.commit epoch _ flags _ arg) => if flags.getLsbD 1 then s.sendAbort epoch arg.toNat else s
  | _ => s

/-- A mode request that the mode table refuses sets REQREF (R500). -/
def State.refusedMode (s : State) (op : Nat) (params : List Byte) : State :=
  match parseHost op params with
  | .ok (.modeRequest mode) => if s.recovering then s else (s.modeReq mode.toNat).2
  | _ => s

/-- A refusal by firmware. -/
def State.firmwareRefuse (s : State) (w : Waiting) (params : List Byte) (st : Nat) : State :=
  let s := if st = 0x0201 then s.refusedMode w.op params else s
  (s.finish w st []).refusedCommit w.op params

/-- The ACCEPTED reply of a command that has passed all its checks (R55). -/
def State.accept (s : State) (w : Waiting) (c : HostCmd) : State :=
  if w.rq.ackReq && !checkFailed (s.perform w c).1 then s.answerNow w 1 [] else s

/-- A command that passes its checks is carried out. -/
def State.carryOut (s : State) (w : Waiting) (params : List Byte) (c : HostCmd) : State :=
  let s := s.accept w c
  let r := s.perform w c
  match r.1 with
  | .reply st _ => if st = 0 then State.conclude w r else (State.conclude w r).refusedCommit w.op params
  | _ => State.conclude w r

/-- Firmware takes a command (R51, checks 6 to 12). -/
def State.firmware (s : State) (w : Waiting) (params : List Byte) : State :=
  match parseHost w.op params with
  | .badOpcode => s.firmwareRefuse w params 0x0100
  | .badLength => s.firmwareRefuse w params 0x0101
  | .ok c =>
    let st := s.hostCheck w params c
    if st = 0 then s.carryOut w params c else s.firmwareRefuse w params st

/-! ### A request at the responder -/

/-- The link responder takes a request (R51 to R59). DESIGN CHOICE: an authenticated request that passes checks 1 to 5 is
the 'previous accepted one' of R59 from then on, also when checks 6 to 12 refuse it; the spec does not say whether such a
request counts. -/
def State.respond (s : State) (i : Incoming) : State :=
  let w := s.waitingOf i
  match s.judge i with
  | .refuse st =>
    let s := { s with free := s.free + 1, nocred := if st = 0x0301 then min 255 (s.nocred + 1) else s.nocred }
    (s.answerNow w st []).refusedCommit i.op i.params
  | .again r => s.transmit r
  | .window =>
    let s := if i.rq.auth then s.useSession i.rq.tag i.rq.seq else s
    (s.windowCommand w i.params).wornOut i.rq.tag
  | .command =>
    let s := if i.rq.auth then s.useSession i.rq.tag i.rq.seq else s
    (({ s with credits := s.credits - 1 } : State).firmware w i.params).wornOut i.rq.tag

/-- The port is up: frames arrive on it. -/
def State.portUp (s : State) (p : PortId) : Bool := s.domUp .link && (s.port[portIx p]).up

/-- A host command arrives as a request whose CMAC is right (R42, R296, R300, R301). -/
def State.hostCommand (s : State) (rq : Req) (c : HostCmd) : State :=
  if s.portUp rq.port && destOk rq.dst then
    let i := s.incoming rq c
    let r := s.routeRequest rq i.op
    let s := if r.2 then s.forwardOn (otherPort rq.port)
        (forwardLevel rq.express i.op)
        (etherFrame Config.deviceDst rq.mac rq.vlan (s.get ETH_ETYPE.VALUE) (i.body ++ i.mac)) true
      else s
    if r.1 then s.respond i else s
  else s

end Sys2Proof.Machine
end

