-- ==== Sys2Proof/Machine/Ring.lean ====
section
/-!
DEFINITION. Machine/Ring.lean: the ring (09): heartbeats, angle shares, ring trips, two-phase commit, PTP,
the ports, and the frames that a port receives (R42, R295, R296).
-/
namespace Sys2Proof.Machine

/-! ### Time on the ring -/

/-- The first PTP time after the present cycle's that is `off` modulo `per`. -/
def State.nextPtp (s : State) (per off : Nat) : Nat :=
  let d := (s.ptp + per - off % per) % per
  s.ptp + (per - d)

/-- The device may act on the ring: its link domain is at H0 and it has an address (R295). -/
def State.onRing (s : State) : Bool := s.domUp .link && s.addr.isSome

/-! ### Heartbeats (R308 to R310, R322, R325) -/

/-- The heartbeat of the present cycle (R308, R309). -/
def State.heartbeat (s : State) : Heartbeat :=
  let up := s.fastUp
  { rev := s.winRev, mode := if up then s.winMode else s.winMode &&& ~~~(8#32),
    fault := if up then s.winFault else s.winFault &&& 0x007FFFFF#32, act := s.epoch, pend := s.pendEpoch,
    ptpoff := s.rd RING_PTPOFF.adr, group := BitVec.ofNat 16 (s.get ETH_GROUP.MEMBER),
    flags := BitVec.ofNat 8 (s.upstream.val + bitIf s.ringClosed 1 + bitIf (s.on RING_CFG.ROOT) 2 +
      bitIf (s.on RING_STAT.DUPADDR) 3 + bitIf (s.on RING_STAT.EPSPLIT) 4),
    tripped := if up then BitVec.ofNat 32 s.trippedMask else 0,
    armed := if up then BitVec.ofNat 32 s.armedMask else 0, time := BitVec.ofNat 64 s.ptp }

/-- `HEARTBEAT_SEND`: at the next PTP time of the device's own (R308). -/
def State.heartbeatSend (s : State) : State :=
  if s.onRing then
    let s := s.reach (s.cycleOfPtp (s.nextPtp 100000 (1500 * s.addr.getD 0)))
    s.sendDevice .heartbeat (heartbeatParams s.heartbeat)
  else s

/-- Epochs differ after a two-phase switch (R322): the ring trip reaches the fast domain 2 lc later (R34, R261), and the
cause in the ring trip that is sent is a free value. -/
def State.epochSplit (s : State) : State :=
  let s := s.raise RING_STAT.EPSPLIT
  if s.on RING_CFG.SPLITTRIP then
    let r := s.drawNat
    let s := r.2
    let s := if s.fastUp then s.later (s.now + 2) (.ringRx false) else s
    s.ringTripSend 0xFF (r.1 % 256)
  else s

/-- The first heartbeat of a participant since T is compared (R322). -/
def State.splitStep (s : State) (sender : Nat) (hb : Heartbeat) : State :=
  match s.split with
  | some c =>
    if sender ∈ c.members ∧ c.time ≤ hb.time.toNat then
      let l := c.members.filter (fun m => m != sender)
      let s := { s with split := if l.isEmpty then none else some { c with members := l } }
      if hb.act ≠ s.epoch then s.epochSplit else s
    else s
  | none => s

/-- A heartbeat is taken in (R310, R325). -/
def State.heartbeatIn (s : State) (sender : Nat) (mac : BitVec 48) (hb : Heartbeat) : State :=
  if s.addr = some sender then (if mac ≠ s.mac then s.raise RING_STAT.DUPADDR else s)
  else if sender < 64 then
    let e : HbKept := { sender := sender, mac := mac, hb := hb, cycle := s.now }
    ({ s with hbs := s.hbs.filter (fun (h : HbKept) => h.sender != sender) ++ [e] } : State).splitStep sender hb
  else s

/-- `HEARTBEAT_MEMBER_SILENT`: 300 µs have passed since the last heartbeat of a device (R310). -/
def State.memberSilent (s : State) (n : Nat) : State :=
  match s.hbs.find? (fun (h : HbKept) => h.sender == n) with
  | some h => if s.addr = some n then s else (s.reach (h.cycle + usLc 300)).raise RING_STAT.MEMBLOST
  | none => s

/-! ### Angle shares (R126, R127, R311 to R313) -/

/-- The record of track `n` (R311, R312). -/
def State.shareRecord (s : State) (n : Fin 16) : ShareRecord :=
  let t := s.trk[n]
  { track := BitVec.ofNat 8 n, flags := BitVec.ofNat 8 (b2n t.coast + bitIf s.ptpOff 1 + bitIf t.rev 2),
    turn := t.turn, angle := t.oang, vel := t.ovel }

/-- The tracks that the device shares (R311). -/
def State.sharedTracks (s : State) : List (Fin 16) :=
  (List.finRange 16).filter (fun (n : Fin 16) =>
    s.bit RING_SHARE.TRACKS n && (s.trk[n]).valid && !(s.trk[n]).lost)

/-- `ANGLE_SHARE_SEND`: at the next microsecond of PTP time (R311, R324, R325). -/
def State.shareSend (s : State) : State :=
  if s.onRing then
    let s := s.reach (s.cycleOfPtp (s.nextPtp 1000 0))
    let l := s.sharedTracks
    if s.fastUp && !l.isEmpty && !s.on RING_STAT.VERHOLD && !s.on RING_STAT.DUPADDR then
      s.sendDevice .angleShare (shareParams
        { time := BitVec.ofNat 64 s.ptp, records := l.map (fun (n : Fin 16) => s.shareRecord n) })
    else s
  else s

/-- A record is one that a ring-shared track may use (R313). -/
def State.shareFresh (s : State) (n : Fin 16) (time : Nat) : Bool :=
  decide ((s.trk[n]).shareTime < time ∧ s.ptp ≤ time + 20000)

/-- One ring-shared track takes the record that it names (R126, R127, R313). -/
def State.shareTrack (s : State) (sender : Nat) (sh : AngleShare) (n : Fin 16) : State :=
  if s.trkEn n && s.trkType n == 6 && s.get (TRK_SRCA.RDEV n) == sender then
    match sh.records.find? (fun (r : ShareRecord) => r.track.toNat == s.get (TRK_SRCA.RTRK n)) with
    | some r =>
      if r.flags.getLsbD 1 || s.ptpOff then s.lossCondition n
      else if s.shareFresh n sh.time.toNat then s.shareApply n r.angle r.vel sh.time.toNat
      else s
    | none => s
  else s

/-- An angle share is taken in: its frame ends in the present cycle (R128). -/
def State.shareIn (s : State) (sender : Nat) (sh : AngleShare) : State :=
  if s.takes blkTRK then
    (List.finRange 16).foldl (fun (s : State) (n : Fin 16) => s.shareTrack sender sh n) s
  else s

/-! ### Ring trips (R314 to R316) -/

/-- The ring trip whose repeat comes first. -/
def firstRepeat : List TripTx → Option TripTx
  | [] => none
  | a :: l => match firstRepeat l with
    | some b => if b.cycle + usLc b.rep < a.cycle + usLc a.rep then some b else some a
    | none => some a

/-- `RING_TRIP_REPEAT`: the frame goes out again 1 µs and 2 µs after the latch (R314). -/
def State.tripRepeat (s : State) : State :=
  match firstRepeat s.tripTx with
  | some x =>
    let s := (s.reach (x.cycle + usLc x.rep)).sendDevice .ringTrip (ringTripParams x.groups x.cause x.rep x.time)
    { s with tripTx := s.tripTx.erase x ++ (if x.rep < 2 then [{ x with rep := x.rep + 1 }] else []) }
  | none => s

/-- A ring trip is taken in; repeats act as one (R316). The fast domain sees it 2 lc later (R34, R261). -/
def State.tripIn (s : State) (sender : Nat) (rt : RingTrip) : State :=
  let e := (sender, rt.time.toNat)
  if s.get RING_CFG.TRIPACC &&& rt.groups.toNat = 0 ∨ e ∈ s.tripSeen then s
  else
    let s := { s with tripSeen := s.tripSeen.filter (fun (x : Nat × Nat) => x.1 != sender) ++ [e] }
    if s.fastUp then s.later (s.now + 2) (.ringRx true) else s

/-! ### Two-phase commit (R318 to R321) -/

/-- The commit under way is a two-phase one that is not decided. -/
def State.twoPhase (s : State) : Option CommitSt :=
  match s.commit with
  | some c => if c.flags.testBit 1 && !c.switched && c.switchAt.isNone then some c else none
  | none => none

/-- `COMMIT_READY_SEND`: once at validation, and again at T − 20 µs (R319). -/
def State.readySend (s : State) : State :=
  match s.twoPhase with
  | some c =>
    let t := s.cycleOfPtp (c.arg - 20000)
    let send (s : State) : State :=
      ({ s with commit := some { c with readySent := c.readySent + 1 } } : State).sendDevice .commitReady
        (votesParams c.epoch c.arg)
    if c.aborted ∨ s.addr.isNone then s
    else if c.readySent = 0 then (if s.now ≤ t then send s else s)
    else if c.readySent = 1 then send (s.reach t)
    else s
  | none => s

/-- `COMMIT_ABORT_SEND`: the participant is not ready at T − 20 µs (R319). -/
def State.abortSend (s : State) : State :=
  match s.twoPhase with
  | some c =>
    if c.readySent = 0 ∧ !c.aborted then
      let s := s.reach (s.cycleOfPtp (c.arg - 20000))
      ({ s with commit := some { c with aborted := true } } : State).sendAbort c.epoch c.arg
    else s
  | none => s

/-- A vote of another participant is for the commit under way, and comes before T − 4 µs (R320). -/
def State.voteFor (s : State) (epoch : BitVec 16) (t : Nat) : Option CommitSt :=
  match s.twoPhase with
  | some c => if c.epoch = epoch ∧ c.arg = t ∧ s.now ≤ s.cycleOfPtp (t - 4000) then some c else none
  | none => none

/-- A commit-ready frame is recorded (R320). -/
def State.readyIn (s : State) (sender : Nat) (epoch : BitVec 16) (t : Nat) : State :=
  match s.voteFor epoch t with
  | some c =>
    if sender ∈ c.parts ∧ sender ∉ c.ready then { s with commit := some { c with ready := c.ready ++ [sender] } } else s
  | none => s

/-- A commit-abort frame is recorded (R320). -/
def State.abortIn (s : State) (epoch : BitVec 16) (t : Nat) : State :=
  match s.voteFor epoch t with
  | some c => { s with commit := some { c with aborted := true } }
  | none => s

/-- `TWO_PHASE_DECISION` at T − 4 µs (R320). -/
def State.decide2 (s : State) : State :=
  match s.twoPhase with
  | some c =>
    let s := s.reach (s.cycleOfPtp (c.arg - 4000))
    if !c.aborted && decide (0 < c.readySent) && c.parts.all (fun p => c.ready.contains p) then
      { s with commit := some { c with switchAt := some (max (s.now + 1) (s.cycleOfPtp c.arg)) } }
    else ({ s with commit := none } : State).finishAll 0x0102 0x0010 []
  | none => s

/-! ### The switch (R86 to R89, R322) -/

/-- The cycle in which commit `c` switches, once it is known (R85): of boundary 1 the end of the run that is under way. -/
def State.switchCycle (s : State) (c : CommitSt) : Option Nat :=
  match c.switchAt with
  | some t => some (if c.bound = 3 then max (c.accepted + 1) (s.cycleOfPtp c.arg) else t)
  | none =>
    let e := (s.slc[(Fin.ofNat 16 (c.arg / 2 ^ 56) : Fin 16)]).periodEnd
    if c.bound = 1 ∧ s.now ≤ e ∧ c.accepted < e then some e else none

/-- `COMMIT_SWITCH`: time runs to the switch cycle, in which the block switches (R86). -/
def State.commitSwitch (s : State) : State :=
  match s.commit with
  | some c =>
    match s.switchCycle c with
    | some t =>
      if c.switched ∨ c.limit < t then s
      else if c.bound = 1 then s.reach (t + 1)
      else (s.reach t).switchDue
    | none => s
  | none => s

/-- The commit that has not switched is abandoned with TIMEOUT (R87). -/
def State.abandon (s : State) : State :=
  match s.commit with
  | some c => if c.switched then s else ({ s with commit := none } : State).finishAll 0x0102 0x0011 []
  | none => s

/-- `COMMIT_TIMEOUT`: the timeout passes without a switch cycle (R87). -/
def State.commitTimeout (s : State) : State :=
  match s.commit with
  | some c =>
    let comes : Bool := match s.switchCycle c with
      | some t => decide (t ≤ c.limit)
      | none => false
    if c.switched || comes then s else (s.reach c.limit).abandon
  | none => s

/-- `COMMIT_PERSIST_DONE`: the active configuration has been written to MRAM (R89). -/
def State.persistDone (s : State) : State :=
  match s.commit with
  | some c => if c.switched then s.persist.commitDone (c.switchAt.getD s.now) else s
  | none => s

/-! ### PTP (R304 to R307) -/

/-- A saturated 32-bit offset. -/
def offsetWord (o : Int) : Word := BitVec.ofInt 32 (satInt 32 o)

/-- A Sync arrives on a port with the clock identity of the grandmaster and the measured offset of the device
from it, before correction, in units of 50 ps (R39, R306, R307). The upstream port's corrects the PTP time; the root is the
grandmaster itself (R294). -/
def State.syncIn (s : State) (p : Fin 2) (gm : BitVec 64) (o : Int) : State :=
  let s := { s with port := s.port.set p { s.port[p] with hears := true, gm := gm } }
  if p = s.upstream ∧ !s.on RING_CFG.ROOT then
    let s := s.wr RING_PTPOFF.adr (offsetWord (o / 20))
    let bad := decide (1000 < o.natAbs)
    let good := if bad then 0 else s.ptpGood + 1
    { s with ptpAdj := s.ptpAdj - o, ptpGood := good, ptpOff := bad || (s.ptpOff && decide (good < 16)) }
  else s

/-- The clock identity of the device: its MAC address as an EUI-64 (PRESUMED: IEEE 1588). -/
def State.clockId (s : State) : List Byte :=
  let m := beBytes 6 s.mac.toNat
  m.take 3 ++ [0xFF#8, 0xFE#8] ++ m.drop 3

/-- A PTP message of the device on port `p`: type, correction field, sequence number, log interval, and what follows the
header (PRESUMED: IEEE 1588-2019). -/
def State.ptpMessage (s : State) (p : Fin 2) (type corr seq : Nat) (log : Byte) (body : List Byte) : List Byte :=
  [BitVec.ofNat 8 type, 0x12#8] ++ beBytes 2 (34 + body.length) ++ [BitVec.ofNat 8 (s.get RING_CFG.PTPDOM)] ++
    zeros 3 ++ beBytes 8 corr ++ zeros 4 ++ s.clockId ++ beBytes 2 (p + 1) ++ beBytes 2 seq ++ [0#8, log] ++ body

/-- Send a PTP event message on port `p` (R40, R299). -/
def State.ptpOn (s : State) (p : Fin 2) (content : List Byte) : State :=
  s.sendOn (portOf p) 3 (etherFrame Config.deviceDst s.mac none 0x88F7 content)

/-- Send a PTP event message of the root on both ports. -/
def State.ptpSend (s : State) (type seq : Nat) (log : Byte) (body : List Byte) : State :=
  let s := s.ptpOn 0 (s.ptpMessage 0 type 0 seq log body)
  s.ptpOn 1 (s.ptpMessage 1 type 0 seq log body)

/-- `PTP_SYNC_SEND`: the root sends Sync at the next multiple of 2^-7 s of PTP time, and Pdelay_Req at whole
seconds (R304). -/
def State.syncSend (s : State) : State :=
  if s.domUp .link && s.on RING_CFG.ROOT then
    let t := s.nextPtp 7812500 0
    let s := s.reach (s.cycleOfPtp t)
    let s := s.ptpSend 0 (t / 7812500) 0xF9#8 (beBytes 6 (t / 10 ^ 9) ++ beBytes 4 (t % 10 ^ 9))
    if t % 10 ^ 9 = 0 then s.ptpSend 2 (t / 10 ^ 9) 0#8 (zeros 20) else s
  else s

/-- `UPSTREAM_SWITCH` (R307). -/
def State.upstreamSwitch (s : State) : State :=
  let u := s.port[s.upstream]
  let o := 1 - s.upstream
  if s.domUp .link && !s.on RING_CFG.ROOT && (!u.up || !u.hears) && (s.port[o]).hears then
    ({ s with upstream := o } : State).raise RING_STAT.UPSW
  else s

/-! ### Ports (R40, R46, R307, R515) -/

/-- Update a port. -/
def State.modPort (s : State) (p : Fin 2) (f : PortLink → PortLink) : State :=
  { s with port := s.port.set p (f s.port[p]) }

/-- `LINK_TRAINED` (R46, R515): the link is up, its recovered clock ready, the codeword count cleared, and the port settings
in force. No port trains before the boot ROM has released the link domain (R44). -/
def State.linkTrained (s : State) (p : Fin 2) : State :=
  if s.domUp .link && s.linkFree && (s.port[p]).training then
    let cfg := s.rd (ETH_PORT_CTRL.adr p)
    (s.modPort p (fun (x : PortLink) => { x with up := true, training := false, cfg := cfg, fec := 0 })).clockReady p
  else s

/-- `LINK_DOWN` (R307, R518): the port trains again. -/
def State.linkDown (s : State) (p : Fin 2) : State :=
  if s.domUp .link && (s.port[p]).up then
    (s.modPort p (fun x => { x with up := false, training := true, preempt := false, hears := false })).clockLost p
  else s

/-- `PREEMPTION_VERIFIED` (R40), with the setting in force since the last training (R46). -/
def State.preemptVerified (s : State) (p : Fin 2) : State :=
  if s.domUp .link && (s.port[p]).up && (s.port[p]).cfg.getLsbD 0 then
    s.modPort p (fun x => { x with preempt := true })
  else s

/-- `INJECTION_REORDER_TIMEOUT`: a held frame is released after 100 µs (R327). -/
def State.reorderTimeout (s : State) (p : Fin 2) : State :=
  match (s.inj[p]).held with
  | some (_, _, c) => (s.reach (c + usLc 100)).releaseHeld p
  | none => s

/-! ### Frames that a port receives (R39, R42, R49, R295, R296) -/

/-- Two VLAN tags stand in a row. -/
def stackedTags (l : List Byte) : Bool :=
  let t (i : Nat) : Bool := ofBeBytes ((l.drop i).take 2) == 0x8100 || ofBeBytes ((l.drop i).take 2) == 0x88A8
  t 12 && t 16

/-- Where the Wembi header begins in a frame. -/
def contentAt (l : List Byte) : Nat := l.length - (frameContent l).length

/-- A device frame with its hop count raised by one (R295). -/
def hopped (l : List Byte) : List Byte :=
  let i := contentAt l + 12
  l.take i ++ [(l.getD i 0#8) + 1] ++ l.drop (i + 1)

/-- A PTP event message with a residence time of `r` in its correction field (R41). -/
def corrected (l : List Byte) (r : Nat) : List Byte :=
  let i := contentAt l + 8
  l.take i ++ beBytes 8 ((ofBeBytes ((l.drop i).take 8) + r) % 2 ^ 64) ++ l.drop (i + 8)

/-- A device frame is taken in (R295, R310, R313, R316, R320); one whose length is not its layout's is not. -/
def State.deviceIn (s : State) (sender : Nat) (mac : BitVec 48) (op : Nat) (params : List Byte) : State :=
  let n := params.length
  if op = 0x0F00 then (if n = 40 then s.heartbeatIn sender mac (parseHeartbeat params) else s)
  else if op = 0x0F01 then
    let sh := parseShare params
    (if n = 16 + 16 * sh.records.length ∧ 1 ≤ sh.records.length ∧ sh.records.length ≤ 16 then s.shareIn sender sh else s)
  else if op = 0x0F02 then (if n = 12 then s.tripIn sender (parseTrip params) else s)
  else if n = 16 then
    let e := pNum 16 params 0 2
    let t := (pNum 64 params 8 8).toNat
    if op = 0x0F03 then s.readyIn sender e t else s.abortIn e t
  else s

/-- The parameters that a Wembi header states, none when the frame is shorter than what it states (R49). -/
def statedParams (h : List Byte) (auth : Bool) : Option (List Byte) :=
  let n := ofBeBytes ((h.drop 8).take 2)
  if 16 + n + (if auth then 16 else 0) ≤ h.length then some ((h.drop 16).take n) else none

/-- The priority level of a forwarded device frame (R299). -/
def deviceLevel (op : Nat) : Nat :=
  if op = 0x0F00 then 7 else if op = 0x0F01 then 4 else if op = 0x0F02 then 1 else 2

/-- A Wembi frame with a device-frame opcode arrives (R49, R50, R295, R296). -/
def State.deviceFrame (s : State) (p : PortId) (l : List Byte) (fcsOk : Bool) : State :=
  let h := frameContent l
  let op := ofBeBytes ((h.drop 6).take 2)
  let src := (pByte h 3).toNat
  let mac := pNum 48 l 6 6
  if 0x0F04 < op ∨ 63 < src ∨ pByte h 1 ≠ 0 then s
  else
    let take (s : State) : State := match statedParams h false with
      | some ps => if fcsOk then s.deviceIn src mac op ps else s
      | none => s
    if s.addr = some src then (if op = 0x0F00 then take s else s)
    else if 63 ≤ (pByte h 12).toNat then s
    else take (s.forwardOn (otherPort p) (deviceLevel op) (hopped l) fcsOk)

/-- A request arrives as a frame (R42, R49, R51, R296): one that is shorter than it states is discarded. -/
def State.requestFrame (s : State) (p : PortId) (l : List Byte) (fcsOk : Bool) : State :=
  let h := frameContent l
  let rq := parseReq p l
  let op := ofBeBytes ((h.drop 6).take 2)
  if !destOk rq.dst || pByte h 3 ≠ 0xFE then s
  else
    match statedParams h rq.auth with
    | none => s
    | some ps =>
      let r := s.routeRequest rq op
      let s := if r.2 then s.forwardOn (otherPort p) (forwardLevel rq.express op) l fcsOk else s
      if r.1 && fcsOk then
        let n := 16 + ps.length
        s.respond
          { rq := rq, ver := pByte h 0, win := (pByte h 1).getLsbD 4, op := op, params := ps, body := h.take n,
            mac := if rq.auth then (h.drop n).take 16 else [] }
      else s

/-- A reply arrives (R42, R49, R294, R296): it goes towards the host, and the root consumes it; one with the opcode of a
device frame, with a destination that no reply has, or shorter than it states is discarded. -/
def State.replyFrame (s : State) (p : PortId) (l : List Byte) (fcsOk : Bool) : State :=
  let h := frameContent l
  let op := ofBeBytes ((h.drop 6).take 2)
  if s.on RING_CFG.ROOT ∨ portIx p = s.upstream ∨ (!destOk (pByte h 2) && pByte h 2 != 0xFE) ∨
      (0x0F00 ≤ op ∧ op ≤ 0x0FFF) ∨ statedParams h ((pByte h 1).getLsbD 3) = none then s
  else s.forwardOn (portOf s.upstream) (forwardLevel false op) l fcsOk

/-- A Wembi frame arrives (R42, R49, R294 to R296). -/
def State.wembiFrame (s : State) (p : PortId) (l : List Byte) (fcsOk : Bool) : State :=
  let h := frameContent l
  if h.length < 16 then s
  else if (pByte h 1).getLsbD 7 then s.replyFrame p l fcsOk
  else if 0x0F00 ≤ ofBeBytes ((h.drop 6).take 2) ∧ ofBeBytes ((h.drop 6).take 2) ≤ 0x0FFF then s.deviceFrame p l fcsOk
  else s.requestFrame p l fcsOk

/-! ### PTP messages that a port receives (R39, R41, R42, R296, R304)

PRESUMED, from IEEE 1588-2019: the layout of the messages; that Pdelay messages concern one link, so that the device
answers or uses them and does not forward them; and that a message of another domain is only forwarded. -/

/-- A message of the device's PTP domain with a whole header. -/
def State.ptpOurs (s : State) (h : List Byte) : Bool :=
  decide (34 ≤ h.length ∧ (pByte h 4).toNat = s.get RING_CFG.PTPDOM)

/-- The offset of the device from the grandmaster, in units of 50 ps, that a Sync shows: the time of its arrival less its
origin timestamp, its correction field and the delay of the link. Where in the cycle it arrived and the measured link delay
are free values. -/
def State.syncOffset (s : State) (h : List Byte) (sub delay : Nat) : Int :=
  let origin : Nat := ofBeBytes ((h.drop 34).take 6) * 10 ^ 9 + ofBeBytes ((h.drop 40).take 4)
  let corr : Int := (pNum 64 h 8 8).toInt
  let arrival : Int := 16 * s.now + s.ptpAdj + (sub % 16 : Nat)
  arrival - 20 * origin - corr * 20 / 65536 - delay

/-- A Sync of the device's domain is timestamped and used (R41, R306). -/
def State.syncFrame (s : State) (p : PortId) (h : List Byte) : State :=
  if s.ptpOurs h && decide (44 ≤ h.length) then
    let a := s.drawNat
    let b := a.2.drawNat
    b.2.syncIn (portIx p) (pNum 64 h 20 8) (b.2.syncOffset h a.1 b.1)
  else s

/-- A Pdelay_Req of the device's domain is answered on its port: one step, the time that the answer took in the correction
field, a free value (R39). -/
def State.pdelayAnswer (s : State) (p : PortId) (h : List Byte) : State :=
  if s.ptpOurs h then
    let r := s.drawNat
    r.2.ptpOn (portIx p) (r.2.ptpMessage (portIx p) 3 ((ofBeBytes ((h.drop 8).take 8) + r.1) % 2 ^ 64)
      (ofBeBytes ((h.drop 30).take 2)) 0x7F#8 (zeros 10 ++ (h.drop 20).take 10))
  else s

/-- A PTP message arrives (R41, R42, R296): Sync is used and, like every other message but those of the peer-to-peer delay
mechanism, forwarded; the residence time of a forwarded event message is a free value. -/
def State.ptpFrame (s : State) (p : PortId) (l : List Byte) (fcsOk : Bool) : State :=
  let h := frameContent l
  let t := (pByte h 0).toNat % 16
  if t = 2 then (if fcsOk then s.pdelayAnswer p h else s)
  else if t = 3 ∨ t = 10 then s
  else
    let s := if t = 0 && fcsOk then s.syncFrame p h else s
    if t ≤ 1 ∧ 16 ≤ h.length then
      let r := s.drawNat
      r.2.forwardOn (otherPort p) 3 (corrected l r.1) fcsOk
    else s.forwardOn (otherPort p) 6 l fcsOk

/-- `FRAME_RECEIVE`: a frame from destination address to the last byte before the FCS (R39, R42, R296). -/
def State.receive (s : State) (p : PortId) (l : List Byte) (fcsOk : Bool) : State :=
  let et := frameEtype l
  if !s.portUp p ∨ l.length < 14 ∨ 9212 < l.length ∨ stackedTags l ∨ et = 0x8808 then s
  else if et = 0x88F7 then s.ptpFrame p l fcsOk
  else if et = s.get ETH_ETYPE.VALUE then s.wembiFrame p l fcsOk
  else s.forwardOn (otherPort p) 6 l fcsOk

end Sys2Proof.Machine
end

