-- ==== Sys2Proof/Machine/HostCmds.lean ====
section
/-!
DEFINITION. Machine/HostCmds.lean: the host commands of R72: each arrives as a request of its own, whose CMAC is
right when it carries one.
-/
namespace Sys2Proof.Machine

/-- `IDENTIFY` (R72). -/
def execIdentify (rq : Req) (s : State) : Result :=
  .next (s.hostCommand rq .identify)

/-- `WINDOW_READ` (R68). -/
def execWindowRead (rq : Req) (off : Byte) (cnt : Byte) (s : State) : Result :=
  .next (s.hostCommand rq (.windowRead off cnt))

/-- `WINDOW_WRITE` (R69). -/
def execWindowWrite (rq : Req) (off : Byte) (val : Word) (s : State) : Result :=
  .next (s.hostCommand rq (.windowWrite off val))

/-- `SESSION_OPEN` (R57). -/
def execSessionOpen (rq : Req) (rights : BitVec 16) (nonce : BitVec 128) (s : State) : Result :=
  .next (s.hostCommand rq (.sessionOpen rights nonce))

/-- `SESSION_CLOSE` (R60). -/
def execSessionClose (rq : Req) (s : State) : Result :=
  .next (s.hostCommand rq .sessionClose)

/-- `STAGE_WRITE` (R80). -/
def execStageWrite (rq : Req) (item : Word) (words : List Word) (s : State) : Result :=
  .next (s.hostCommand rq (.stageWrite item words))

/-- `STAGE_READ` (R80). -/
def execStageRead (rq : Req) (item : Word) (n : BitVec 16) (bank : Byte) (s : State) : Result :=
  .next (s.hostCommand rq (.stageRead item n bank))

/-- `COMMIT` (R85). -/
def execCommit (rq : Req) (epoch : BitVec 16) (bound : Byte) (flags : Byte) (tmo : BitVec 16) (arg : BitVec 64)
    (s : State) : Result :=
  .next (s.hostCommand rq (.commit epoch bound flags tmo arg))

/-- `ABORT` (R88). -/
def execAbort (rq : Req) (s : State) : Result :=
  .next (s.hostCommand rq .abort)

/-- `QUERY_EPOCH` (R72). -/
def execQueryEpoch (rq : Req) (s : State) : Result :=
  .next (s.hostCommand rq .queryEpoch)

/-- `ARM` (R73). -/
def execArm (rq : Req) (mask : Word) (s : State) : Result :=
  .next (s.hostCommand rq (.arm mask))

/-- `DISARM` (R244). -/
def execDisarm (rq : Req) (mask : Word) (s : State) : Result :=
  .next (s.hostCommand rq (.disarm mask))

/-- `SET_REFERENCE` (R90). -/
def execSetReference (rq : Req) (sl : Byte) (idx : Byte) (val : Word) (s : State) : Result :=
  .next (s.hostCommand rq (.setReference sl idx val))

/-- `TRIP_CLEAR` (R74). -/
def execTripClear (rq : Req) (mask : Word) (s : State) : Result :=
  .next (s.hostCommand rq (.tripClear mask))

/-- `CAPTURE_START` (R351). -/
def execCaptureStart (rq : Req) (mask : Word) (kb : Word) (s : State) : Result :=
  .next (s.hostCommand rq (.captureStart mask kb))

/-- `CAPTURE_TRIGGER` (R352). -/
def execCaptureTrigger (rq : Req) (s : State) : Result :=
  .next (s.hostCommand rq .captureTrigger)

/-- `CAPTURE_READ` (R358). -/
def execCaptureRead (rq : Req) (off : BitVec 64) (len : Word) (s : State) : Result :=
  .next (s.hostCommand rq (.captureRead off len))

/-- `CAPTURE_FREEZE` (R354). -/
def execCaptureFreeze (rq : Req) (when : Byte) (t : BitVec 64) (s : State) : Result :=
  .next (s.hostCommand rq (.captureFreeze when t))

/-- `LEDGER_READ` (R379). -/
def execLedgerRead (rq : Req) (first : Word) (cnt : BitVec 16) (s : State) : Result :=
  .next (s.hostCommand rq (.ledgerRead first cnt))

/-- `LEDGER_ACK` (R380). -/
def execLedgerAck (rq : Req) (idx : Word) (head : BitVec 128) (sigR : BitVec 256) (sigS : BitVec 256)
    (s : State) : Result :=
  .next (s.hostCommand rq (.ledgerAck idx head sigR sigS))

/-- `LEDGER_STATUS` (R381). -/
def execLedgerStatus (rq : Req) (s : State) : Result :=
  .next (s.hostCommand rq .ledgerStatus)

/-- `TIME_SET` (R561). -/
def execTimeSet (rq : Req) (cal : CalFields) (s : State) : Result :=
  .next (s.hostCommand rq (.timeSet cal))

/-- `TIME_QUERY` (R72). -/
def execTimeQuery (rq : Req) (s : State) : Result :=
  .next (s.hostCommand rq .timeQuery)

/-- `IMAGE_WRITE` (R91). -/
def execImageWrite (rq : Req) (slot : Byte) (flags : Byte) (off : Word) (data : List Byte) (s : State) : Result :=
  .next (s.hostCommand rq (.imageWrite slot flags off data))

/-- `IMAGE_ACTIVATE` (R94). -/
def execImageActivate (rq : Req) (slot : Byte) (s : State) : Result :=
  .next (s.hostCommand rq (.imageActivate slot))

/-- `IMAGE_STATUS` (R91). -/
def execImageStatus (rq : Req) (s : State) : Result :=
  .next (s.hostCommand rq .imageStatus)

/-- `MODE_REQUEST` (R500). -/
def execModeRequest (rq : Req) (mode : Byte) (s : State) : Result :=
  .next (s.hostCommand rq (.modeRequest mode))

/-- `VOTE` (R507). -/
def execVote (rq : Req) (dom : Byte) (val : Byte) (s : State) : Result :=
  .next (s.hostCommand rq (.vote dom val))

/-- `MBX_PUT` (R289). -/
def execMbxPut (rq : Req) (ch : Byte) (words : List Word) (s : State) : Result :=
  .next (s.hostCommand rq (.mbxPut ch words))

/-- `MBX_GET` (R289). -/
def execMbxGet (rq : Req) (ch : Byte) (n : Byte) (s : State) : Result :=
  .next (s.hostCommand rq (.mbxGet ch n))

/-- `ENUMERATE` (R302). -/
def execEnumerate (rq : Req) (adr : Byte) (s : State) : Result :=
  .next (s.hostCommand rq (.enumerate adr))

/-- `RING_STATUS` (R72). -/
def execRingStatus (rq : Req) (s : State) : Result :=
  .next (s.hostCommand rq .ringStatus)

/-- `FAULT_INJECT` (R326). -/
def execFaultInject (rq : Req) (port : Byte) (kind : Byte) (n : BitVec 16) (etype : BitVec 16)
    (firstBit : BitVec 16) (bits : Byte) (s : State) : Result :=
  .next (s.hostCommand rq (.faultInject port kind n etype firstBit bits))

/-- `LC_ADVANCE` (R387). -/
def execLcAdvance (rq : Req) (target : Byte) (s : State) : Result :=
  .next (s.hostCommand rq (.lcAdvance target))

/-- `RETURN_REQUEST` (R392). -/
def execReturnRequest (rq : Req) (nonce : BitVec 128) (sigR : BitVec 256) (sigS : BitVec 256) (s : State) : Result :=
  .next (s.hostCommand rq (.returnRequest nonce sigR sigS))

/-- `REPLACE_HANDOVER` (R393). -/
def execReplaceHandover (rq : Req) (old : Byte) (sealIdx : Word) (head : BitVec 128) (sigR : BitVec 256)
    (sigS : BitVec 256) (s : State) : Result :=
  .next (s.hostCommand rq (.replaceHandover old sealIdx head sigR sigS))

end Sys2Proof.Machine
end

