-- ==== Sys2Proof/Machine/LoopCmds.lean ====
section
/-!
DEFINITION. Machine/LoopCmds.lean: the commands of the converters and comparators (05), the loop slices
(06), the gate outputs and the trip matrix (07), and the Granary (10).
-/
namespace Sys2Proof.Machine

/-! ### Converters -/

/-- `CV_SAMPLE_TASK` (R170 to R173). -/
def execCvSampleTask (n : CvId) (s : State) : Result := .next (s.awaitTask (· == (n : Nat)))

/-- A free-running converter takes its next sample, in the next sampling cycle in which it has not sampled (R170). -/
def State.cvFree (s : State) (n : Fin 24) : State :=
  if s.cvEn n && s.on (CV_CFG.MODE n) then
    let c :=
      if !s.evenPhase s.now then s.now + 1
      else if (s.cv[n]).lastFree = some s.now then s.now + 2 else s.now
    (s.reach c).cvFreeNow n
  else s

/-- `CV_FREE_RUN_SAMPLE` (R170). -/
def execCvFreeRunSample (n : CvId) (s : State) : Result := .next (s.cvFree n)

/-- `CV_STEP_TASK` (R179). -/
def execCvStepTask (n : CvId) (s : State) : Result := .next (s.awaitTask (· == 0x18 + (n : Nat)))

/-- `CV_REWIND_TASK` (R179, R186). -/
def execCvRewindTask (n : CvId) (s : State) : Result := .next (s.awaitTask (· == 0x30 + (n : Nat)))

/-- `CV_SEL_WRITE` (R180). -/
def execCvSelWrite (ag : Agent) (n : CvId) (ch : Fin 8) (s : State) : Result :=
  .next (s.writeCmd ag (CV_SEL.adr n) (BitVec.ofNat 32 ch))

/-- The oldest sample in flight of converter `n`, whose input was at level `input`, is delivered 15 cycles after its own, to
which time runs (R174). -/
def State.deliverResult (s : State) (n : Fin 24) (input : Int) : State :=
  match (s.cv[n]).flight with
  | [] => s
  | x :: _ =>
    let s := s.reach (x.inst / 16 + 15)
    match (s.cv[n]).flight with
    | [] => s
    | x :: l => (s.modCv n (fun (c : CvSt) => { c with flight := l })).deliverSample n x input

/-- `RESULT_DELIVERED` (R174, R175, R181 to R193). -/
def execResultDelivered (n : CvId) (input : Int) (s : State) : Result := .next (s.deliverResult n input)

/-- `CV_DATA_READ` (R182 to R184). -/
def execCvDataRead (ag : Agent) (n : CvId) (s : State) : Result := .next (s.readCmd ag (CV_DATA.adr n))

/-- `CV_DISABLE` (R187). -/
def execCvDisable (ag : Agent) (n : CvId) (s : State) : Result := .next (s.fieldCmd ag (CV_CFG.EN n) 0)

/-! ### Comparators -/

/-- `COMPARATOR_INPUT_CHANGE` (R194, R195). -/
def execComparatorInputChange (m : CmpId) (level : Int) (s : State) : Result := .next (s.cmpInput m level)

/-- The first cycle in which an output of comparator `m` that has still to pass on has held its value for FILT cycles
(R196). -/
def State.cmpPassAt (s : State) (m : Fin 32) : Option Nat :=
  let a := s.on (CMP_STAT.ABOVE m)
  let b := s.on (CMP_STAT.BELOW m)
  let c := s.cmp[m]
  (([(a != c.outAbove, c.sinceAbove), (b != c.outBelow, c.sinceBelow), ((a || b) != c.outOutside, c.sinceOutside)].filter
    (·.1)).map (fun (x : Bool × Nat) => x.2 + s.get (CMP_CFG.FILT m))).min?

/-- Time runs to the cycle in which the next output of comparator `m` passes on. -/
def State.cmpFilter (s : State) (m : Fin 32) : State :=
  match s.cmpPassAt m with
  | some c => (s.reach c).cmpPass m
  | none => s

/-- Time runs to the end of the hold of comparator `m` (R197). -/
def State.cmpRelease (s : State) (m : Fin 32) : State :=
  if s.on (CMP_STAT.BLANK m) then (s.reach (s.cmp[m]).releaseAt).cmpDue m else s

/-- `COMPARATOR_FILTER_EXPIRY` (R196). -/
def execComparatorFilterExpiry (m : CmpId) (s : State) : Result := .next (s.cmpFilter m)

/-- `COMPARATOR_BLANK_END` (R197). -/
def execComparatorBlankEnd (m : CmpId) (s : State) : Result := .next (s.cmpRelease m)

/-! ### Slices -/

/-- The run begins for which a trigger waits, or whose start task comes next (R201). -/
def State.sliceStart (s : State) (n : Fin 16) : State :=
  (if (s.slc[n]).trigs.isEmpty then s.awaitTask (· == 0x48 + (n : Nat)) else s).slcCycle n

/-- The period timer of slice `n` expires in its cycle, to which time runs (R203). -/
def State.slcTimer (s : State) (n : Fin 16) : State :=
  match s.timerAt n with
  | some c => (s.reach c).timerDue n
  | none => s

/-- `SLICE_RUN_START` (R201). -/
def execSliceRunStart (n : SliceId) (s : State) : Result := .next (s.sliceStart n)

/-- `SLICE_PERIOD_TIMER` (R203). -/
def execSlicePeriodTimer (n : SliceId) (s : State) : Result := .next (s.slcTimer n)

/-- `TWIN_CLEAR` (R234). -/
def execTwinClear (ag : Agent) (n : SliceId) (s : State) : Result :=
  .next (s.writeCmd ag (SLC_STAT.adr n) 0x8000)

/-- `SLC_REF_WRITE` (R230). -/
def execSlcRefWrite (ag : Agent) (n : SliceId) (k : Fin 32) (val : Word) (s : State) : Result :=
  .next (s.writeCmd ag (SLC_REF.adr n k) val)

/-- `SLC_IZERO` (R228). -/
def execSlcIzero (ag : Agent) (n : SliceId) (mask : BitVec 8) (s : State) : Result :=
  .next (s.writeCmd ag (SLC_CMD.adr n) (mask.setWidth 32))

/-- `SLC_INJ` (R236). -/
def execSlcInj (ag : Agent) (n : SliceId) (s : State) : Result := .next (s.writeCmd ag (SLC_CMD.adr n) 0x100)

/-- `SLC_ZERO_INTEGRATORS_TASK` (R228). -/
def execSlcZeroIntegratorsTask (n : SliceId) (s : State) : Result := .next (s.awaitTask (· == 0x58 + (n : Nat)))

/-- `SLC_ENABLE` (R237). -/
def execSlcEnable (ag : Agent) (n : SliceId) (s : State) : Result := .next (s.fieldCmd ag (SLC_CTRL.EN n) 1)

/-- `SLC_DISABLE` (R238). -/
def execSlcDisable (ag : Agent) (n : SliceId) (s : State) : Result := .next (s.fieldCmd ag (SLC_CTRL.EN n) 0)

/-- `SLC_PROGRAM_STORE_WRITE` (R225, R226). -/
def execSlcProgramStoreWrite (ag : Agent) (n : SliceId) (prog : Fin 8) (uop : Fin 32) (w : Fin 2) (val : Word)
    (s : State) : Result := .next (s.writeCmd ag (storeAddr n prog uop w) val)

/-- `SLC_ENERGY_READ` (R220). -/
def execSlcEnergyRead (ag : Agent) (n : SliceId) (s : State) : Result :=
  .next (s.readCmd ag (SLC_ENERGY_LO.adr n))

/-! ### Gate outputs and trip matrix -/

/-- `GOU_ARMREQ` (R243). -/
def execGouArmreq (ag : Agent) (mask : Word) (s : State) : Result := .next (s.writeCmd ag GOU_ARMREQ.adr mask)

/-- `GOU_DISARM` (R244). -/
def execGouDisarm (ag : Agent) (mask : Word) (s : State) : Result := .next (s.writeCmd ag GOU_DISARM.adr mask)

/-- `GOU_TRIPCLR` (R267). -/
def execGouTripclr (ag : Agent) (mask : Word) (s : State) : Result := .next (s.writeCmd ag GOU_TRIPCLR.adr mask)

/-- `PAIR_CROSSING_COMMIT` (R249 to R256). -/
def execPairCrossingCommit (p : PairId) (s : State) : Result := .next (s.pairScan p)

/-- The next output change of pair `p` is made in its cycle, to which time runs (R245, R247). -/
def State.placeEdge (s : State) (p : Fin 32) : State :=
  match s.nextChange p with
  | some x => ((s.reach (x.1 / 16)).placeOne p).2
  | none => s

/-- `EDGE_PLACEMENT` (R245 to R248). -/
def execEdgePlacement (p : PairId) (s : State) : Result := .next (s.placeEdge p)

/-- `DIRECT_PULSE_START` (R258). -/
def execDirectPulseStart (p : PairId) (s : State) : Result := .next (s.awaitTask (· == 0x68 + (p : Nat)))

/-- A change of pin TRIPIN j to `level`, from the present cycle on (R263). -/
def State.tripinChange (s : State) (j : Fin 4) (level : Bool) : State :=
  if (s.tripin[j]).level = level then s
  else { s with tripin := s.tripin.set j { level := level, since := s.now } }

/-- `TRIPIN_PIN_CHANGE` (R263, R264). -/
def execTripinPinChange (j : Fin 4) (level : Bool) (s : State) : Result := .next (s.tripinChange j level)

/-- `GOU_CLOCK_STOP` (R271). -/
def execGouClockStop (s : State) : Result := .next ((s.enableOff blkGOU).clockStopped blkGOU)

/-! ### Granary -/

/-- `GRN_START` (R351). -/
def execGrnStart (ag : Agent) (s : State) : Result := .next (s.writeCmd ag GRN_CMD.adr 1)

/-- `GRN_TRIG` (R352). -/
def execGrnTrig (ag : Agent) (s : State) : Result := .next (s.writeCmd ag GRN_CMD.adr 2)

/-- `GRN_FREEZE` (R353). -/
def execGrnFreeze (ag : Agent) (s : State) : Result := .next (s.writeCmd ag GRN_CMD.adr 4)

/-- `GRN_FRZAT` (R354). -/
def execGrnFrzat (ag : Agent) (s : State) : Result := .next (s.writeCmd ag GRN_CMD.adr 8)

/-- `CAPTURE_TASK` (R352, R353). -/
def execCaptureTask (s : State) : Result := .next (s.awaitTask (fun t => t == 0x98 || t == 0x99))

/-- `CAPTURE_MARK_TASK` (R355). -/
def execCaptureMarkTask (s : State) : Result := .next (s.awaitTask (fun t => decide (0x9A ≤ t ∧ t < 0xA0)))

/-- `POST_TRIGGER_COMPLETE` (R352). -/
def execPostTriggerComplete (s : State) : Result := .next s.grnPostDone

/-- `FREEZE_TIME_REACHED` (R354): the first cycle at or after the armed time comes. -/
def execFreezeTimeReached (s : State) : Result :=
  .next (if s.grn.armed then (s.reach (s.cycleOfPtp s.grnFrzTime)).grnTimeFreeze else s)

/-- `GRANARY_BLOCK_WRITE` (R349, R350). -/
def execGranaryBlockWrite (s : State) : Result := .next s.grnWrite

/-- `GRANARY_DISABLE_FREEZE` (R357): the clock enable is cleared; the capture freezes and the clock stops. -/
def execGranaryDisableFreeze (s : State) : Result := .next ((s.enableOff blkGRN).clockStopped blkGRN)

end Sys2Proof.Machine
end

