-- ==== Sys2Proof/Machine/PowerCmds.lean ====
section
/-!
DEFINITION. Machine/PowerCmds.lean: the commands of power, domains and clocks (15), and the writes of the reset
requests (19).
-/
namespace Sys2Proof.Machine

/-! ### Modes, votes and domains -/

/-- `APM_MODE_REQ` (R500). -/
def execApmModeReq (ag : Agent) (req : BitVec 2) (s : State) : Result :=
  .next (s.writeCmd ag APM_MODE.adr (BitVec.ofNat 32 (16 * req.toNat)))

/-- `APM_VOTE_SET` (R507). -/
def execApmVoteSet (ag : Agent) (val : Word) (s : State) : Result := .next (s.writeCmd ag APM_VOTE_SET.adr val)

/-- `APM_VOTE_CLR` (R507). -/
def execApmVoteClr (ag : Agent) (val : Word) (s : State) : Result := .next (s.writeCmd ag APM_VOTE_CLR.adr val)

/-- `DOMAIN_DESCENT_COMPLETE` (R508, R526): not before the cycle in which the domain's blocks stop. -/
def execDomainDescentComplete (d : Dom) (s : State) : Result :=
  let x := s.dom[domIx d]
  .next (if x.phase = .descending then (s.reach (x.since + 1)).descentDone (domIx d) else s)

/-- `DOMAIN_RETURN_COMPLETE` (R512). -/
def execDomainReturnComplete (d : Dom) (s : State) : Result := .next (s.returnDone (domIx d))

/-- `WAKE_SOURCE_FIRE` (R510, R511). -/
def execWakeSourceFire (i : Fin 11) (s : State) : Result := .next (if s.aoOn then s.wakeFire i else s)

/-- The wake detector of a port sees the pattern or signal energy while the link domain is not at H0 (R513). -/
def State.linkWake (s : State) (p : PortId) : State :=
  if s.aoOn && !s.domUp .link && decide (s.mode ≠ mCellar) then
    let i := portIx p
    let s := { s with port := s.port.set i { s.port[i] with woken := true } }
    s.wakeFire i
  else s

/-- `LINK_WAKE_DETECT` (R511, R513). -/
def execLinkWakeDetect (port : PortId) (s : State) : Result := .next (s.linkWake port)

/-- The wake pattern has been sent for LEN µs on the ports without a detected wake, and training begins on them
(R514). -/
def State.wakeRepeat (s : State) : State :=
  if s.port.any (·.pattern) then
    let s := s.reach (s.now + usLc (max 5 (s.get APM_LWAKE.LEN)))
    { s with port := s.port.map (fun p =>
      { p with training := p.training || p.pattern, pattern := false }) }
  else s

/-- `LINK_WAKE_REPEAT` (R514). -/
def execLinkWakeRepeat (s : State) : Result := .next s.wakeRepeat

/-! ### Supplies -/

/-- `VSYS_FAIL` (R502). -/
def execVsysFail (s : State) : Result := .next s.vsysFail

/-- `VSYS_RETURN` (R527). -/
def execVsysReturn (s : State) : Result := .next s.vsysReturn

/-- `RAIL_OUT_OF_RANGE` (R609). -/
def execRailOutOfRange (d : Dom) (s : State) : Result := .next (s.railOut (domIx d))

/-- `RAIL_IN_RANGE` (R609). -/
def execRailInRange (d : Dom) (s : State) : Result := .next (s.railIn (domIx d))

/-! ### Clocks -/

/-- `CPM_CLKEN_WRITE` (R525, R526). -/
def execCpmClkenWrite (ag : Agent) (val : Word) (s : State) : Result := .next (s.writeCmd ag CPM_CLKEN.adr val)

/-- `BLOCK_CLOCK_STOPPED` (R525). -/
def execBlockClockStopped (b : Fin 10) (s : State) : Result := .next (s.clockStopped b)

/-- `CLOCK_SWITCH_REQUEST` (R516). -/
def execClockSwitchRequest (ag : Agent) (src : BitVec 2) (s : State) : Result :=
  .next (s.fieldCmd ag CPM_CLK_CTRL.SRC src.toNat)

/-- `CLOCK_SLEW_LOCK` (R517). -/
def execClockSlewLock (s : State) : Result := .next s.slewLock

/-- `HOLDOVER_ENTRY` (R518). -/
def execHoldoverEntry (s : State) : Result := .next s.holdoverEntry

/-- `HOLDOVER_EXPIRY` (R519). -/
def execHoldoverExpiry (s : State) : Result := .next s.holdoverExpiry

/-- `HRC_READY` (R515). -/
def execHrcReady (s : State) : Result := .next s.hrcReady

/-- `XO32_READY` (R520). -/
def execXo32Ready (s : State) : Result := .next s.xoReady

/-- `XO32_LOST` (R522). -/
def execXo32Lost (s : State) : Result := .next s.xoLost

/-- `BRC_READY` (R520, R523). -/
def execBrcReady (s : State) : Result := .next s.brcReady

/-- `AO_REGISTER_ACCESS_STALL` (R32): the access itself waits on the bus for BRC. -/
def execAoRegisterAccessStall (ag : Agent) (acc : RegAccess) (s : State) : Result :=
  .next (match acc.write with
    | none => s.readCmd ag acc.adr.toNat
    | some w => s.writeCmd ag acc.adr.toNat w)

/-! ### Reset requests, the watchdog's register and the control pairs (19, 14) -/

/-- `APM_RSTREQ_AO` (R613, R614). -/
def execApmRstreqAo (ag : Agent) (s : State) : Result := .next (s.writeCmd ag APM_RSTREQ.adr 1)

/-- `APM_RSTREQ_FAST` (R613). -/
def execApmRstreqFast (ag : Agent) (s : State) : Result := .next (s.writeCmd ag APM_RSTREQ.adr 2)

/-- `APM_RSTREQ_LINK` (R613). -/
def execApmRstreqLink (ag : Agent) (s : State) : Result := .next (s.writeCmd ag APM_RSTREQ.adr 4)

/-- `WATCHDOG_KICK` (R616): a write of 1 to KICK. -/
def execWatchdogKick (ag : Agent) (s : State) : Result := .next (s.fieldCmd ag CPM_WDOG.KICK 1)

/-- `WATCHDOG_ENABLE` (R616): a write with EN. -/
def execWatchdogEnable (ag : Agent) (val : Word) (s : State) : Result :=
  .next (s.writeCmd ag CPM_WDOG.adr (val ||| 0x80000000#32))

/-- `CPM_BOOT_WRITE` (R622). -/
def execCpmBootWrite (ag : Agent) (val : Word) (s : State) : Result := .next (s.writeCmd ag CPM_BOOT.adr val)

/-- `CPM_PAIR_HOLD` (R494). -/
def execCpmPairHold (ag : Agent) (n : Fin 2) (hold : Bool) (s : State) : Result :=
  .next (s.fieldCmd ag (CPM_PAIR_RST.HOLD n) (b2n hold))

/-- `CPM_PAIR_INJ` (R496): a write of 1 to INJ. -/
def execCpmPairInj (ag : Agent) (n : Fin 2) (s : State) : Result := .next (s.fieldCmd ag (CPM_PAIR_RST.INJ n) 1)

end Sys2Proof.Machine
end

