-- ==== Sys2Proof/Machine/SecOps.lean ====
section
/-!
DEFINITION. Machine/SecOps.lean: provisioning items (R389), the debug unlock and channel (R390, R391) and the
JTAG port (R390).
-/
namespace Sys2Proof.Machine

/-- The resident firmware runs and reaches the mailboxes. -/
def State.firmwareUp (s : State) : Bool := (s.fwst == 2 || s.fwst == 3) && !s.recovering && s.mbxOpen

/-! ### Provisioning (R389) -/

/-- A big-endian number in words. -/
def wordsNum (l : List Word) : Nat := ofBeBytes (wordBytes l)

/-- The words of an item's data by its code; none for an undefined code. -/
def itemWords (code : Nat) : Option Nat :=
  if code = 1 then some 2 else if code = 2 then some 1 else if code = 3 then some 4
  else if code = 4 ∨ code = 5 then some 16 else none

/-- SEC stores an item. -/
def SecSt.store (x : SecSt) (code : Nat) (l : List Word) : SecSt :=
  if code = 1 then { x with mac := some (BitVec.ofNat 48 (wordsNum l / 2 ^ 16)) }
  else if code = 2 then { x with etype := some (BitVec.ofNat 16 (wordsNum l)) }
  else if code = 3 then { x with oemSession := some (BitVec.ofNat 128 (wordsNum l)) }
  else if code = 4 then { x with oemImage := some (BitVec.ofNat 512 (wordsNum l)) }
  else { x with oemLedger := some (BitVec.ofNat 512 (wordsNum l)) }

/-- Why an item is refused; 0 when it is stored. -/
def State.itemStatus (s : State) (code n : Nat) : Nat :=
  let life : Bool := match s.puts[1] with
    | some p => p.auth && p.life
    | none => false
  if s.lcs = .deployed ∨ s.lcs = .returned then 0x0203
  else if s.lcs = .provisioned ∧ !life then 0x0202
  else match itemWords code with
    | none => 0x0102
    | some k => if k = n then 0 else 0x0101

/-- `PROVISIONING_ITEM`: the firmware takes the words on MBX14, and stores and answers the item that they
complete. -/
def State.provisioning (s : State) : State :=
  if s.firmwareUp then
    match s.prov ++ (s.chan[14]).dev with
    | [] => s
    | h :: l =>
      let n := fieldOf h 15 0
      let code := fieldOf h 31 16
      if l.length < n then ({ s with prov := h :: l } : State).setQueue 14 false []
      else
        let st := s.itemStatus code n
        let s := ({ s with prov := [] } : State).setQueue 14 false (l.drop n)
        let s := if st = 0 then { s with sec := s.sec.store code (l.take n) } else s
        (s.mbxPush 14 true (BitVec.ofNat 32 st)).2
  else s

/-! ### Debug (R390, R391) -/

/-- `DEBUG_UNLOCK`: the unlock word alone in an authenticated `MBX_PUT` of a session with LIFE that is still
open. -/
def State.debugUnlock (s : State) : State :=
  if s.firmwareUp && !s.dbgChan then
    match (s.chan[13]).dev, s.puts[0] with
    | [w], some p =>
      if w = 0x44424755 ∧ p.auth ∧ p.life ∧ p.count = 1 ∧ (s.session p.tag).isSome then
        ({ s with openBy := some p.tag } : State).setQueue 13 false []
      else s
    | _, _ => s
  else s

/-- A memory word that the debug port may reach; an access that is not word-aligned is a bus error (DESIGN
CHOICE). -/
def State.debugMem (s : State) (a : Nat) (wr : Bool) : Bool :=
  !isRegAddr a && a % 4 == 0 && s.mapped a && s.allows .debug a wr

/-- One access of the debug port, with the rights of MGT0: the word read, 0 for a write, none for a bus error. A word with
two bits in error is answered as a bus error (DESIGN CHOICE: the table of R333 has no row for the debug port). -/
def State.debugAccess (s : State) (a : Nat) (wr : Option Word) : Option Word × State :=
  match wr with
  | none =>
    if isRegAddr a then s.busRead .debug a
    else if s.debugMem a false then
      (if s.spoiltAny a 4 then none else some (BitVec.ofNat 32 (s.memNum a 4)), s.eccReads a 4)
    else (none, s)
  | some w =>
    if isRegAddr a then
      let r := s.busWrite .debug a w
      (if r.1 then some 0 else none, r.2)
    else if s.debugMem a true then (some 0, s.putLe a 4 w.toNat) else (none, s)

/-- The access is made and answered on the host-bound queue. -/
def State.debugAnswer (s : State) (a : Nat) (wr : Option Word) : State :=
  let r := s.debugAccess a wr
  match r.1 with
  | some w => (r.2.mbxPush 13 true w).2
  | none => ((r.2.raise SEC_DBG.BERR).mbxPush 13 true 0xFFFFFFFF).2

/-- `DEBUG_TRANSACTION`: the words of one transaction are taken from MBX13 once they are all there. -/
def State.debugTransaction (s : State) : State :=
  if s.mbxOpen && s.dbgChan then
    match (s.chan[13]).dev with
    | w0 :: w1 :: l =>
      let a := fieldOf w0 7 0 * 2 ^ 32 + w1.toNat
      if w0.getLsbD 31 then
        (match l with
         | w2 :: l => (s.setQueue 13 false l).debugAnswer a (some w2)
         | [] => s)
      else (s.setQueue 13 false l).debugAnswer a none
    | _ => s
  else s

/-! ### JTAG (R390) -/

/-- Full access through JTAG. -/
def State.jtagFull (s : State) : Bool := decide (s.lcs ≠ .deployed) && s.dbgOpen

/-- `JTAG_ACCESS`: what the state does not permit selects BYPASS (PRESUMED: IEEE 1149.1). The access itself has
the rights of the debug port (DESIGN CHOICE). -/
def State.jtag (s : State) : JtagOp → State
  | .idcode => { s with tap := .idcode, answer := some Config.idcode }
  | .bypass => { s with tap := .bypass, answer := none }
  | .sample => { s with tap := if s.jtagFull || decide (s.lcs = .deployed) then .sample else .bypass, answer := none }
  | .access acc =>
    if s.jtagFull then
      let r := s.debugAccess acc.adr.toNat acc.write
      { r.2 with tap := .access, answer := r.1 }
    else { s with tap := .bypass, answer := none }

end Sys2Proof.Machine
end

