-- ==== Sys2Proof/Machine/RingCmds.lean ====
section
/-!
DEFINITION. Machine/RingCmds.lean: the commands of the link and the ring (02, 09), of a commit under way (02), of
provisioning, debug and JTAG (11).
-/
namespace Sys2Proof.Machine

/-! ### Frames and replies -/

/-- `FRAME_RECEIVE` (R42). -/
def execFrameReceive (port : PortId) (frame : List Byte) (fcsOk : Bool) (s : State) : Result :=
  .next (s.receive port frame fcsOk)

/-- `FINAL_REPLY` (R54). -/
def execFinalReply (s : State) : Result := .next s.sendFinal

/-! ### Device frames. A command of its own stands for a device frame that is taken in; its forwarding is that of
`FRAME_RECEIVE`. -/

/-- `HEARTBEAT_RECEIVE` (R310, R325). -/
def execHeartbeatReceive (sender : Byte) (mac : BitVec 48) (hb : Heartbeat) (s : State) : Result :=
  .next (if s.domUp .link then s.heartbeatIn sender.toNat mac hb else s)

/-- `HEARTBEAT_SEND` (R308). -/
def execHeartbeatSend (s : State) : Result := .next s.heartbeatSend

/-- `HEARTBEAT_MEMBER_SILENT` (R310). -/
def execHeartbeatMemberSilent (dev : Fin 64) (s : State) : Result := .next (s.memberSilent dev)

/-- `ANGLE_SHARE_SEND` (R311). -/
def execAngleShareSend (s : State) : Result := .next s.shareSend

/-- `ANGLE_SHARE_RECEIVE` (R313). -/
def execAngleShareReceive (sender : Byte) (sh : AngleShare) (s : State) : Result :=
  .next (if s.domUp .link then s.shareIn sender.toNat sh else s)

/-- `RING_TRIP_REPEAT` (R314). -/
def execRingTripRepeat (s : State) : Result := .next s.tripRepeat

/-- `RING_TRIP_RECEIVE` (R316). -/
def execRingTripReceive (sender : Byte) (rt : RingTrip) (s : State) : Result :=
  .next (if s.domUp .link then s.tripIn sender.toNat rt else s)

/-! ### Two-phase commit and the switch -/

/-- `COMMIT_READY_SEND` (R319). -/
def execCommitReadySend (s : State) : Result := .next s.readySend

/-- `COMMIT_ABORT_SEND` (R319). -/
def execCommitAbortSend (s : State) : Result := .next s.abortSend

/-- `COMMIT_READY_RECEIVE` (R320). -/
def execCommitReadyReceive (sender : Byte) (epoch : BitVec 16) (t : BitVec 64) (s : State) : Result :=
  .next (if s.domUp .link then s.readyIn sender.toNat epoch t.toNat else s)

/-- `COMMIT_ABORT_RECEIVE` (R320): which device sent it does not matter. -/
def execCommitAbortReceive (_sender : Byte) (epoch : BitVec 16) (t : BitVec 64) (s : State) : Result :=
  .next (if s.domUp .link then s.abortIn epoch t.toNat else s)

/-- `TWO_PHASE_DECISION` (R320). -/
def execTwoPhaseDecision (s : State) : Result := .next s.decide2

/-- `COMMIT_SWITCH` (R86). -/
def execCommitSwitch (s : State) : Result := .next s.commitSwitch

/-- `COMMIT_TIMEOUT` (R87). -/
def execCommitTimeout (s : State) : Result := .next s.commitTimeout

/-- `COMMIT_PERSIST_DONE` (R89). -/
def execCommitPersistDone (s : State) : Result := .next s.persistDone

/-! ### PTP and ports -/

/-- `PTP_SYNC_RECEIVE` (R306, R307). -/
def execPtpSyncReceive (port : PortId) (gm : BitVec 64) (offset : Int) (s : State) : Result :=
  .next (if s.portUp port then s.syncIn (portIx port) gm (20 * offset) else s)

/-- `PTP_SYNC_SEND` (R304). -/
def execPtpSyncSend (s : State) : Result := .next s.syncSend

/-- `UPSTREAM_SWITCH` (R307). -/
def execUpstreamSwitch (s : State) : Result := .next s.upstreamSwitch

/-- `LINK_TRAINED` (R515). -/
def execLinkTrained (port : PortId) (s : State) : Result := .next (s.linkTrained (portIx port))

/-- `LINK_DOWN` (R307). -/
def execLinkDown (port : PortId) (s : State) : Result := .next (s.linkDown (portIx port))

/-- `STOPS_HEARING_GRANDMASTER` (R307). -/
def execStopsHearingGrandmaster (port : PortId) (s : State) : Result :=
  .next (s.modPort (portIx port) (fun x => { x with hears := false }))

/-- `PREEMPTION_VERIFIED` (R40). -/
def execPreemptionVerified (port : PortId) (s : State) : Result := .next (s.preemptVerified (portIx port))

/-- `INJECTION_REORDER_TIMEOUT` (R327). -/
def execInjectionReorderTimeout (port : PortId) (s : State) : Result := .next (s.reorderTimeout (portIx port))

/-- `SESSION_TIMEOUT` (R60). -/
def execSessionTimeout (tag : Word) (s : State) : Result := .next (s.sessionTimeout tag)

/-! ### Provisioning, debug and JTAG -/

/-- `PROVISIONING_ITEM` (R389). -/
def execProvisioningItem (s : State) : Result := .next s.provisioning

/-- `DEBUG_UNLOCK` (R390). -/
def execDebugUnlock (s : State) : Result := .next s.debugUnlock

/-- `DEBUG_TRANSACTION` (R391). -/
def execDebugTransaction (s : State) : Result := .next s.debugTransaction

/-- `JTAG_ACCESS` (R390). -/
def execJtagAccess (jop : JtagOp) (s : State) : Result := .next (s.jtag jop)

end Sys2Proof.Machine
end

