-- ==== Sys2Proof/Machine/StartCmds.lean ====
section
/-!
DEFINITION. Machine/StartCmds.lean: the commands of start-up, reset and boot (19), and the JTAG port (11).
-/
namespace Sys2Proof.Machine

/-- `ALWAYS_ON_START` (R610, R611). -/
def execAlwaysOnStart (s : State) : Result := .next s.aoStarted

/-- `PORESET` (R613, R614). -/
def execPoreset (s : State) : Result := .next s.poreset

/-- `TRST` (R613): the TAP alone is reset; its instruction is then IDCODE (PRESUMED: IEEE 1149.1). -/
def execTrst (s : State) : Result := .next { s with tap := .idcode }

/-- `WATCHDOG_EXPIRY` (R616). -/
def execWatchdogExpiry (s : State) : Result := .next s.watchdog

/-- `BOOT_ROM_DECISION` (R620). -/
def execBootRomDecision (s : State) : Result := .next s.bootDecision

/-- `IMAGE_VERIFY_DONE` (R91, R619). -/
def execImageVerifyDone (slot : Fin 2) (s : State) : Result :=
  .next (if (s.img[slot]).state = 2 then s.verifySlot slot else s)

/-- `AOC_BOOT_PATH` (R623). -/
def execAocBootPath (s : State) : Result := .next s.aocBoot

/-- `CONFIG_RESTORE` (R624). -/
def execConfigRestore (s : State) : Result := .next s.configRestore

end Sys2Proof.Machine
end

