-- ==== Sys2Proof/Machine/Dispatch.lean ====
section
/-!
DEFINITION. Machine/Dispatch.lean: one arm for each command of the opcode table.
-/
namespace Sys2Proof.Machine

def exec (i : Instr) (s : State) : Host.Outcome State Fault Refusal :=
  match i with
  | .identify rq => Sys2Proof.Machine.execIdentify rq s
  | .windowRead rq off cnt => Sys2Proof.Machine.execWindowRead rq off cnt s
  | .windowWrite rq off val => Sys2Proof.Machine.execWindowWrite rq off val s
  | .sessionOpen rq rights nonce => Sys2Proof.Machine.execSessionOpen rq rights nonce s
  | .sessionClose rq => Sys2Proof.Machine.execSessionClose rq s
  | .stageWrite rq item words => Sys2Proof.Machine.execStageWrite rq item words s
  | .stageRead rq item n bank => Sys2Proof.Machine.execStageRead rq item n bank s
  | .commit rq epoch bound flags tmo arg => Sys2Proof.Machine.execCommit rq epoch bound flags tmo arg s
  | .abort rq => Sys2Proof.Machine.execAbort rq s
  | .queryEpoch rq => Sys2Proof.Machine.execQueryEpoch rq s
  | .arm rq mask => Sys2Proof.Machine.execArm rq mask s
  | .disarm rq mask => Sys2Proof.Machine.execDisarm rq mask s
  | .setReference rq sl idx val => Sys2Proof.Machine.execSetReference rq sl idx val s
  | .tripClear rq mask => Sys2Proof.Machine.execTripClear rq mask s
  | .captureStart rq mask kb => Sys2Proof.Machine.execCaptureStart rq mask kb s
  | .captureTrigger rq => Sys2Proof.Machine.execCaptureTrigger rq s
  | .captureRead rq off len => Sys2Proof.Machine.execCaptureRead rq off len s
  | .captureFreeze rq when t => Sys2Proof.Machine.execCaptureFreeze rq when t s
  | .ledgerRead rq first cnt => Sys2Proof.Machine.execLedgerRead rq first cnt s
  | .ledgerAck rq idx head sigR sigS => Sys2Proof.Machine.execLedgerAck rq idx head sigR sigS s
  | .ledgerStatus rq => Sys2Proof.Machine.execLedgerStatus rq s
  | .timeSet rq cal => Sys2Proof.Machine.execTimeSet rq cal s
  | .timeQuery rq => Sys2Proof.Machine.execTimeQuery rq s
  | .imageWrite rq slot flags off data => Sys2Proof.Machine.execImageWrite rq slot flags off data s
  | .imageActivate rq slot => Sys2Proof.Machine.execImageActivate rq slot s
  | .imageStatus rq => Sys2Proof.Machine.execImageStatus rq s
  | .modeRequest rq mode => Sys2Proof.Machine.execModeRequest rq mode s
  | .vote rq dom val => Sys2Proof.Machine.execVote rq dom val s
  | .mbxPut rq ch words => Sys2Proof.Machine.execMbxPut rq ch words s
  | .mbxGet rq ch n => Sys2Proof.Machine.execMbxGet rq ch n s
  | .enumerate rq adr => Sys2Proof.Machine.execEnumerate rq adr s
  | .ringStatus rq => Sys2Proof.Machine.execRingStatus rq s
  | .faultInject rq port kind n etype firstBit bits => Sys2Proof.Machine.execFaultInject rq port kind n etype firstBit bits s
  | .lcAdvance rq target => Sys2Proof.Machine.execLcAdvance rq target s
  | .returnRequest rq nonce sigR sigS => Sys2Proof.Machine.execReturnRequest rq nonce sigR sigS s
  | .replaceHandover rq old sealIdx head sigR sigS => Sys2Proof.Machine.execReplaceHandover rq old sealIdx head sigR sigS s
  | .frameReceive port frame fcsOk => Sys2Proof.Machine.execFrameReceive port frame fcsOk s
  | .finalReply => Sys2Proof.Machine.execFinalReply s
  | .heartbeatReceive sender mac hb => Sys2Proof.Machine.execHeartbeatReceive sender mac hb s
  | .heartbeatSend => Sys2Proof.Machine.execHeartbeatSend s
  | .heartbeatMemberSilent dev => Sys2Proof.Machine.execHeartbeatMemberSilent dev s
  | .angleShareSend => Sys2Proof.Machine.execAngleShareSend s
  | .angleShareReceive sender sh => Sys2Proof.Machine.execAngleShareReceive sender sh s
  | .ringTripRepeat => Sys2Proof.Machine.execRingTripRepeat s
  | .ringTripReceive sender rt => Sys2Proof.Machine.execRingTripReceive sender rt s
  | .commitReadySend => Sys2Proof.Machine.execCommitReadySend s
  | .commitAbortSend => Sys2Proof.Machine.execCommitAbortSend s
  | .commitReadyReceive sender epoch t => Sys2Proof.Machine.execCommitReadyReceive sender epoch t s
  | .commitAbortReceive sender epoch t => Sys2Proof.Machine.execCommitAbortReceive sender epoch t s
  | .twoPhaseDecision => Sys2Proof.Machine.execTwoPhaseDecision s
  | .ptpSyncReceive port gm offset => Sys2Proof.Machine.execPtpSyncReceive port gm offset s
  | .ptpSyncSend => Sys2Proof.Machine.execPtpSyncSend s
  | .upstreamSwitch => Sys2Proof.Machine.execUpstreamSwitch s
  | .linkTrained port => Sys2Proof.Machine.execLinkTrained port s
  | .injectionReorderTimeout port => Sys2Proof.Machine.execInjectionReorderTimeout port s
  | .sessionTimeout tag => Sys2Proof.Machine.execSessionTimeout tag s
  | .commitSwitch => Sys2Proof.Machine.execCommitSwitch s
  | .commitTimeout => Sys2Proof.Machine.execCommitTimeout s
  | .commitPersistDone => Sys2Proof.Machine.execCommitPersistDone s
  | .trkMeasurement n => Sys2Proof.Machine.execTrkMeasurement n s
  | .encoderEdge n a b ts => Sys2Proof.Machine.execEncoderEdge n a b ts s
  | .encoderBoundaryMeasurement n => Sys2Proof.Machine.execEncoderBoundaryMeasurement n s
  | .encoderIndex n ts => Sys2Proof.Machine.execEncoderIndex n ts s
  | .ssiStart n => Sys2Proof.Machine.execSsiStart n s
  | .ssiFrameComplete n bits low => Sys2Proof.Machine.execSsiFrameComplete n bits low s
  | .observerLoad ag n ang => Sys2Proof.Machine.execObserverLoad ag n ang s
  | .trkLossCondition n cond => Sys2Proof.Machine.execTrkLossCondition n cond s
  | .trkCoastExpiry n => Sys2Proof.Machine.execTrkCoastExpiry n s
  | .trkLostClear ag n => Sys2Proof.Machine.execTrkLostClear ag n s
  | .trkEnable ag n en => Sys2Proof.Machine.execTrkEnable ag n en s
  | .trkSourceChange ag n ty iface srca => Sys2Proof.Machine.execTrkSourceChange ag n ty iface srca s
  | .trkMultChange ag n mult => Sys2Proof.Machine.execTrkMultChange ag n mult s
  | .trkAngRead ag n => Sys2Proof.Machine.execTrkAngRead ag n s
  | .almanacCommit n => Sys2Proof.Machine.execAlmanacCommit n s
  | .almanacFiringIssue n => Sys2Proof.Machine.execAlmanacFiringIssue n s
  | .almArm ag idx set => Sys2Proof.Machine.execAlmArm ag idx set s
  | .almanacClockStop => Sys2Proof.Machine.execAlmanacClockStop s
  | .evfSwev ag mask => Sys2Proof.Machine.execEvfSwev ag mask s
  | .evfAoSwev ag mask => Sys2Proof.Machine.execEvfAoSwev ag mask s
  | .evfClockStop => Sys2Proof.Machine.execEvfClockStop s
  | .cvSampleTask n => Sys2Proof.Machine.execCvSampleTask n s
  | .cvFreeRunSample n => Sys2Proof.Machine.execCvFreeRunSample n s
  | .cvStepTask n => Sys2Proof.Machine.execCvStepTask n s
  | .cvRewindTask n => Sys2Proof.Machine.execCvRewindTask n s
  | .cvSelWrite ag n ch => Sys2Proof.Machine.execCvSelWrite ag n ch s
  | .resultDelivered n input => Sys2Proof.Machine.execResultDelivered n input s
  | .cvDataRead ag n => Sys2Proof.Machine.execCvDataRead ag n s
  | .cvDisable ag n => Sys2Proof.Machine.execCvDisable ag n s
  | .comparatorInputChange m level => Sys2Proof.Machine.execComparatorInputChange m level s
  | .comparatorFilterExpiry m => Sys2Proof.Machine.execComparatorFilterExpiry m s
  | .comparatorBlankEnd m => Sys2Proof.Machine.execComparatorBlankEnd m s
  | .sliceRunStart n => Sys2Proof.Machine.execSliceRunStart n s
  | .slicePeriodTimer n => Sys2Proof.Machine.execSlicePeriodTimer n s
  | .twinClear ag n => Sys2Proof.Machine.execTwinClear ag n s
  | .slcRefWrite ag n k val => Sys2Proof.Machine.execSlcRefWrite ag n k val s
  | .slcIzero ag n mask => Sys2Proof.Machine.execSlcIzero ag n mask s
  | .slcInj ag n => Sys2Proof.Machine.execSlcInj ag n s
  | .slcZeroIntegratorsTask n => Sys2Proof.Machine.execSlcZeroIntegratorsTask n s
  | .slcEnable ag n => Sys2Proof.Machine.execSlcEnable ag n s
  | .slcDisable ag n => Sys2Proof.Machine.execSlcDisable ag n s
  | .slcProgramStoreWrite ag n prog uop w val => Sys2Proof.Machine.execSlcProgramStoreWrite ag n prog uop w val s
  | .slcEnergyRead ag n => Sys2Proof.Machine.execSlcEnergyRead ag n s
  | .gouArmreq ag mask => Sys2Proof.Machine.execGouArmreq ag mask s
  | .gouDisarm ag mask => Sys2Proof.Machine.execGouDisarm ag mask s
  | .gouTripclr ag mask => Sys2Proof.Machine.execGouTripclr ag mask s
  | .pairCrossingCommit p => Sys2Proof.Machine.execPairCrossingCommit p s
  | .edgePlacement p => Sys2Proof.Machine.execEdgePlacement p s
  | .directPulseStart p => Sys2Proof.Machine.execDirectPulseStart p s
  | .tripinPinChange j level => Sys2Proof.Machine.execTripinPinChange j level s
  | .gouClockStop => Sys2Proof.Machine.execGouClockStop s
  | .mbxPush ag ch hostBound val => Sys2Proof.Machine.execMbxPush ag ch hostBound val s
  | .mbxPop ag ch hostBound => Sys2Proof.Machine.execMbxPop ag ch hostBound s
  | .doorbellRing ag mask => Sys2Proof.Machine.execDoorbellRing ag mask s
  | .mbxClockStop => Sys2Proof.Machine.execMbxClockStop s
  | .grnStart ag => Sys2Proof.Machine.execGrnStart ag s
  | .grnTrig ag => Sys2Proof.Machine.execGrnTrig ag s
  | .grnFreeze ag => Sys2Proof.Machine.execGrnFreeze ag s
  | .grnFrzat ag => Sys2Proof.Machine.execGrnFrzat ag s
  | .captureTask => Sys2Proof.Machine.execCaptureTask s
  | .captureMarkTask => Sys2Proof.Machine.execCaptureMarkTask s
  | .postTriggerComplete => Sys2Proof.Machine.execPostTriggerComplete s
  | .freezeTimeReached => Sys2Proof.Machine.execFreezeTimeReached s
  | .granaryBlockWrite => Sys2Proof.Machine.execGranaryBlockWrite s
  | .granaryDisableFreeze => Sys2Proof.Machine.execGranaryDisableFreeze s
  | .calendarTick => Sys2Proof.Machine.execCalendarTick s
  | .calendarSecondCarry => Sys2Proof.Machine.execCalendarSecondCarry s
  | .calendarTrim => Sys2Proof.Machine.execCalendarTrim s
  | .periodicWake => Sys2Proof.Machine.execPeriodicWake s
  | .rtcApply ag val => Sys2Proof.Machine.execRtcApply ag val s
  | .rtcReadFreeze ag k => Sys2Proof.Machine.execRtcReadFreeze ag k s
  | .rtcRelease ag => Sys2Proof.Machine.execRtcRelease ag s
  | .rtcFreezeTimeout => Sys2Proof.Machine.execRtcFreezeTimeout s
  | .hourEntry => Sys2Proof.Machine.execHourEntry s
  | .ledgerSlotWrite => Sys2Proof.Machine.execLedgerSlotWrite s
  | .ledgerSeal => Sys2Proof.Machine.execLedgerSeal s
  | .lgrNote ag => Sys2Proof.Machine.execLgrNote ag s
  | .lgrSealRequest ag => Sys2Proof.Machine.execLgrSealRequest ag s
  | .ledgerRecovery => Sys2Proof.Machine.execLedgerRecovery s
  | .ledgerCondense => Sys2Proof.Machine.execLedgerCondense s
  | .tamperAssert j => Sys2Proof.Machine.execTamperAssert j s
  | .parkedMotionSample a b => Sys2Proof.Machine.execParkedMotionSample a b s
  | .provisioningItem => Sys2Proof.Machine.execProvisioningItem s
  | .debugUnlock => Sys2Proof.Machine.execDebugUnlock s
  | .debugTransaction => Sys2Proof.Machine.execDebugTransaction s
  | .apmModeReq ag req => Sys2Proof.Machine.execApmModeReq ag req s
  | .apmVoteSet ag val => Sys2Proof.Machine.execApmVoteSet ag val s
  | .apmVoteClr ag val => Sys2Proof.Machine.execApmVoteClr ag val s
  | .domainDescentComplete d => Sys2Proof.Machine.execDomainDescentComplete d s
  | .domainReturnComplete d => Sys2Proof.Machine.execDomainReturnComplete d s
  | .wakeSourceFire src => Sys2Proof.Machine.execWakeSourceFire src s
  | .linkWakeDetect port => Sys2Proof.Machine.execLinkWakeDetect port s
  | .linkWakeRepeat => Sys2Proof.Machine.execLinkWakeRepeat s
  | .vsysFail => Sys2Proof.Machine.execVsysFail s
  | .vsysReturn => Sys2Proof.Machine.execVsysReturn s
  | .railOutOfRange d => Sys2Proof.Machine.execRailOutOfRange d s
  | .cpmClkenWrite ag val => Sys2Proof.Machine.execCpmClkenWrite ag val s
  | .blockClockStopped b => Sys2Proof.Machine.execBlockClockStopped b s
  | .clockSwitchRequest ag src => Sys2Proof.Machine.execClockSwitchRequest ag src s
  | .clockSlewLock => Sys2Proof.Machine.execClockSlewLock s
  | .holdoverEntry => Sys2Proof.Machine.execHoldoverEntry s
  | .holdoverExpiry => Sys2Proof.Machine.execHoldoverExpiry s
  | .hrcReady => Sys2Proof.Machine.execHrcReady s
  | .xo32Ready => Sys2Proof.Machine.execXo32Ready s
  | .xo32Lost => Sys2Proof.Machine.execXo32Lost s
  | .brcReady => Sys2Proof.Machine.execBrcReady s
  | .aoRegisterAccessStall ag acc => Sys2Proof.Machine.execAoRegisterAccessStall ag acc s
  | .vocSample voc => Sys2Proof.Machine.execVocSample voc s
  | .purseRecompute vin vstore => Sys2Proof.Machine.execPurseRecompute vin vstore s
  | .grantRequest h amount => Sys2Proof.Machine.execGrantRequest h amount s
  | .grantReturn h => Sys2Proof.Machine.execGrantReturn h s
  | .brownOutWarning => Sys2Proof.Machine.execBrownOutWarning s
  | .sealThreshold => Sys2Proof.Machine.execSealThreshold s
  | .finalSequenceComplete => Sys2Proof.Machine.execFinalSequenceComplete s
  | .cellarExit => Sys2Proof.Machine.execCellarExit s
  | .aoPowerUp => Sys2Proof.Machine.execAoPowerUp s
  | .aoPowerLoss => Sys2Proof.Machine.execAoPowerLoss s
  | .alwaysOnStart => Sys2Proof.Machine.execAlwaysOnStart s
  | .uartCharReceived n char => Sys2Proof.Machine.execUartCharReceived n char s
  | .uartTxStart n => Sys2Proof.Machine.execUartTxStart n s
  | .uartDataWrite ag n val => Sys2Proof.Machine.execUartDataWrite ag n val s
  | .uartDataRead ag n => Sys2Proof.Machine.execUartDataRead ag n s
  | .rxflush ag n => Sys2Proof.Machine.execRxflush ag n s
  | .txflush ag n => Sys2Proof.Machine.execTxflush ag n s
  | .uartDepthWrite ag n val => Sys2Proof.Machine.execUartDepthWrite ag n val s
  | .uartIdle n => Sys2Proof.Machine.execUartIdle n s
  | .uartDisable ag n rx tx => Sys2Proof.Machine.execUartDisable ag n rx tx s
  | .touchScan raws => Sys2Proof.Machine.execTouchScan raws s
  | .touchRecal ag hi keys => Sys2Proof.Machine.execTouchRecal ag hi keys s
  | .touchReportRead ag => Sys2Proof.Machine.execTouchReportRead ag s
  | .touchEnterNoiseTask => Sys2Proof.Machine.execTouchEnterNoiseTask s
  | .touchLeaveNoiseTask => Sys2Proof.Machine.execTouchLeaveNoiseTask s
  | .touchDisable ag => Sys2Proof.Machine.execTouchDisable ag s
  | .lcdUpd ag mask => Sys2Proof.Machine.execLcdUpd ag mask s
  | .framePairBoundary => Sys2Proof.Machine.execFramePairBoundary s
  | .lcdTempSample t => Sys2Proof.Machine.execLcdTempSample t s
  | .lcdTrimLoad ag val => Sys2Proof.Machine.execLcdTrimLoad ag val s
  | .lcdTrimLoadDone => Sys2Proof.Machine.execLcdTrimLoadDone s
  | .lcdPumpSettled => Sys2Proof.Machine.execLcdPumpSettled s
  | .lcdDisable ag => Sys2Proof.Machine.execLcdDisable ag s
  | .poreset => Sys2Proof.Machine.execPoreset s
  | .apmRstreqAo ag => Sys2Proof.Machine.execApmRstreqAo ag s
  | .apmRstreqFast ag => Sys2Proof.Machine.execApmRstreqFast ag s
  | .apmRstreqLink ag => Sys2Proof.Machine.execApmRstreqLink ag s
  | .trst => Sys2Proof.Machine.execTrst s
  | .watchdogExpiry => Sys2Proof.Machine.execWatchdogExpiry s
  | .watchdogKick ag => Sys2Proof.Machine.execWatchdogKick ag s
  | .watchdogEnable ag val => Sys2Proof.Machine.execWatchdogEnable ag val s
  | .bootRomDecision => Sys2Proof.Machine.execBootRomDecision s
  | .imageVerifyDone slot => Sys2Proof.Machine.execImageVerifyDone slot s
  | .aocBootPath => Sys2Proof.Machine.execAocBootPath s
  | .configRestore => Sys2Proof.Machine.execConfigRestore s
  | .cpmBootWrite ag val => Sys2Proof.Machine.execCpmBootWrite ag val s
  | .cpmPairHold ag n hold => Sys2Proof.Machine.execCpmPairHold ag n hold s
  | .cpmPairInj ag n => Sys2Proof.Machine.execCpmPairInj ag n s
  | .lockstepMismatch n => Sys2Proof.Machine.execLockstepMismatch n s
  | .interruptEntry c => Sys2Proof.Machine.execInterruptEntry c s
  | .timerMatch c => Sys2Proof.Machine.execTimerMatch c s
  | .longOperationComplete c => Sys2Proof.Machine.execLongOperationComplete c s
  | .hdtLoad c cap => Sys2Proof.Machine.execHdtLoad c cap s
  | .sstkDiscard c n => Sys2Proof.Machine.execSstkDiscard c n s
  | .svcWrite c val => Sys2Proof.Machine.execSvcWrite c val s
  | .predCtxWrite c val => Sys2Proof.Machine.execPredCtxWrite c val s
  | .sealmaskWrite c k val => Sys2Proof.Machine.execSealmaskWrite c k val s
  | .pairedWord c slotA slotB low => Sys2Proof.Machine.execPairedWord c slotA slotB low s
  | .add c rd rs1 rs2 => Sys2Proof.Machine.execAdd c rd rs1 rs2 s
  | .sub c rd rs1 rs2 => Sys2Proof.Machine.execSub c rd rs1 rs2 s
  | .and c rd rs1 rs2 => Sys2Proof.Machine.execAnd c rd rs1 rs2 s
  | .or c rd rs1 rs2 => Sys2Proof.Machine.execOr c rd rs1 rs2 s
  | .xor c rd rs1 rs2 => Sys2Proof.Machine.execXor c rd rs1 rs2 s
  | .sll c rd rs1 rs2 => Sys2Proof.Machine.execSll c rd rs1 rs2 s
  | .srl c rd rs1 rs2 => Sys2Proof.Machine.execSrl c rd rs1 rs2 s
  | .sra c rd rs1 rs2 => Sys2Proof.Machine.execSra c rd rs1 rs2 s
  | .slt c rd rs1 rs2 => Sys2Proof.Machine.execSlt c rd rs1 rs2 s
  | .sltu c rd rs1 rs2 => Sys2Proof.Machine.execSltu c rd rs1 rs2 s
  | .min c rd rs1 rs2 => Sys2Proof.Machine.execMin c rd rs1 rs2 s
  | .max c rd rs1 rs2 => Sys2Proof.Machine.execMax c rd rs1 rs2 s
  | .minu c rd rs1 rs2 => Sys2Proof.Machine.execMinu c rd rs1 rs2 s
  | .maxu c rd rs1 rs2 => Sys2Proof.Machine.execMaxu c rd rs1 rs2 s
  | .slli c rd rs1 sh => Sys2Proof.Machine.execSlli c rd rs1 sh s
  | .srli c rd rs1 sh => Sys2Proof.Machine.execSrli c rd rs1 sh s
  | .srai c rd rs1 sh => Sys2Proof.Machine.execSrai c rd rs1 sh s
  | .adds c rd rs1 rs2 => Sys2Proof.Machine.execAdds c rd rs1 rs2 s
  | .subs c rd rs1 rs2 => Sys2Proof.Machine.execSubs c rd rs1 rs2 s
  | .clz c rd rs1 => Sys2Proof.Machine.execClz c rd rs1 s
  | .sextb c rd rs1 => Sys2Proof.Machine.execSextb c rd rs1 s
  | .sexth c rd rs1 => Sys2Proof.Machine.execSexth c rd rs1 s
  | .zexth c rd rs1 => Sys2Proof.Machine.execZexth c rd rs1 s
  | .addi c rd rs1 imm => Sys2Proof.Machine.execAddi c rd rs1 imm s
  | .andi c rd rs1 imm => Sys2Proof.Machine.execAndi c rd rs1 imm s
  | .ori c rd rs1 imm => Sys2Proof.Machine.execOri c rd rs1 imm s
  | .xori c rd rs1 imm => Sys2Proof.Machine.execXori c rd rs1 imm s
  | .slti c rd rs1 imm => Sys2Proof.Machine.execSlti c rd rs1 imm s
  | .sltiu c rd rs1 imm => Sys2Proof.Machine.execSltiu c rd rs1 imm s
  | .lui c rd imm => Sys2Proof.Machine.execLui c rd imm s
  | .lb c rd cap rb imm => Sys2Proof.Machine.execLb c rd cap rb imm s
  | .lbu c rd cap rb imm => Sys2Proof.Machine.execLbu c rd cap rb imm s
  | .lh c rd cap rb imm => Sys2Proof.Machine.execLh c rd cap rb imm s
  | .lhu c rd cap rb imm => Sys2Proof.Machine.execLhu c rd cap rb imm s
  | .lw c rd cap rb imm => Sys2Proof.Machine.execLw c rd cap rb imm s
  | .sb c rd cap rb imm => Sys2Proof.Machine.execSb c rd cap rb imm s
  | .sh c rd cap rb imm => Sys2Proof.Machine.execSh c rd cap rb imm s
  | .sw c rd cap rb imm => Sys2Proof.Machine.execSw c rd cap rb imm s
  | .cld c cr cap rb imm => Sys2Proof.Machine.execCld c cr cap rb imm s
  | .cst c cr cap rb imm => Sys2Proof.Machine.execCst c cr cap rb imm s
  | .swap c rd cap rb rs => Sys2Proof.Machine.execSwap c rd cap rb rs s
  | .amoAdd c rd cap rb rs => Sys2Proof.Machine.execAmoAdd c rd cap rb rs s
  | .cas c rd cap rb rs rc => Sys2Proof.Machine.execCas c rd cap rb rs rc s
  | .ccopy c cd cs => Sys2Proof.Machine.execCcopy c cd cs s
  | .craise c cd cs rs => Sys2Proof.Machine.execCraise c cd cs rs s
  | .ctrim c cd cs rs => Sys2Proof.Machine.execCtrim c cd cs rs s
  | .cmaskp c cd cs rs => Sys2Proof.Machine.execCmaskp c cd cs rs s
  | .cwrap c cd cs rs => Sys2Proof.Machine.execCwrap c cd cs rs s
  | .cunwrap c cd cs => Sys2Proof.Machine.execCunwrap c cd cs s
  | .cuntag c cd cs => Sys2Proof.Machine.execCuntag c cd cs s
  | .crdb c rs cs => Sys2Proof.Machine.execCrdb c rs cs s
  | .crdbh c rs cs => Sys2Proof.Machine.execCrdbh c rs cs s
  | .crdl c rs cs => Sys2Proof.Machine.execCrdl c rs cs s
  | .crdlh c rs cs => Sys2Proof.Machine.execCrdlh c rs cs s
  | .crdp c rs cs => Sys2Proof.Machine.execCrdp c rs cs s
  | .crds c rs cs => Sys2Proof.Machine.execCrds c rs cs s
  | .crdt c rs cs => Sys2Proof.Machine.execCrdt c rs cs s
  | .mul c rd rs1 rs2 => Sys2Proof.Machine.execMul c rd rs1 rs2 s
  | .mulh c rd rs1 rs2 => Sys2Proof.Machine.execMulh c rd rs1 rs2 s
  | .mulhu c rd rs1 rs2 => Sys2Proof.Machine.execMulhu c rd rs1 rs2 s
  | .mulhsu c rd rs1 rs2 => Sys2Proof.Machine.execMulhsu c rd rs1 rs2 s
  | .div c rd rs1 rs2 => Sys2Proof.Machine.execDiv c rd rs1 rs2 s
  | .divu c rd rs1 rs2 => Sys2Proof.Machine.execDivu c rd rs1 rs2 s
  | .rem c rd rs1 rs2 => Sys2Proof.Machine.execRem c rd rs1 rs2 s
  | .remu c rd rs1 rs2 => Sys2Proof.Machine.execRemu c rd rs1 rs2 s
  | .sqrtu c rd rs1 => Sys2Proof.Machine.execSqrtu c rd rs1 s
  | .fadd c rd rs1 rs2 => Sys2Proof.Machine.execFadd c rd rs1 rs2 s
  | .fsub c rd rs1 rs2 => Sys2Proof.Machine.execFsub c rd rs1 rs2 s
  | .fmul c rd rs1 rs2 => Sys2Proof.Machine.execFmul c rd rs1 rs2 s
  | .fdiv c rd rs1 rs2 => Sys2Proof.Machine.execFdiv c rd rs1 rs2 s
  | .fsqrt c rd rs1 => Sys2Proof.Machine.execFsqrt c rd rs1 s
  | .fmin c rd rs1 rs2 => Sys2Proof.Machine.execFmin c rd rs1 rs2 s
  | .fmax c rd rs1 rs2 => Sys2Proof.Machine.execFmax c rd rs1 rs2 s
  | .feq c rd rs1 rs2 => Sys2Proof.Machine.execFeq c rd rs1 rs2 s
  | .flt c rd rs1 rs2 => Sys2Proof.Machine.execFlt c rd rs1 rs2 s
  | .fle c rd rs1 rs2 => Sys2Proof.Machine.execFle c rd rs1 rs2 s
  | .fcvtws c rd rs1 => Sys2Proof.Machine.execFcvtws c rd rs1 s
  | .fcvtwus c rd rs1 => Sys2Proof.Machine.execFcvtwus c rd rs1 s
  | .fcvtsw c rd rs1 => Sys2Proof.Machine.execFcvtsw c rd rs1 s
  | .fcvtswu c rd rs1 => Sys2Proof.Machine.execFcvtswu c rd rs1 s
  | .fneg c rd rs1 => Sys2Proof.Machine.execFneg c rd rs1 s
  | .fabs c rd rs1 => Sys2Proof.Machine.execFabs c rd rs1 s
  | .fmadd c rd rs1 rs2 rs3 => Sys2Proof.Machine.execFmadd c rd rs1 rs2 rs3 s
  | .fmsub c rd rs1 rs2 rs3 => Sys2Proof.Machine.execFmsub c rd rs1 rs2 rs3 s
  | .fnmadd c rd rs1 rs2 rs3 => Sys2Proof.Machine.execFnmadd c rd rs1 rs2 rs3 s
  | .csr c rd rs1 kind num => Sys2Proof.Machine.execCsr c rd rs1 kind num s
  | .fence c => Sys2Proof.Machine.execFence c s
  | .reti c => Sys2Proof.Machine.execReti c s
  | .wfe c => Sys2Proof.Machine.execWfe c s
  | .icinv c cs rs => Sys2Proof.Machine.execIcinv c cs rs s
  | .bpflush c => Sys2Proof.Machine.execBpflush c s
  | .ecall c => Sys2Proof.Machine.execEcall c s
  | .breakpoint c => Sys2Proof.Machine.execBreakpoint c s
  | .beq c rs1 rs2 an disp => Sys2Proof.Machine.execBeq c rs1 rs2 an disp s
  | .bne c rs1 rs2 an disp => Sys2Proof.Machine.execBne c rs1 rs2 an disp s
  | .blt c rs1 rs2 an disp => Sys2Proof.Machine.execBlt c rs1 rs2 an disp s
  | .bge c rs1 rs2 an disp => Sys2Proof.Machine.execBge c rs1 rs2 an disp s
  | .bltu c rs1 rs2 an disp => Sys2Proof.Machine.execBltu c rs1 rs2 an disp s
  | .bgeu c rs1 rs2 an disp => Sys2Proof.Machine.execBgeu c rs1 rs2 an disp s
  | .jmp c disp => Sys2Proof.Machine.execJmp c disp s
  | .call c disp => Sys2Proof.Machine.execCall c disp s
  | .jumpr c rs1 imm => Sys2Proof.Machine.execJumpr c rs1 imm s
  | .callr c rs1 imm => Sys2Proof.Machine.execCallr c rs1 imm s
  | .ret c => Sys2Proof.Machine.execRet c s
  | .jc c cs rs => Sys2Proof.Machine.execJc c cs rs s
  | .callc c cs rs => Sys2Proof.Machine.execCallc c cs rs s
  | .retc c => Sys2Proof.Machine.execRetc c s
  | .brpt c follow => Sys2Proof.Machine.execBrpt c follow s
  | .registerWrite ag adr val => Sys2Proof.Machine.execRegisterWrite ag adr val s
  | .linkDown port => Sys2Proof.Machine.execLinkDown port s
  | .stopsHearingGrandmaster port => Sys2Proof.Machine.execStopsHearingGrandmaster port s
  | .preemptionVerified port => Sys2Proof.Machine.execPreemptionVerified port s
  | .storeFull => Sys2Proof.Machine.execStoreFull s
  | .scrambleDrawComplete c => Sys2Proof.Machine.execScrambleDrawComplete c s
  | .jtagAccess jop => Sys2Proof.Machine.execJtagAccess jop s
  | .railInRange d => Sys2Proof.Machine.execRailInRange d s

end Sys2Proof.Machine
end

