-- ==== Sys2Proof/WellFormed.lean ====
section
/-!
DEFINITION. WellFormed.lean: which terms of `Instr` stand for a command that can reach the block. A field whose
type already holds it to its range needs no check here; what is checked is the length of the lists and the size
of the measured numbers. No meaning reads these checks: `exec` gives an ill-formed term an effect too.
-/
namespace Sys2Proof

/-- The list has fewer than `n` elements. -/
def listFits {α : Type} (n : Nat) (l : List α) : Bool := decide (l.length < n)

/-- The data of an `IMAGE_WRITE` are 8 to 9,144 bytes in multiples of 8 (R72). -/
def imageFits (data : List Byte) : Bool :=
  decide (8 ≤ data.length) && decide (data.length ≤ 9144) && decide (data.length % 8 = 0)

/-- Who brings a command to the block: a host in a request, an agent on the bus, a core as an instruction or an
event of its own, or the surroundings and the block itself. -/
inductive Sender
  | host | bus | core | event
  deriving DecidableEq, Repr

/-- The term stands for a command that can reach the block. -/
def Instr.wf (i : Instr) : Bool :=
  match i with
  | .identify _ => true
  | .windowRead _ _ _ => true
  | .windowWrite _ _ _ => true
  | .sessionOpen _ _ _ => true
  | .sessionClose _ => true
  | .stageWrite _ _ words => listFits 2287 words
  | .stageRead _ _ _ _ => true
  | .commit _ _ _ _ _ _ => true
  | .abort _ => true
  | .queryEpoch _ => true
  | .arm _ _ => true
  | .disarm _ _ => true
  | .setReference _ _ _ _ => true
  | .tripClear _ _ => true
  | .captureStart _ _ _ => true
  | .captureTrigger _ => true
  | .captureRead _ _ _ => true
  | .captureFreeze _ _ _ => true
  | .ledgerRead _ _ _ => true
  | .ledgerAck _ _ _ _ _ => true
  | .ledgerStatus _ => true
  | .timeSet _ _ => true
  | .timeQuery _ => true
  | .imageWrite _ _ _ _ data => imageFits data
  | .imageActivate _ _ => true
  | .imageStatus _ => true
  | .modeRequest _ _ => true
  | .vote _ _ _ => true
  | .mbxPut _ _ words => listFits 256 words
  | .mbxGet _ _ _ => true
  | .enumerate _ _ => true
  | .ringStatus _ => true
  | .faultInject _ _ _ _ _ _ _ => true
  | .lcAdvance _ _ => true
  | .returnRequest _ _ _ _ => true
  | .replaceHandover _ _ _ _ _ _ => true
  | .frameReceive _ frame _ => decide (14 ≤ frame.length) && listFits 9213 frame
  | .finalReply => true
  | .heartbeatReceive _ _ _ => true
  | .heartbeatSend => true
  | .heartbeatMemberSilent _ => true
  | .angleShareSend => true
  | .angleShareReceive _ share => decide (1 ≤ share.records.length) && listFits 17 share.records
  | .ringTripRepeat => true
  | .ringTripReceive _ _ => true
  | .commitReadySend => true
  | .commitAbortSend => true
  | .commitReadyReceive _ _ _ => true
  | .commitAbortReceive _ _ _ => true
  | .twoPhaseDecision => true
  | .ptpSyncReceive _ _ _ => true
  | .ptpSyncSend => true
  | .upstreamSwitch => true
  | .linkTrained _ => true
  | .injectionReorderTimeout _ => true
  | .sessionTimeout _ => true
  | .commitSwitch => true
  | .commitTimeout => true
  | .commitPersistDone => true
  | .trkMeasurement _ => true
  | .encoderEdge _ _ _ _ => true
  | .encoderBoundaryMeasurement _ => true
  | .encoderIndex _ _ => true
  | .ssiStart _ => true
  | .ssiFrameComplete _ _ _ => true
  | .observerLoad _ _ _ => true
  | .trkLossCondition _ _ => true
  | .trkCoastExpiry _ => true
  | .trkLostClear _ _ => true
  | .trkEnable _ _ _ => true
  | .trkSourceChange _ _ _ _ _ => true
  | .trkMultChange _ _ _ => true
  | .trkAngRead _ _ => true
  | .almanacCommit _ => true
  | .almanacFiringIssue _ => true
  | .almArm _ _ _ => true
  | .almanacClockStop => true
  | .evfSwev _ _ => true
  | .evfAoSwev _ _ => true
  | .evfClockStop => true
  | .cvSampleTask _ => true
  | .cvFreeRunSample _ => true
  | .cvStepTask _ => true
  | .cvRewindTask _ => true
  | .cvSelWrite _ _ _ => true
  | .resultDelivered _ _ => true
  | .cvDataRead _ _ => true
  | .cvDisable _ _ => true
  | .comparatorInputChange _ _ => true
  | .comparatorFilterExpiry _ => true
  | .comparatorBlankEnd _ => true
  | .sliceRunStart _ => true
  | .slicePeriodTimer _ => true
  | .twinClear _ _ => true
  | .slcRefWrite _ _ _ _ => true
  | .slcIzero _ _ _ => true
  | .slcInj _ _ => true
  | .slcZeroIntegratorsTask _ => true
  | .slcEnable _ _ => true
  | .slcDisable _ _ => true
  | .slcProgramStoreWrite _ _ _ _ _ _ => true
  | .slcEnergyRead _ _ => true
  | .gouArmreq _ _ => true
  | .gouDisarm _ _ => true
  | .gouTripclr _ _ => true
  | .pairCrossingCommit _ => true
  | .edgePlacement _ => true
  | .directPulseStart _ => true
  | .tripinPinChange _ _ => true
  | .gouClockStop => true
  | .mbxPush _ _ _ _ => true
  | .mbxPop _ _ _ => true
  | .doorbellRing _ _ => true
  | .mbxClockStop => true
  | .grnStart _ => true
  | .grnTrig _ => true
  | .grnFreeze _ => true
  | .grnFrzat _ => true
  | .captureTask => true
  | .captureMarkTask => true
  | .postTriggerComplete => true
  | .freezeTimeReached => true
  | .granaryBlockWrite => true
  | .granaryDisableFreeze => true
  | .calendarTick => true
  | .calendarSecondCarry => true
  | .calendarTrim => true
  | .periodicWake => true
  | .rtcApply _ _ => true
  | .rtcReadFreeze _ _ => true
  | .rtcRelease _ => true
  | .rtcFreezeTimeout => true
  | .hourEntry => true
  | .ledgerSlotWrite => true
  | .ledgerSeal => true
  | .lgrNote _ => true
  | .lgrSealRequest _ => true
  | .ledgerRecovery => true
  | .ledgerCondense => true
  | .tamperAssert _ => true
  | .parkedMotionSample _ _ => true
  | .provisioningItem => true
  | .debugUnlock => true
  | .debugTransaction => true
  | .apmModeReq _ _ => true
  | .apmVoteSet _ _ => true
  | .apmVoteClr _ _ => true
  | .domainDescentComplete _ => true
  | .domainReturnComplete _ => true
  | .wakeSourceFire _ => true
  | .linkWakeDetect _ => true
  | .linkWakeRepeat => true
  | .vsysFail => true
  | .vsysReturn => true
  | .railOutOfRange _ => true
  | .cpmClkenWrite _ _ => true
  | .blockClockStopped _ => true
  | .clockSwitchRequest _ _ => true
  | .clockSlewLock => true
  | .holdoverEntry => true
  | .holdoverExpiry => true
  | .hrcReady => true
  | .xo32Ready => true
  | .xo32Lost => true
  | .brcReady => true
  | .aoRegisterAccessStall _ _ => true
  | .vocSample voc => decide (voc < 65536)
  | .purseRecompute _ _ => true
  | .grantRequest _ _ => true
  | .grantReturn _ => true
  | .brownOutWarning => true
  | .sealThreshold => true
  | .finalSequenceComplete => true
  | .cellarExit => true
  | .aoPowerUp => true
  | .aoPowerLoss => true
  | .alwaysOnStart => true
  | .uartCharReceived _ char => listFits 13 char.samples
  | .uartTxStart _ => true
  | .uartDataWrite _ _ _ => true
  | .uartDataRead _ _ => true
  | .rxflush _ _ => true
  | .txflush _ _ => true
  | .uartDepthWrite _ _ _ => true
  | .uartIdle _ => true
  | .uartDisable _ _ _ _ => true
  | .touchScan raws => listFits 196 raws && raws.all (fun r => decide (r < 65536))
  | .touchRecal _ _ _ => true
  | .touchReportRead _ => true
  | .touchEnterNoiseTask => true
  | .touchLeaveNoiseTask => true
  | .touchDisable _ => true
  | .lcdUpd _ _ => true
  | .framePairBoundary => true
  | .lcdTempSample _ => true
  | .lcdTrimLoad _ _ => true
  | .lcdTrimLoadDone => true
  | .lcdPumpSettled => true
  | .lcdDisable _ => true
  | .poreset => true
  | .apmRstreqAo _ => true
  | .apmRstreqFast _ => true
  | .apmRstreqLink _ => true
  | .trst => true
  | .watchdogExpiry => true
  | .watchdogKick _ => true
  | .watchdogEnable _ _ => true
  | .bootRomDecision => true
  | .imageVerifyDone _ => true
  | .aocBootPath => true
  | .configRestore => true
  | .cpmBootWrite _ _ => true
  | .cpmPairHold _ _ _ => true
  | .cpmPairInj _ _ => true
  | .lockstepMismatch _ => true
  | .interruptEntry _ => true
  | .timerMatch _ => true
  | .longOperationComplete _ => true
  | .hdtLoad _ _ => true
  | .sstkDiscard _ _ => true
  | .svcWrite _ _ => true
  | .predCtxWrite _ _ => true
  | .sealmaskWrite _ _ _ => true
  | .pairedWord _ _ _ _ => true
  | .add _ _ _ _ => true
  | .sub _ _ _ _ => true
  | .and _ _ _ _ => true
  | .or _ _ _ _ => true
  | .xor _ _ _ _ => true
  | .sll _ _ _ _ => true
  | .srl _ _ _ _ => true
  | .sra _ _ _ _ => true
  | .slt _ _ _ _ => true
  | .sltu _ _ _ _ => true
  | .min _ _ _ _ => true
  | .max _ _ _ _ => true
  | .minu _ _ _ _ => true
  | .maxu _ _ _ _ => true
  | .slli _ _ _ _ => true
  | .srli _ _ _ _ => true
  | .srai _ _ _ _ => true
  | .adds _ _ _ _ => true
  | .subs _ _ _ _ => true
  | .clz _ _ _ => true
  | .sextb _ _ _ => true
  | .sexth _ _ _ => true
  | .zexth _ _ _ => true
  | .addi _ _ _ _ => true
  | .andi _ _ _ _ => true
  | .ori _ _ _ _ => true
  | .xori _ _ _ _ => true
  | .slti _ _ _ _ => true
  | .sltiu _ _ _ _ => true
  | .lui _ _ _ => true
  | .lb _ _ _ _ _ => true
  | .lbu _ _ _ _ _ => true
  | .lh _ _ _ _ _ => true
  | .lhu _ _ _ _ _ => true
  | .lw _ _ _ _ _ => true
  | .sb _ _ _ _ _ => true
  | .sh _ _ _ _ _ => true
  | .sw _ _ _ _ _ => true
  | .cld _ _ _ _ _ => true
  | .cst _ _ _ _ _ => true
  | .swap _ _ _ _ _ => true
  | .amoAdd _ _ _ _ _ => true
  | .cas _ _ _ _ _ _ => true
  | .ccopy _ _ _ => true
  | .craise _ _ _ _ => true
  | .ctrim _ _ _ _ => true
  | .cmaskp _ _ _ _ => true
  | .cwrap _ _ _ _ => true
  | .cunwrap _ _ _ => true
  | .cuntag _ _ _ => true
  | .crdb _ _ _ => true
  | .crdbh _ _ _ => true
  | .crdl _ _ _ => true
  | .crdlh _ _ _ => true
  | .crdp _ _ _ => true
  | .crds _ _ _ => true
  | .crdt _ _ _ => true
  | .mul _ _ _ _ => true
  | .mulh _ _ _ _ => true
  | .mulhu _ _ _ _ => true
  | .mulhsu _ _ _ _ => true
  | .div _ _ _ _ => true
  | .divu _ _ _ _ => true
  | .rem _ _ _ _ => true
  | .remu _ _ _ _ => true
  | .sqrtu _ _ _ => true
  | .fadd _ _ _ _ => true
  | .fsub _ _ _ _ => true
  | .fmul _ _ _ _ => true
  | .fdiv _ _ _ _ => true
  | .fsqrt _ _ _ => true
  | .fmin _ _ _ _ => true
  | .fmax _ _ _ _ => true
  | .feq _ _ _ _ => true
  | .flt _ _ _ _ => true
  | .fle _ _ _ _ => true
  | .fcvtws _ _ _ => true
  | .fcvtwus _ _ _ => true
  | .fcvtsw _ _ _ => true
  | .fcvtswu _ _ _ => true
  | .fneg _ _ _ => true
  | .fabs _ _ _ => true
  | .fmadd _ _ _ _ _ => true
  | .fmsub _ _ _ _ _ => true
  | .fnmadd _ _ _ _ _ => true
  | .csr _ _ _ _ _ => true
  | .fence _ => true
  | .reti _ => true
  | .wfe _ => true
  | .icinv _ _ _ => true
  | .bpflush _ => true
  | .ecall _ => true
  | .breakpoint _ => true
  | .beq _ _ _ _ _ => true
  | .bne _ _ _ _ _ => true
  | .blt _ _ _ _ _ => true
  | .bge _ _ _ _ _ => true
  | .bltu _ _ _ _ _ => true
  | .bgeu _ _ _ _ _ => true
  | .jmp _ _ => true
  | .call _ _ => true
  | .jumpr _ _ _ => true
  | .callr _ _ _ => true
  | .ret _ => true
  | .jc _ _ _ => true
  | .callc _ _ _ => true
  | .retc _ => true
  | .brpt _ _ => true
  | .registerWrite _ _ _ => true
  | .linkDown _ => true
  | .stopsHearingGrandmaster _ => true
  | .preemptionVerified _ => true
  | .storeFull => true
  | .scrambleDrawComplete _ => true
  | .jtagAccess _ => true
  | .railInRange _ => true

/-- Who brings the command. -/
def Instr.sender (i : Instr) : Sender :=
  match i with
  | .identify _ => .host
  | .windowRead _ _ _ => .host
  | .windowWrite _ _ _ => .host
  | .sessionOpen _ _ _ => .host
  | .sessionClose _ => .host
  | .stageWrite _ _ _ => .host
  | .stageRead _ _ _ _ => .host
  | .commit _ _ _ _ _ _ => .host
  | .abort _ => .host
  | .queryEpoch _ => .host
  | .arm _ _ => .host
  | .disarm _ _ => .host
  | .setReference _ _ _ _ => .host
  | .tripClear _ _ => .host
  | .captureStart _ _ _ => .host
  | .captureTrigger _ => .host
  | .captureRead _ _ _ => .host
  | .captureFreeze _ _ _ => .host
  | .ledgerRead _ _ _ => .host
  | .ledgerAck _ _ _ _ _ => .host
  | .ledgerStatus _ => .host
  | .timeSet _ _ => .host
  | .timeQuery _ => .host
  | .imageWrite _ _ _ _ _ => .host
  | .imageActivate _ _ => .host
  | .imageStatus _ => .host
  | .modeRequest _ _ => .host
  | .vote _ _ _ => .host
  | .mbxPut _ _ _ => .host
  | .mbxGet _ _ _ => .host
  | .enumerate _ _ => .host
  | .ringStatus _ => .host
  | .faultInject _ _ _ _ _ _ _ => .host
  | .lcAdvance _ _ => .host
  | .returnRequest _ _ _ _ => .host
  | .replaceHandover _ _ _ _ _ _ => .host
  | .frameReceive _ _ _ => .event
  | .finalReply => .event
  | .heartbeatReceive _ _ _ => .event
  | .heartbeatSend => .event
  | .heartbeatMemberSilent _ => .event
  | .angleShareSend => .event
  | .angleShareReceive _ _ => .event
  | .ringTripRepeat => .event
  | .ringTripReceive _ _ => .event
  | .commitReadySend => .event
  | .commitAbortSend => .event
  | .commitReadyReceive _ _ _ => .event
  | .commitAbortReceive _ _ _ => .event
  | .twoPhaseDecision => .event
  | .ptpSyncReceive _ _ _ => .event
  | .ptpSyncSend => .event
  | .upstreamSwitch => .event
  | .linkTrained _ => .event
  | .injectionReorderTimeout _ => .event
  | .sessionTimeout _ => .event
  | .commitSwitch => .event
  | .commitTimeout => .event
  | .commitPersistDone => .event
  | .trkMeasurement _ => .event
  | .encoderEdge _ _ _ _ => .event
  | .encoderBoundaryMeasurement _ => .event
  | .encoderIndex _ _ => .event
  | .ssiStart _ => .event
  | .ssiFrameComplete _ _ _ => .event
  | .observerLoad _ _ _ => .bus
  | .trkLossCondition _ _ => .event
  | .trkCoastExpiry _ => .event
  | .trkLostClear _ _ => .bus
  | .trkEnable _ _ _ => .bus
  | .trkSourceChange _ _ _ _ _ => .bus
  | .trkMultChange _ _ _ => .bus
  | .trkAngRead _ _ => .bus
  | .almanacCommit _ => .event
  | .almanacFiringIssue _ => .event
  | .almArm _ _ _ => .bus
  | .almanacClockStop => .event
  | .evfSwev _ _ => .bus
  | .evfAoSwev _ _ => .bus
  | .evfClockStop => .event
  | .cvSampleTask _ => .event
  | .cvFreeRunSample _ => .event
  | .cvStepTask _ => .event
  | .cvRewindTask _ => .event
  | .cvSelWrite _ _ _ => .bus
  | .resultDelivered _ _ => .event
  | .cvDataRead _ _ => .bus
  | .cvDisable _ _ => .bus
  | .comparatorInputChange _ _ => .event
  | .comparatorFilterExpiry _ => .event
  | .comparatorBlankEnd _ => .event
  | .sliceRunStart _ => .event
  | .slicePeriodTimer _ => .event
  | .twinClear _ _ => .bus
  | .slcRefWrite _ _ _ _ => .bus
  | .slcIzero _ _ _ => .bus
  | .slcInj _ _ => .bus
  | .slcZeroIntegratorsTask _ => .event
  | .slcEnable _ _ => .bus
  | .slcDisable _ _ => .bus
  | .slcProgramStoreWrite _ _ _ _ _ _ => .bus
  | .slcEnergyRead _ _ => .bus
  | .gouArmreq _ _ => .bus
  | .gouDisarm _ _ => .bus
  | .gouTripclr _ _ => .bus
  | .pairCrossingCommit _ => .event
  | .edgePlacement _ => .event
  | .directPulseStart _ => .event
  | .tripinPinChange _ _ => .event
  | .gouClockStop => .event
  | .mbxPush _ _ _ _ => .bus
  | .mbxPop _ _ _ => .bus
  | .doorbellRing _ _ => .bus
  | .mbxClockStop => .event
  | .grnStart _ => .bus
  | .grnTrig _ => .bus
  | .grnFreeze _ => .bus
  | .grnFrzat _ => .bus
  | .captureTask => .event
  | .captureMarkTask => .event
  | .postTriggerComplete => .event
  | .freezeTimeReached => .event
  | .granaryBlockWrite => .event
  | .granaryDisableFreeze => .event
  | .calendarTick => .event
  | .calendarSecondCarry => .event
  | .calendarTrim => .event
  | .periodicWake => .event
  | .rtcApply _ _ => .bus
  | .rtcReadFreeze _ _ => .bus
  | .rtcRelease _ => .bus
  | .rtcFreezeTimeout => .event
  | .hourEntry => .event
  | .ledgerSlotWrite => .event
  | .ledgerSeal => .event
  | .lgrNote _ => .bus
  | .lgrSealRequest _ => .bus
  | .ledgerRecovery => .event
  | .ledgerCondense => .event
  | .tamperAssert _ => .event
  | .parkedMotionSample _ _ => .event
  | .provisioningItem => .event
  | .debugUnlock => .event
  | .debugTransaction => .event
  | .apmModeReq _ _ => .bus
  | .apmVoteSet _ _ => .bus
  | .apmVoteClr _ _ => .bus
  | .domainDescentComplete _ => .event
  | .domainReturnComplete _ => .event
  | .wakeSourceFire _ => .event
  | .linkWakeDetect _ => .event
  | .linkWakeRepeat => .event
  | .vsysFail => .event
  | .vsysReturn => .event
  | .railOutOfRange _ => .event
  | .cpmClkenWrite _ _ => .bus
  | .blockClockStopped _ => .event
  | .clockSwitchRequest _ _ => .bus
  | .clockSlewLock => .event
  | .holdoverEntry => .event
  | .holdoverExpiry => .event
  | .hrcReady => .event
  | .xo32Ready => .event
  | .xo32Lost => .event
  | .brcReady => .event
  | .aoRegisterAccessStall _ _ => .bus
  | .vocSample _ => .event
  | .purseRecompute _ _ => .event
  | .grantRequest _ _ => .event
  | .grantReturn _ => .event
  | .brownOutWarning => .event
  | .sealThreshold => .event
  | .finalSequenceComplete => .event
  | .cellarExit => .event
  | .aoPowerUp => .event
  | .aoPowerLoss => .event
  | .alwaysOnStart => .event
  | .uartCharReceived _ _ => .event
  | .uartTxStart _ => .event
  | .uartDataWrite _ _ _ => .bus
  | .uartDataRead _ _ => .bus
  | .rxflush _ _ => .bus
  | .txflush _ _ => .bus
  | .uartDepthWrite _ _ _ => .bus
  | .uartIdle _ => .event
  | .uartDisable _ _ _ _ => .bus
  | .touchScan _ => .event
  | .touchRecal _ _ _ => .bus
  | .touchReportRead _ => .bus
  | .touchEnterNoiseTask => .event
  | .touchLeaveNoiseTask => .event
  | .touchDisable _ => .bus
  | .lcdUpd _ _ => .bus
  | .framePairBoundary => .event
  | .lcdTempSample _ => .event
  | .lcdTrimLoad _ _ => .bus
  | .lcdTrimLoadDone => .event
  | .lcdPumpSettled => .event
  | .lcdDisable _ => .bus
  | .poreset => .event
  | .apmRstreqAo _ => .bus
  | .apmRstreqFast _ => .bus
  | .apmRstreqLink _ => .bus
  | .trst => .event
  | .watchdogExpiry => .event
  | .watchdogKick _ => .bus
  | .watchdogEnable _ _ => .bus
  | .bootRomDecision => .event
  | .imageVerifyDone _ => .event
  | .aocBootPath => .event
  | .configRestore => .event
  | .cpmBootWrite _ _ => .bus
  | .cpmPairHold _ _ _ => .bus
  | .cpmPairInj _ _ => .bus
  | .lockstepMismatch _ => .event
  | .interruptEntry _ => .core
  | .timerMatch _ => .core
  | .longOperationComplete _ => .core
  | .hdtLoad _ _ => .core
  | .sstkDiscard _ _ => .core
  | .svcWrite _ _ => .core
  | .predCtxWrite _ _ => .core
  | .sealmaskWrite _ _ _ => .core
  | .pairedWord _ _ _ _ => .core
  | .add _ _ _ _ => .core
  | .sub _ _ _ _ => .core
  | .and _ _ _ _ => .core
  | .or _ _ _ _ => .core
  | .xor _ _ _ _ => .core
  | .sll _ _ _ _ => .core
  | .srl _ _ _ _ => .core
  | .sra _ _ _ _ => .core
  | .slt _ _ _ _ => .core
  | .sltu _ _ _ _ => .core
  | .min _ _ _ _ => .core
  | .max _ _ _ _ => .core
  | .minu _ _ _ _ => .core
  | .maxu _ _ _ _ => .core
  | .slli _ _ _ _ => .core
  | .srli _ _ _ _ => .core
  | .srai _ _ _ _ => .core
  | .adds _ _ _ _ => .core
  | .subs _ _ _ _ => .core
  | .clz _ _ _ => .core
  | .sextb _ _ _ => .core
  | .sexth _ _ _ => .core
  | .zexth _ _ _ => .core
  | .addi _ _ _ _ => .core
  | .andi _ _ _ _ => .core
  | .ori _ _ _ _ => .core
  | .xori _ _ _ _ => .core
  | .slti _ _ _ _ => .core
  | .sltiu _ _ _ _ => .core
  | .lui _ _ _ => .core
  | .lb _ _ _ _ _ => .core
  | .lbu _ _ _ _ _ => .core
  | .lh _ _ _ _ _ => .core
  | .lhu _ _ _ _ _ => .core
  | .lw _ _ _ _ _ => .core
  | .sb _ _ _ _ _ => .core
  | .sh _ _ _ _ _ => .core
  | .sw _ _ _ _ _ => .core
  | .cld _ _ _ _ _ => .core
  | .cst _ _ _ _ _ => .core
  | .swap _ _ _ _ _ => .core
  | .amoAdd _ _ _ _ _ => .core
  | .cas _ _ _ _ _ _ => .core
  | .ccopy _ _ _ => .core
  | .craise _ _ _ _ => .core
  | .ctrim _ _ _ _ => .core
  | .cmaskp _ _ _ _ => .core
  | .cwrap _ _ _ _ => .core
  | .cunwrap _ _ _ => .core
  | .cuntag _ _ _ => .core
  | .crdb _ _ _ => .core
  | .crdbh _ _ _ => .core
  | .crdl _ _ _ => .core
  | .crdlh _ _ _ => .core
  | .crdp _ _ _ => .core
  | .crds _ _ _ => .core
  | .crdt _ _ _ => .core
  | .mul _ _ _ _ => .core
  | .mulh _ _ _ _ => .core
  | .mulhu _ _ _ _ => .core
  | .mulhsu _ _ _ _ => .core
  | .div _ _ _ _ => .core
  | .divu _ _ _ _ => .core
  | .rem _ _ _ _ => .core
  | .remu _ _ _ _ => .core
  | .sqrtu _ _ _ => .core
  | .fadd _ _ _ _ => .core
  | .fsub _ _ _ _ => .core
  | .fmul _ _ _ _ => .core
  | .fdiv _ _ _ _ => .core
  | .fsqrt _ _ _ => .core
  | .fmin _ _ _ _ => .core
  | .fmax _ _ _ _ => .core
  | .feq _ _ _ _ => .core
  | .flt _ _ _ _ => .core
  | .fle _ _ _ _ => .core
  | .fcvtws _ _ _ => .core
  | .fcvtwus _ _ _ => .core
  | .fcvtsw _ _ _ => .core
  | .fcvtswu _ _ _ => .core
  | .fneg _ _ _ => .core
  | .fabs _ _ _ => .core
  | .fmadd _ _ _ _ _ => .core
  | .fmsub _ _ _ _ _ => .core
  | .fnmadd _ _ _ _ _ => .core
  | .csr _ _ _ _ _ => .core
  | .fence _ => .core
  | .reti _ => .core
  | .wfe _ => .core
  | .icinv _ _ _ => .core
  | .bpflush _ => .core
  | .ecall _ => .core
  | .breakpoint _ => .core
  | .beq _ _ _ _ _ => .core
  | .bne _ _ _ _ _ => .core
  | .blt _ _ _ _ _ => .core
  | .bge _ _ _ _ _ => .core
  | .bltu _ _ _ _ _ => .core
  | .bgeu _ _ _ _ _ => .core
  | .jmp _ _ => .core
  | .call _ _ => .core
  | .jumpr _ _ _ => .core
  | .callr _ _ _ => .core
  | .ret _ => .core
  | .jc _ _ _ => .core
  | .callc _ _ _ => .core
  | .retc _ => .core
  | .brpt _ _ => .core
  | .registerWrite _ _ _ => .bus
  | .linkDown _ => .event
  | .stopsHearingGrandmaster _ => .event
  | .preemptionVerified _ => .event
  | .storeFull => .event
  | .scrambleDrawComplete _ => .core
  | .jtagAccess _ => .event
  | .railInRange _ => .event

end Sys2Proof
end

