-- ==== Sys2Proof/Safety.lean ====
section
/-!
DEFINITION. Safety.lean: the conditions and the parts of a state that the statements speak of: when a core runs
an instruction to its end, when a register access is carried out, which requests reach execution, and what every
step keeps.
-/
namespace Sys2Proof.Machine

/-! ### Instructions of a core -/

/-- The state in which an instruction of shape `op` executes: it has been fetched and issued, and a long operation
that its issue waited for has written its result. -/
def State.issued (s : State) (c : CoreId) (op : Op) : State :=
  ((s.modCore (coreIx c) (fun k => { k with waiting := false })).fetch (coreIx c)).2.issue (coreIx c) op

/-- The fetch of the next instruction misses the cache. -/
def State.misses (s : State) (c : CoreId) : Bool :=
  ((s.modCore (coreIx c) (fun k => { k with waiting := false })).fetch (coreIx c)).1

/-- Core `c` executes its next instruction, of shape `op`, to its end or to its own fault: it runs, the word lies
where `c0` lets it fetch, no illegal use of a delay slot, and no injected mismatch waits. -/
def State.ready (s : State) (c : CoreId) (op : Op) : Bool :=
  s.coreRuns (coreIx c) && (s.fetchTrouble (coreIx c)).isNone && (op.slotOk || (s.core[coreIx c]).slot.isNone) &&
    !(s.core[coreIx c]).flip

/-- The end of an instruction of shape `op` whose effect on the issued state is `t`: it retires. -/
def State.ended (s : State) (c : CoreId) (op : Op) (t : State) : Result :=
  .next (t.retire (coreIx c) op.count (s.misses c))

/-! ### Register accesses -/

/-- The access of agent `ag` to the register word at `a` is carried out: the address is aligned and defines a
register, and the region filter, the domain and the clock let it pass (R25 to R31). -/
def State.busOk (s : State) (ag : Agent) (a : Nat) (wr : Bool) : Bool :=
  isRegAddr a && s.defined a && a % 4 == 0 && s.allows ag a wr

/-- The end of a register write of its own whose effect is `f`: its answer is 0. An always-on register stalls the
access until BRC runs (R32). -/
def State.wrote (s : State) (a : Nat) (f : State → State) : Result :=
  .next { (s.onBus a (fun s => (0, f s))).2 with answer := some 0 }

/-- The end of a register read of its own, whose word and effect are `f`. -/
def State.answered (s : State) (a : Nat) (f : State → Word × State) : Result :=
  .next { (s.onBus a f).2 with answer := some (s.onBus a f).1 }

end Sys2Proof.Machine
end

