-- ==== Sys2Proof/Certificates/Slice0/Obligations.lean ====
section
/-!
DEFINITION. Certificates/Slice0/Obligations.lean: the statements about the model, from the numbered rules of spec/.
-/
open Sys2Proof Sys2Proof.Machine

/-! ### The machine as a whole -/

/-- A step with command `c` at the front of the queue is `exec` of `c` on the state with the rest of the queue.

Rests on choices of the model: log entry 1. -/
def Obligations.StepRunsFront : Prop :=
  ∀ (s : State) (c : Instr) (q : List Instr),
    Machine.step { s with pending := c :: q } = exec c { s with pending := q }

/-! ### Cores: integer operations -/

/-- The shape of an instruction with two general sources and a general destination. -/
def Obligations.shape3 (rd rs1 rs2 : Reg) : Op := { reads := [rs1.val, rs2.val], writes := [rd.val] }

/-- The shape of one whose result comes at the end of M. -/
def Obligations.shape3Late (rd rs1 rs2 : Reg) : Op :=
  { reads := [rs1.val, rs2.val], writes := [rd.val], late := [rd.val] }

/-- The shape of an instruction with one general source and a general destination. -/
def Obligations.shape2 (rd rs1 : Reg) : Op := { reads := [rs1.val], writes := [rd.val] }

/-- The end of an instruction that writes `v` to general register `rd`, and nothing else. -/
def Obligations.gives (s : State) (c : CoreId) (op : Op) (rd : Reg) (v : Word) : Result :=
  s.ended c op ((s.issued c op).setGr (coreIx c) rd v)

/-- R409, opcode 0x00 with two register sources: on a ready core each operation completes, writes its result to rd
and retires. -/
def Obligations.RegisterAluResults : Prop :=
  ∀ (s : State) (c : CoreId) (rd rs1 rs2 : Reg), s.ready c (Obligations.shape3 rd rs1 rs2) = true →
    let op := Obligations.shape3 rd rs1 rs2
    let a := (s.issued c op).gr (coreIx c) rs1
    let b := (s.issued c op).gr (coreIx c) rs2
    let gives (v : Word) : Result := Obligations.gives s c op rd v
    exec (.add c rd rs1 rs2) s = gives (a + b) ∧
    exec (.sub c rd rs1 rs2) s = gives (a - b) ∧
    exec (.and c rd rs1 rs2) s = gives (a &&& b) ∧
    exec (.or c rd rs1 rs2) s = gives (a ||| b) ∧
    exec (.xor c rd rs1 rs2) s = gives (a ^^^ b) ∧
    exec (.sll c rd rs1 rs2) s = gives (a <<< (b.toNat % 32)) ∧
    exec (.srl c rd rs1 rs2) s = gives (a >>> (b.toNat % 32)) ∧
    exec (.sra c rd rs1 rs2) s = gives (a.sshiftRight (b.toNat % 32)) ∧
    exec (.slt c rd rs1 rs2) s = gives (if a.toInt < b.toInt then 1 else 0) ∧
    exec (.sltu c rd rs1 rs2) s = gives (if a.toNat < b.toNat then 1 else 0) ∧
    exec (.min c rd rs1 rs2) s = gives (if a.toInt ≤ b.toInt then a else b) ∧
    exec (.max c rd rs1 rs2) s = gives (if b.toInt ≤ a.toInt then a else b) ∧
    exec (.minu c rd rs1 rs2) s = gives (if a.toNat ≤ b.toNat then a else b) ∧
    exec (.maxu c rd rs1 rs2) s = gives (if b.toNat ≤ a.toNat then a else b) ∧
    exec (.adds c rd rs1 rs2) s =
      gives (BitVec.ofInt 32 (max (-2147483648) (min 2147483647 (a.toInt + b.toInt)))) ∧
    exec (.subs c rd rs1 rs2) s =
      gives (BitVec.ofInt 32 (max (-2147483648) (min 2147483647 (a.toInt - b.toInt))))

/-- R408 and R409, one register source and an immediate or none: each operation completes, writes its result to rd
and retires.

R408: `LUI` puts imm20 into the upper bits of rd. -/
def Obligations.ImmediateResults : Prop :=
  (∀ (s : State) (c : CoreId) (rd rs1 : Reg) (sh : Fin 32) (imm : BitVec 15),
    s.ready c (Obligations.shape2 rd rs1) = true →
    let op := Obligations.shape2 rd rs1
    let a := (s.issued c op).gr (coreIx c) rs1
    let gives (v : Word) : Result := Obligations.gives s c op rd v
    exec (.slli c rd rs1 sh) s = gives (a <<< sh.val) ∧
    exec (.srli c rd rs1 sh) s = gives (a >>> sh.val) ∧
    exec (.srai c rd rs1 sh) s = gives (a.sshiftRight sh.val) ∧
    (∃ n : Nat, exec (.clz c rd rs1) s = gives (BitVec.ofNat 32 n) ∧ n ≤ 32 ∧ a.toNat < 2 ^ (32 - n) ∧
      (n < 32 → 2 ^ (31 - n) ≤ a.toNat)) ∧
    exec (.sextb c rd rs1) s = gives (BitVec.signExtend 32 (BitVec.setWidth 8 a)) ∧
    exec (.sexth c rd rs1) s = gives (BitVec.signExtend 32 (BitVec.setWidth 16 a)) ∧
    exec (.zexth c rd rs1) s = gives (BitVec.setWidth 32 (BitVec.setWidth 16 a)) ∧
    exec (.addi c rd rs1 imm) s = gives (a + BitVec.signExtend 32 imm) ∧
    exec (.andi c rd rs1 imm) s = gives (a &&& BitVec.setWidth 32 imm) ∧
    exec (.ori c rd rs1 imm) s = gives (a ||| BitVec.setWidth 32 imm) ∧
    exec (.xori c rd rs1 imm) s = gives (a ^^^ BitVec.setWidth 32 imm) ∧
    exec (.slti c rd rs1 imm) s = gives (if a.toInt < imm.toInt then 1 else 0) ∧
    exec (.sltiu c rd rs1 imm) s = gives (if a.toNat < (BitVec.signExtend 32 imm).toNat then 1 else 0)) ∧
  (∀ (s : State) (c : CoreId) (rd : Reg) (imm : BitVec 20),
    let op : Op := { reads := [], writes := [rd.val] }
    s.ready c op = true → exec (.lui c rd imm) s = Obligations.gives s c op rd (imm.setWidth 32 <<< 12))

/-- R410: the multiplications complete with the low or the high word of the exact product, at the end of M.

Rests on choices of the model: log entry 65. -/
def Obligations.MultiplyResults : Prop :=
  ∀ (s : State) (c : CoreId) (rd rs1 rs2 : Reg), s.ready c (Obligations.shape3Late rd rs1 rs2) = true →
    let op := Obligations.shape3Late rd rs1 rs2
    let a := (s.issued c op).gr (coreIx c) rs1
    let b := (s.issued c op).gr (coreIx c) rs2
    let gives (v : Word) : Result := Obligations.gives s c op rd v
    exec (.mul c rd rs1 rs2) s = gives (BitVec.ofNat 32 (a.toNat * b.toNat)) ∧
    exec (.mulh c rd rs1 rs2) s = gives (BitVec.ofInt 32 ((a.toInt * b.toInt) / 4294967296)) ∧
    exec (.mulhu c rd rs1 rs2) s = gives (BitVec.ofNat 32 ((a.toNat * b.toNat) / 4294967296)) ∧
    exec (.mulhsu c rd rs1 rs2) s = gives (BitVec.ofInt 32 ((a.toInt * (b.toNat : Int)) / 4294967296))

/-- The registers that a read of memory may change: those that count and record errors (R333, R335). -/
def Obligations.errorRegs : List Nat :=
  [CPM_ECC_CE.adr, CPM_ECC_STAT.adr, CPM_ECC_ADDR_LO.adr, CPM_ECC_ADDR_HI.adr, MEMC_ECC_CE.adr, MEMC_ECC_STAT.adr,
    MEMC_ECC_ADDR_LO.adr, MEMC_ECC_ADDR_HI.adr]

/-- What issue does to the registers of the core, and what it leaves alone (R333, R411): the general registers and the
flags change only by the long operation in flight, which has written its result; memory, tags, block registers, the
other cores, the program counter and the capability registers stay as they were, but for the counting of a memory error that the
fetch finds.

What the end of an instruction that writes one general register leaves alone: every other register of the core,
its capability registers and flags, the other cores, every byte of memory with its tag, and every block register;
`g0` reads as zero and discards writes (R397).

R427, R439: without a transfer in its delay slot an instruction retires, and the program counter moves to the
next word; the slot of a taken transfer is followed by its target, that of one that is not taken by the word after
the slot.

Rests on choices of the model: log entry 65. -/
def Obligations.InstructionFrames : Prop :=
  (∀ (s : State) (c : CoreId) (op : Op), s.ready c op = true →
    let k := s.core[coreIx c]
    let u := s.issued c op
    let k' := u.core[coreIx c]
    (k.long = none → k'.regs = k.regs ∧ k'.fflags = k.fflags ∧ k'.long = none) ∧
    (∀ l, k.long = some l → op.waitsFor l = true → k'.long = none ∧ k'.fflags = k.fflags ||| l.flags ∧
      (l.rd ≠ 0 → k'.regs = k.regs.set l.rd l.result) ∧ (l.rd = 0 → k'.regs = k.regs)) ∧
    k'.pc = k.pc ∧ k'.caps = k.caps ∧ (∀ j : Fin 5, coreIx c ≠ j → u.core[j] = s.core[j]) ∧
    u.mem = s.mem ∧ u.tags = s.tags ∧ (s.upset = [] → u.reg = s.reg) ∧
    ∀ a, a ∉ Obligations.errorRegs → u.rd a = s.rd a) ∧
  (∀ (s t : State) (c : CoreId) (op : Op) (rd : Reg) (v : Word),
    Obligations.gives s c op rd v = .next t →
    let u := s.issued c op
    (∀ r : Reg, t.gr (coreIx c) r = if r = 0 then 0 else if r = rd then v else u.gr (coreIx c) r) ∧
    (t.core[coreIx c]).fflags = (u.core[coreIx c]).fflags ∧
    (∀ n : CapIx, n ≠ 0 → t.cap (coreIx c) n = u.cap (coreIx c) n) ∧
    (((u.core[coreIx c]).slot = none) → t.cap (coreIx c) 0 = u.cap (coreIx c) 0) ∧
    (∀ j : Fin 5, coreIx c ≠ j → t.core[j] = u.core[j]) ∧
    (∀ a : Nat, t.byte a = u.byte a) ∧ t.tags = u.tags ∧ t.reg = u.reg) ∧
  (∀ (s t : State) (c : CoreId) (op : Op) (m : Bool), t = s.retire (coreIx c) op.count m →
    let k := s.core[coreIx c]
    let k' := t.core[coreIx c]
    (k.slot = none → k'.pc = k.pc + 4 ∧ k'.retired = k.retired + op.count ∧ k'.slot = none) ∧
    (∀ x, k.slot = some x → k.pc = x.offs → k'.pc = x.offs + 4 ∧ k'.retired = k.retired ∧ k'.slot.isSome = true) ∧
    (∀ x, k.slot = some x → k.pc ≠ x.offs → k'.slot = none ∧ k'.retired = k.retired + op.count + 1 ∧
      k'.pc = if x.taken then x.target else x.offs + 8) ∧
    k'.regs = k.regs ∧ t.mem = s.mem)

/-! ### Cores: capabilities -/

/-- The shape of a copy of a capability register. -/
def Obligations.shapeCopy (cd cs : CapIx) : Op := { reads := [32 + cs.val], writes := [32 + cd.val] }

/-- The shape of a derivation. -/
def Obligations.shapeDerive (cd cs : CapIx) (rs : Reg) : Op :=
  { reads := [32 + cs.val, rs.val], writes := [32 + cd.val] }

/-- The end of an instruction that writes the capability `k` to register `cd`, and nothing else. -/
def Obligations.givesCap (s : State) (c : CoreId) (op : Op) (cd : CapIx) (k : Cap) : Result :=
  s.ended c op ((s.issued c op).setCap (coreIx c) cd k)

/-- `k'` is `k` with these four fields, and the tag of `k`. -/
def Obligations.capIs (k' k : Cap) (base limit perm sl : Nat) : Prop :=
  k'.base = base ∧ k'.limit = limit ∧ k'.perm = perm ∧ k'.sl = sl ∧ k'.tag = k.tag

/-- R422, R423: a derivation that would widen, that a seal or the seal-type mask forbids, or that has no tag to
derive from, writes nothing and takes a capability fault with its cause: 0 TAG, 1 SEALED, 4 WIDEN, 5 MASK. -/
def Obligations.DerivationFaults : Prop :=
  ∀ (s : State) (c : CoreId) (cd cs : CapIx) (rs : Reg), s.ready c (Obligations.shapeDerive cd cs rs) = true →
    cd ≠ 0 →
    let op := Obligations.shapeDerive cd cs rs
    let u := s.issued c op
    let k := u.cap (coreIx c) cs
    let v := (u.gr (coreIx c) rs).toNat
    let faults (cause : Nat) : Result := .next (u.takeFault (coreIx c) (capTrouble cause cs))
    (k.tag = false → exec (.craise c cd cs rs) s = faults 0 ∧ exec (.ctrim c cd cs rs) s = faults 0 ∧
      exec (.cmaskp c cd cs rs) s = faults 0 ∧ exec (.cwrap c cd cs rs) s = faults 0 ∧
      (rs = 0 → exec (.cunwrap c cd cs) s = faults 0)) ∧
    (k.tag = true → k.sl ≠ 0 → exec (.craise c cd cs rs) s = faults 1 ∧ exec (.ctrim c cd cs rs) s = faults 1 ∧
      exec (.cmaskp c cd cs rs) s = faults 1 ∧ exec (.cwrap c cd cs rs) s = faults 1) ∧
    (k.tag = true → k.sl = 0 → k.limit < k.base + v → exec (.craise c cd cs rs) s = faults 4) ∧
    (k.tag = true → k.sl = 0 → (v = 0 ∨ k.limit < k.base + v - 1) → exec (.ctrim c cd cs rs) s = faults 4) ∧
    (k.tag = true → k.sl = 0 → (v % 256 = 0 ∨ (u.core[coreIx c]).sealBit (v % 256) = false) →
      exec (.cwrap c cd cs rs) s = faults 5) ∧
    (k.tag = true → rs = 0 → (u.core[coreIx c]).sealBit k.sl = false → exec (.cunwrap c cd cs) s = faults 5)

/-- R421: `CCOPY` copies any capability with its tag, `CUNTAG` with TAG 0; `c0` is no destination and raises the
illegal-instruction fault (R400).

R421 to R423: where its conditions hold a derivation completes with the one field changed that it names, and
every other field and the tag inherited.

R421: the reads of a capability's fields complete on any capability, sealed or not, tagged or not. -/
def Obligations.CapabilityOperations : Prop :=
  (∀ (s : State) (c : CoreId) (cd cs : CapIx), s.ready c (Obligations.shapeCopy cd cs) = true →
    let op := Obligations.shapeCopy cd cs
    let k := (s.issued c op).cap (coreIx c) cs
    (cd ≠ 0 → exec (.ccopy c cd cs) s = Obligations.givesCap s c op cd k ∧
      exec (.cuntag c cd cs) s = Obligations.givesCap s c op cd { k with tag := false }) ∧
    (cd = 0 → exec (.ccopy c cd cs) s = .next ((s.issued c op).takeFault (coreIx c) illegal) ∧
      exec (.cuntag c cd cs) s = .next ((s.issued c op).takeFault (coreIx c) illegal))) ∧
  (∀ (s : State) (c : CoreId) (cd cs : CapIx) (rs : Reg), s.ready c (Obligations.shapeDerive cd cs rs) = true →
    cd ≠ 0 →
    let op := Obligations.shapeDerive cd cs rs
    let u := s.issued c op
    let k := u.cap (coreIx c) cs
    let v := (u.gr (coreIx c) rs).toNat
    k.tag = true →
    (k.sl = 0 → k.base + v ≤ k.limit → ∃ k', exec (.craise c cd cs rs) s = Obligations.givesCap s c op cd k' ∧
      Obligations.capIs k' k (k.base + v) k.limit k.perm k.sl) ∧
    (k.sl = 0 → v ≠ 0 → k.base + v - 1 ≤ k.limit → ∃ k', exec (.ctrim c cd cs rs) s = Obligations.givesCap s c op cd k' ∧
      Obligations.capIs k' k k.base (k.base + v - 1) k.perm k.sl) ∧
    (k.sl = 0 → ∃ k', exec (.cmaskp c cd cs rs) s = Obligations.givesCap s c op cd k' ∧
      Obligations.capIs k' k k.base k.limit (k.perm &&& v) k.sl) ∧
    (k.sl = 0 → v % 256 ≠ 0 → (u.core[coreIx c]).sealBit (v % 256) = true →
      ∃ k', exec (.cwrap c cd cs rs) s = Obligations.givesCap s c op cd k' ∧
        Obligations.capIs k' k k.base k.limit k.perm (v % 256)) ∧
    (rs = 0 → (u.core[coreIx c]).sealBit k.sl = true →
      ∃ k', exec (.cunwrap c cd cs) s = Obligations.givesCap s c op cd k' ∧
        Obligations.capIs k' k k.base k.limit k.perm 0)) ∧
  (∀ (s : State) (c : CoreId) (rs : Reg) (cs : CapIx),
    let op : Op := { reads := [32 + cs.val], writes := [rs.val] }
    s.ready c op = true →
    let k := (s.issued c op).cap (coreIx c) cs
    let gives (v : Nat) : Result := Obligations.gives s c op rs (BitVec.ofNat 32 v)
    exec (.crdb c rs cs) s = gives k.base ∧
    exec (.crdbh c rs cs) s = gives (k.base / 4294967296) ∧
    exec (.crdl c rs cs) s = gives k.limit ∧
    exec (.crdlh c rs cs) s = gives (k.limit / 4294967296) ∧
    exec (.crdp c rs cs) s = gives k.perm ∧
    exec (.crds c rs cs) s = gives k.sl ∧
    exec (.crdt c rs cs) s = gives (if k.tag then 1 else 0))

/-! ### Cores: memory -/

/-- The shape of a load. -/
def Obligations.shapeLoad (rd : Reg) (cap : CapIx) (rb : Reg) : Op :=
  { reads := [rb.val, 32 + cap.val], writes := [rd.val], late := [rd.val] }

/-- The shape of a store. -/
def Obligations.shapeStore (rd : Reg) (cap : CapIx) (rb : Reg) : Op :=
  { reads := [rd.val, rb.val, 32 + cap.val], writes := [] }

/-- R416, R417: a load from memory whose checks pass completes with the bytes at its address, the lowest address in
the low bits, extended as its name says.

R416, R419: a store to memory whose checks pass completes: the bytes at its address are the low bytes of rd, the
lowest first, every other byte keeps its value, the tag of the granule is cleared and the other tags stay; registers
of the core and of the blocks stay as they were. -/
def Obligations.LoadsAndStores : Prop :=
  (∀ (s : State) (c : CoreId) (rd : Reg) (cap : CapIx) (rb : Reg) (imm : BitVec 12) (a : Nat),
    s.ready c (Obligations.shapeLoad rd cap rb) = true →
    let op := Obligations.shapeLoad rd cap rb
    let u := s.issued c op
    let i := coreIx c
    let offs := (u.gr i rb + imm.signExtend 32).toNat
    let b (j : Nat) : Nat := (u.memByte (a + j)).toNat
    let gives (n : Nat) (v : Word) : Result := s.ended c op (((u.eccReads a n).readTime i a).setGr i rd v)
    isRegAddr a = false →
    (u.access i cap pRD offs 1 false = .ok a →
      exec (.lb c rd cap rb imm) s = gives 1 ((u.memByte a).signExtend 32) ∧
      exec (.lbu c rd cap rb imm) s = gives 1 ((u.memByte a).setWidth 32)) ∧
    (u.access i cap pRD offs 2 false = .ok a →
      exec (.lh c rd cap rb imm) s = gives 2 ((BitVec.ofNat 16 (b 0 + 256 * b 1)).signExtend 32) ∧
      exec (.lhu c rd cap rb imm) s = gives 2 (BitVec.ofNat 32 (b 0 + 256 * b 1))) ∧
    (u.access i cap pRD offs 4 false = .ok a →
      exec (.lw c rd cap rb imm) s =
        gives 4 (BitVec.ofNat 32 (b 0 + 256 * b 1 + 65536 * b 2 + 16777216 * b 3)))) ∧
  (∀ (s : State) (c : CoreId) (rd : Reg) (cap : CapIx) (rb : Reg) (imm : BitVec 12) (a : Nat),
    s.ready c (Obligations.shapeStore rd cap rb) = true →
    let op := Obligations.shapeStore rd cap rb
    let u := s.issued c op
    let i := coreIx c
    let offs := (u.gr i rb + imm.signExtend 32).toNat
    let v := (u.gr i rd).toNat
    let stores (n : Nat) (r : Result) : Prop := ∃ t, r = .next t ∧
      (∀ j, j < n → (t.byte (a + j)).toNat = v / 2 ^ (8 * j) % 256) ∧
      (∀ x, (x < a ∨ a + n ≤ x) → t.byte x = u.byte x) ∧
      (∀ g, g ∈ t.tags ↔ g ∈ u.tags ∧ g ≠ a / 16) ∧
      (∀ r, t.gr i r = u.gr i r) ∧ (∀ j : Fin 5, i ≠ j → t.core[j] = u.core[j]) ∧ t.reg = u.reg
    isRegAddr a = false →
    (u.access i cap pWR offs 1 true = .ok a → stores 1 (exec (.sb c rd cap rb imm) s)) ∧
    (u.access i cap pWR offs 2 true = .ok a → stores 2 (exec (.sh c rd cap rb imm) s)) ∧
    (u.access i cap pWR offs 4 true = .ok a → stores 4 (exec (.sw c rd cap rb imm) s)))

/-- R25, R417: a word load whose checks pass and whose address is a register's reads that register over the bus with
the rights of the core.

R25, R417: a word store whose checks pass and whose address is a register's writes that register over the bus with
the rights of the core.

Rests on choices of the model: log entry 11. -/
def Obligations.RegisterLoadsAndStores : Prop :=
  (∀ (s : State) (c : CoreId) (rd : Reg) (cap : CapIx) (rb : Reg) (imm : BitVec 12) (a : Nat),
    s.ready c (Obligations.shapeLoad rd cap rb) = true →
    let op := Obligations.shapeLoad rd cap rb
    let u := s.issued c op
    let i := coreIx c
    isRegAddr a = true →
    u.access i cap pRD (u.gr i rb + imm.signExtend 32).toNat 4 false = .ok a →
    ∃ w t, (u.eccReads a 4).busRead (coreOf i) a = (some w, t) ∧
      ((u.core[i]).cycle ≤ ((t.readTime i a).core[i]).cycle →
        exec (.lw c rd cap rb imm) s = s.ended c op ((t.readTime i a).setGr i rd w))) ∧
  (∀ (s : State) (c : CoreId) (rd : Reg) (cap : CapIx) (rb : Reg) (imm : BitVec 12) (a : Nat),
    s.ready c (Obligations.shapeStore rd cap rb) = true →
    let op := Obligations.shapeStore rd cap rb
    let u := s.issued c op
    let i := coreIx c
    isRegAddr a = true →
    u.access i cap pWR (u.gr i rb + imm.signExtend 32).toNat 4 true = .ok a →
    let t := (u.busWrite (coreOf i) a (u.gr i rd)).2
    (u.core[i]).cycle ≤ (t.core[i]).cycle →
    exec (.sw c rd cap rb imm) s = s.ended c op t)

/-- R333, R417: the checks of an access, in their order: TAG, SEALED, PERM with BLK for a register, BOUNDS, alignment, the
region filter; an access that passes them all has its address, unless it reads a word with two bits in error, which is a
memory-error fault.

R417: a load or a store whose checks fail writes nothing and takes the fault of its first failure. -/
def Obligations.AccessChecks : Prop :=
  (∀ (s : State) (i : Fin 5) (n : CapIx) (need offs sz : Nat) (wr : Bool), 0 < sz →
    let k := s.cap i n
    let a := k.base + offs
    let r := s.access i n need offs sz wr
    let faults (desc cause : Nat) : Prop :=
      r = .error { desc := desc, cause := cause, capn := n, fetch := false, addr := a }
    let perm := k.holds need = true ∧ (isRegAddr a = true → k.holds pBLK = true)
    let inside := a + sz - 1 ≤ k.limit ∧ a + sz - 1 < 2 ^ 40
    (k.tag = false → faults 3 0) ∧
    (k.tag = true → k.sl ≠ 0 → faults 3 1) ∧
    (k.tag = true → k.sl = 0 → ¬ perm → faults 3 2) ∧
    (k.tag = true → k.sl = 0 → perm → ¬ inside → faults 3 3) ∧
    (k.tag = true → k.sl = 0 → perm → inside → a % sz ≠ 0 → faults 4 0) ∧
    (k.tag = true → k.sl = 0 → perm → inside → a % sz = 0 → ∀ x, s.reach6 i a sz wr = some x → faults 5 x) ∧
    (k.tag = true → k.sl = 0 → perm → inside → a % sz = 0 → s.reach6 i a sz wr = none →
      let bad := need &&& (pRD ||| pRUN) ≠ 0 ∧ s.spoiltAny a sz = true
      (¬ bad → r = .ok a) ∧
      (bad → r = .error { desc := 6, cause := 0, capn := n, fetch := false, addr := a, size := sz }))) ∧
  (∀ (s : State) (c : CoreId) (rd : Reg) (cap : CapIx) (rb : Reg) (imm : BitVec 12) (x : Trouble),
    let i := coreIx c
    let opL := Obligations.shapeLoad rd cap rb
    let opS := Obligations.shapeStore rd cap rb
    let uL := s.issued c opL
    let uS := s.issued c opS
    let loads (sz : Nat) : Prop := s.ready c opL = true ∧
      uL.access i cap pRD (uL.gr i rb + imm.signExtend 32).toNat sz false = .error x
    let stores (sz : Nat) : Prop := s.ready c opS = true ∧
      uS.access i cap pWR (uS.gr i rb + imm.signExtend 32).toNat sz true = .error x
    (loads 1 → exec (.lb c rd cap rb imm) s = .next (uL.takeFault i x) ∧
      exec (.lbu c rd cap rb imm) s = .next (uL.takeFault i x)) ∧
    (loads 2 → exec (.lh c rd cap rb imm) s = .next (uL.takeFault i x) ∧
      exec (.lhu c rd cap rb imm) s = .next (uL.takeFault i x)) ∧
    (loads 4 → exec (.lw c rd cap rb imm) s = .next (uL.takeFault i x)) ∧
    (stores 1 → exec (.sb c rd cap rb imm) s = .next (uS.takeFault i x)) ∧
    (stores 2 → exec (.sh c rd cap rb imm) s = .next (uS.takeFault i x)) ∧
    (stores 4 → exec (.sw c rd cap rb imm) s = .next (uS.takeFault i x)))

/-- R433: an atomic operation on memory whose checks pass reads the word into rd and stores its result in the same
step; a compare-and-swap that finds another value stores nothing. The word's other neighbours keep their values.

R420: `CST` stores the 128 bits of the capability and its tag into its granule; `CLD` loads them, the tag through
TAKE only.

Rests on choices of the model: log entries 3, 72. -/
def Obligations.AtomicsAndCapabilities : Prop :=
  (∀ (s : State) (c : CoreId) (rd : Reg) (cap : CapIx) (rb rs rc : Reg) (a : Nat),
    let i := coreIx c
    let op1 : Op := { reads := [rb.val, 32 + cap.val, rs.val], writes := [rd.val], late := [rd.val] }
    let op2 : Op := { reads := [rb.val, 32 + cap.val, rs.val, rc.val], writes := [rd.val], late := [rd.val] }
    let swaps (op : Op) (r : Result) (new : State → Word → Word) : Prop :=
      let u := s.issued c op
      let old : Word := BitVec.ofNat 32 (u.memNum a 4)
      s.ready c op = true → amoRegion a = true → isRegAddr a = false →
      u.access i cap (pRD ||| pWR ||| pATOM) (u.gr i rb).toNat 4 true = .ok a →
      ∃ t, r = .next t ∧ (∀ q, t.gr i q = if q = 0 then 0 else if q = rd then old else u.gr i q) ∧
        t.le a 4 = (new u old).toNat ∧ (∀ x, (x < a ∨ a + 4 ≤ x) → t.byte x = u.byte x) ∧
        t.reg = (u.eccReads a 4).reg
    swaps op1 (exec (.swap c rd cap rb rs) s) (fun u _ => u.gr i rs) ∧
    swaps op1 (exec (.amoAdd c rd cap rb rs) s) (fun u old => old + u.gr i rs) ∧
    swaps op2 (exec (.cas c rd cap rb rs rc) s) (fun u old => if old = u.gr i rc then u.gr i rs else old)) ∧
  (∀ (s : State) (c : CoreId) (cr cap : CapIx) (rb : Reg) (imm : BitVec 12) (a : Nat),
    let i := coreIx c
    let opL : Op := { reads := [rb.val, 32 + cap.val], writes := [32 + cr.val], late := [32 + cr.val] }
    let opS : Op := { reads := [rb.val, 32 + cap.val, 32 + cr.val], writes := [] }
    let uL := s.issued c opL
    let uS := s.issued c opS
    let offs (u : State) : Nat := (u.gr i rb + imm.signExtend 32).toNat
    (s.ready c opL = true → cr ≠ 0 → isRegAddr a = false → offs uL % 16 = 0 →
      uL.access i cap pRD (offs uL) 16 false = .ok a →
      ∃ k, exec (.cld c cr cap rb imm) s = s.ended c opL (((uL.eccReads a 16).readTime i a).setCap i cr k) ∧
        k.bits.toNat = uL.memNum a 16 ∧ k.tag = ((uL.cap i cap).holds pTAKE && hasTags a && uL.tags.contains (a / 16))) ∧
    (s.ready c opS = true → offs uS % 16 = 0 → hasTags a = true →
      ((uS.cap i cr).tag = true → (uS.cap i cr).holds pSHARE = true ∨ privateTo i a = true) →
      uS.access i cap (pWR ||| pPUT) (offs uS) 16 true = .ok a →
      ∃ t, exec (.cst c cr cap rb imm) s = .next t ∧ t.le a 16 = (uS.cap i cr).bits.toNat ∧
        (a / 16 ∈ t.tags ↔ (uS.cap i cr).tag = true) ∧ (∀ x, (x < a ∨ a + 16 ≤ x) → t.byte x = uS.byte x) ∧
        t.reg = uS.reg))

/-! ### Cores: long operations and floating point -/

/-- The shape of a long operation with these source registers. -/
def Obligations.shapeLong (rd : Reg) (srcs : List Reg) : Op :=
  { reads := srcs.map (fun r => r.val), writes := [rd.val], long := true }

/-- R411, R443: a long operation enters its unit in X: it completes as an instruction at once, with no register
changed, and its result `v` with the flags `fl` is due `lat` cycles after X. -/
def Obligations.startsLong (s : State) (c : CoreId) (rd : Reg) (srcs : List Reg) (r : Result) (v : Word) (fl lat : Nat) :
    Prop :=
  let op := Obligations.shapeLong rd srcs
  let u := s.issued c op
  let i := coreIx c
  ∃ (t : State) (l : LongOp), r = .next t ∧ (t.core[i]).long = some l ∧ l.rd = rd ∧ l.srcs = srcs ∧ l.result = v ∧
    l.flags = fl ∧ l.due = (u.core[i]).cycle + lat - 1 ∧ l.offs = (u.core[i]).pc ∧
    (t.core[i]).regs = (u.core[i]).regs ∧ (t.core[i]).fflags = (u.core[i]).fflags ∧ t.mem = u.mem ∧ t.reg = u.reg

/-- R413, R414, R443: on a core with a floating-point unit every operation enters the unit with the result and the
flags of its operation in binary32, and completes L cycles after X.

Rests on choices of the model: log entry 68. -/
def Obligations.FloatResults : Prop :=
  ∀ (s : State) (c : CoreId) (rd rs1 rs2 rs3 : Reg), c ≠ .aoc →
    let go (srcs : List Reg) (r : Result) (f : Word → Word → Word → FpR) (lat : Nat) : Prop :=
      s.ready c (Obligations.shapeLong rd srcs) = true →
      let u := s.issued c (Obligations.shapeLong rd srcs)
      let v := f (u.gr (coreIx c) rs1) (u.gr (coreIx c) rs2) (u.gr (coreIx c) rs3)
      Obligations.startsLong s c rd srcs r v.w v.fl lat
    go [rs1, rs2] (exec (.fadd c rd rs1 rs2) s) (fun a b _ => fpAdd a b) 3 ∧
    go [rs1, rs2] (exec (.fsub c rd rs1 rs2) s) (fun a b _ => fpSub a b) 3 ∧
    go [rs1, rs2] (exec (.fmul c rd rs1 rs2) s) (fun a b _ => fpMul a b) 3 ∧
    go [rs1, rs2] (exec (.fdiv c rd rs1 rs2) s) (fun a b _ => fpDiv a b) 12 ∧
    go [rs1, 0] (exec (.fsqrt c rd rs1) s) (fun a _ _ => fpSqrt a) 12 ∧
    go [rs1, rs2] (exec (.fmin c rd rs1 rs2) s) (fun a b _ => fpMinMax false a b) 1 ∧
    go [rs1, rs2] (exec (.fmax c rd rs1 rs2) s) (fun a b _ => fpMinMax true a b) 1 ∧
    go [rs1, rs2] (exec (.feq c rd rs1 rs2) s) (fun a b _ => fpCompare 0 a b) 1 ∧
    go [rs1, rs2] (exec (.flt c rd rs1 rs2) s) (fun a b _ => fpCompare 1 a b) 1 ∧
    go [rs1, rs2] (exec (.fle c rd rs1 rs2) s) (fun a b _ => fpCompare 2 a b) 1 ∧
    go [rs1, 0] (exec (.fcvtws c rd rs1) s) (fun a _ _ => fpToS a) 2 ∧
    go [rs1, 0] (exec (.fcvtwus c rd rs1) s) (fun a _ _ => fpToU a) 2 ∧
    go [rs1, 0] (exec (.fcvtsw c rd rs1) s) (fun a _ _ => fpOfS a) 2 ∧
    go [rs1, 0] (exec (.fcvtswu c rd rs1) s) (fun a _ _ => fpOfU a) 2 ∧
    go [rs1, 0] (exec (.fneg c rd rs1) s) (fun a _ _ => fpNeg a) 1 ∧
    go [rs1, 0] (exec (.fabs c rd rs1) s) (fun a _ _ => fpAbs a) 1 ∧
    go [rs1, rs2, rs3] (exec (.fmadd c rd rs1 rs2 rs3) s) fpMadd 4 ∧
    go [rs1, rs2, rs3] (exec (.fmsub c rd rs1 rs2 rs3) s) fpMsub 4 ∧
    go [rs1, rs2, rs3] (exec (.fnmadd c rd rs1 rs2 rs3) s) fpNmadd 4

/-- R415: the AOC has no floating-point unit: every word of opcode 0x15 is an illegal instruction there, and `CORE.FP`
reads 0. -/
def Obligations.NoFloatOnAoc : Prop :=
  (∀ (s : State) (rd rs1 rs2 rs3 : Reg),
    let no (srcs : List Reg) (r : Result) : Prop := s.ready .aoc (Obligations.shapeLong rd srcs) = true →
      r = .next ((s.issued .aoc (Obligations.shapeLong rd srcs)).takeFault 4 illegal)
    no [rs1, rs2] (exec (.fadd .aoc rd rs1 rs2) s) ∧ no [rs1, rs2] (exec (.fsub .aoc rd rs1 rs2) s) ∧
    no [rs1, rs2] (exec (.fmul .aoc rd rs1 rs2) s) ∧ no [rs1, rs2] (exec (.fdiv .aoc rd rs1 rs2) s) ∧
    no [rs1, 0] (exec (.fsqrt .aoc rd rs1) s) ∧ no [rs1, rs2] (exec (.fmin .aoc rd rs1 rs2) s) ∧
    no [rs1, rs2] (exec (.fmax .aoc rd rs1 rs2) s) ∧ no [rs1, rs2] (exec (.feq .aoc rd rs1 rs2) s) ∧
    no [rs1, rs2] (exec (.flt .aoc rd rs1 rs2) s) ∧ no [rs1, rs2] (exec (.fle .aoc rd rs1 rs2) s) ∧
    no [rs1, 0] (exec (.fcvtws .aoc rd rs1) s) ∧ no [rs1, 0] (exec (.fcvtwus .aoc rd rs1) s) ∧
    no [rs1, 0] (exec (.fcvtsw .aoc rd rs1) s) ∧ no [rs1, 0] (exec (.fcvtswu .aoc rd rs1) s) ∧
    no [rs1, 0] (exec (.fneg .aoc rd rs1) s) ∧ no [rs1, 0] (exec (.fabs .aoc rd rs1) s) ∧
    no [rs1, rs2, rs3] (exec (.fmadd .aoc rd rs1 rs2 rs3) s) ∧ no [rs1, rs2, rs3] (exec (.fmsub .aoc rd rs1 rs2 rs3) s) ∧
    no [rs1, rs2, rs3] (exec (.fnmadd .aoc rd rs1 rs2 rs3) s)) ∧
  (∀ s : State, ((s.csrRead 4 0x001).1).getLsbD 4 = false)

/-- R410, R411, R443: the divisions and the square root enter the unit with the quotient rounded towards zero, the
remainder with the sign of the dividend, and the integer root; division by zero gives 0xFFFFFFFF and rs1.

R411, R443: when the long operation in flight completes, its result is written to its register (none for g0) and
its flags are added to `FFLAGS`; nothing else of the registers changes.

Rests on choices of the model: log entry 66. -/
def Obligations.LongOperations : Prop :=
  (∀ (s : State) (c : CoreId) (rd rs1 rs2 : Reg), s.ready c (Obligations.shapeLong rd [rs1, rs2]) = true →
    let u := s.issued c (Obligations.shapeLong rd [rs1, rs2])
    let a := u.gr (coreIx c) rs1
    let b := u.gr (coreIx c) rs2
    let starts (r : Result) (v : Word) (lat : Nat) : Prop := Obligations.startsLong s c rd [rs1, rs2] r v 0 lat
    starts (exec (.div c rd rs1 rs2) s) (if b = 0 then 0xFFFFFFFF else BitVec.ofInt 32 (a.toInt.tdiv b.toInt)) 18 ∧
    starts (exec (.divu c rd rs1 rs2) s) (if b = 0 then 0xFFFFFFFF else BitVec.ofNat 32 (a.toNat / b.toNat)) 18 ∧
    starts (exec (.rem c rd rs1 rs2) s) (if b = 0 then a else BitVec.ofInt 32 (a.toInt.tmod b.toInt)) 18 ∧
    starts (exec (.remu c rd rs1 rs2) s) (if b = 0 then a else BitVec.ofNat 32 (a.toNat % b.toNat)) 18 ∧
    (rs2 = 0 → ∃ q : Nat, starts (exec (.sqrtu c rd rs1) s) (BitVec.ofNat 32 q) 17 ∧
      q * q ≤ a.toNat ∧ a.toNat < (q + 1) * (q + 1))) ∧
  (∀ (s : State) (c : CoreId) (l : LongOp), s.coreUp (coreIx c) = true → (s.core[coreIx c]).flip = false →
    (s.core[coreIx c]).long = some l →
    ∃ t, exec (.longOperationComplete c) s = .next t ∧
      let k := s.core[coreIx c]
      let k' := t.core[coreIx c]
      k'.long = none ∧ (∀ r, t.gr (coreIx c) r = if r = 0 then 0 else if r = l.rd then l.result else s.gr (coreIx c) r) ∧
      k'.fflags = k.fflags ||| l.flags ∧ k'.pc = k.pc ∧ k'.cycle = max k.cycle l.due ∧ t.mem = s.mem ∧ t.reg = s.reg)

/-! ### Cores: transfers of control -/

/-- The shape of an instruction that may not stand in a delay slot. -/
def Obligations.shapeFlow (reads writes : List Nat) : Op := { reads := reads, writes := writes, slotOk := false }

/-- R424, R425, R429: a branch goes to its offset + 4 × sext(DISP14) after its slot when its comparison holds; when it
does not, the slot executes with AN 0 and is annulled with AN 1. The general registers and memory keep their values.

Rests on choices of the model: log entry 63. -/
def Obligations.BranchResults : Prop :=
  ∀ (s : State) (c : CoreId) (rs1 rs2 : Reg) (an : Bool) (disp : BitVec 14),
    let op := Obligations.shapeFlow [rs1.val, rs2.val] []
    s.ready c op = true →
    let i := coreIx c
    let u := s.issued c op
    let a := u.gr i rs1
    let b := u.gr i rs2
    let k := u.core[i]
    let target : Word := k.pc + disp.signExtend 32 * 4
    let keeps (t : State) : Prop := (t.core[i]).regs = k.regs ∧ t.mem = u.mem ∧ t.reg = u.reg
    let waits (t : State) (x : Transfer) : Prop := (t.core[i]).slot = some x ∧ x.offs = k.pc ∧
      (t.core[i]).pc = k.pc + 4 ∧ (t.core[i]).retired = k.retired ∧ keeps t
    let acts (r : Result) (cond : Prop) : Prop :=
      (cond → targetTrouble (u.cap i 0) 0 target = none → ∃ t x, r = .next t ∧ waits t x ∧ x.taken = true ∧ x.target = target) ∧
      (¬ cond → an = false → ∃ t x, r = .next t ∧ waits t x ∧ x.taken = false) ∧
      (¬ cond → an = true → ∃ t, r = .next t ∧ (t.core[i]).slot = none ∧ (t.core[i]).pc = k.pc + 8 ∧
        (t.core[i]).retired = k.retired + 1 ∧ keeps t)
    acts (exec (.beq c rs1 rs2 an disp) s) (a = b) ∧
    acts (exec (.bne c rs1 rs2 an disp) s) (a ≠ b) ∧
    acts (exec (.blt c rs1 rs2 an disp) s) (a.toInt < b.toInt) ∧
    acts (exec (.bge c rs1 rs2 an disp) s) (b.toInt ≤ a.toInt) ∧
    acts (exec (.bltu c rs1 rs2 an disp) s) (a.toNat < b.toNat) ∧
    acts (exec (.bgeu c rs1 rs2 an disp) s) (b.toNat ≤ a.toNat)

/-- What a taken transfer of control leaves: it waits for its slot with its target and the code capability that it
installs after the slot; `g28`, `c6` and the shadow stack are as given; the other registers, and memory, keep their
values. -/
def Obligations.transfers (s : State) (c : CoreId) (op : Op) (r : Result) (target : Word) (code : Option Cap)
    (g28 : Word) (c6 : Cap) (stack : List ShadowEntry) : Prop :=
  let i := coreIx c
  let u := s.issued c op
  ∃ t x, r = .next t ∧ (t.core[i]).slot = some x ∧ x.taken = true ∧ x.offs = (u.core[i]).pc ∧ x.target = target ∧
    x.code = code ∧ (t.core[i]).pc = (u.core[i]).pc + 4 ∧
    (∀ q : Reg, (t.core[i]).regs[q] = if q = 28 then g28 else (u.core[i]).regs[q]) ∧
    (∀ n : CapIx, t.cap i n = if n = 6 then c6 else u.cap i n) ∧ (t.core[i]).stack = stack ∧ t.mem = u.mem ∧ t.reg = u.reg

/-- R424, R426, R427, R486: jumps, calls and returns transfer to their target after the slot. A call writes its
offset + 8 to `g28` and pushes it; a capability call also saves the old `c0` in `c6` and pushes its bounds; a return
pops the entry that matches `g28`, and for `RETC` the bounds of `c6`.

R486: a return pops the top entry when it is of its kind and equals `g28`, for `RETC` with the bounds of `c6`, and
transfers to `g28`; with another top entry or none it takes the control-flow fault with cause 8 or 9.

R429: a transfer that would be taken to a target with a failed check takes that fault before its slot, with
nothing of it retired.

Rests on choices of the model: log entry 63. -/
def Obligations.JumpsAndReturns : Prop :=
  (∀ (s : State) (c : CoreId) (rs1 : Reg) (cs : CapIx) (imm : BitVec 15) (disp : BitVec 25),
    let i := coreIx c
    let g (op : Op) (r : Result) (call : Bool) (target : State → Word) (code : State → Option (Nat × Cap))
        (g28 : State → Word) (c6 : State → Cap) (stack : State → List ShadowEntry) : Prop :=
      let u := s.issued c op
      let x := (code u).getD (0, u.cap i 0)
      s.ready c op = true → targetTrouble x.2 x.1 (target u) = none →
      (call = true → (u.core[i]).stack.length < (u.core[i]).stackMax) →
      Obligations.transfers s c op r (target u) ((code u).map (fun x => x.2)) (g28 u) (c6 u) (stack u)
    let rel (u : State) : Word := (u.core[i]).pc + disp.signExtend 32 * 4
    let ind (u : State) : Word := u.gr i rs1 + imm.signExtend 32
    let reg (u : State) : Word := u.gr i rs1
    let old28 (u : State) : Word := (u.core[i]).regs[28]
    let link (u : State) : Word := (u.core[i]).pc + 8
    let old6 (u : State) : Cap := u.cap i 6
    let same (u : State) : List ShadowEntry := (u.core[i]).stack
    let plain (u : State) : List ShadowEntry := { offs := link u, cap := none } :: same u
    let bounds (u : State) : BitVec 40 × BitVec 40 := (BitVec.ofNat 40 (u.cap i 0).base, BitVec.ofNat 40 (u.cap i 0).limit)
    let full (u : State) : List ShadowEntry := { offs := link u, cap := some (bounds u) } :: same u
    let none' (_ : State) : Option (Nat × Cap) := none
    let some' (u : State) : Option (Nat × Cap) := some (cs.val, u.cap i cs)
    g (Obligations.shapeFlow [] []) (exec (.jmp c disp) s) false rel none' old28 old6 same ∧
    g (Obligations.shapeFlow [] [28]) (exec (.call c disp) s) true rel none' link old6 plain ∧
    g (Obligations.shapeFlow [rs1.val] []) (exec (.jumpr c rs1 imm) s) false ind none' old28 old6 same ∧
    g (Obligations.shapeFlow [rs1.val] [28]) (exec (.callr c rs1 imm) s) true ind none' link old6 plain ∧
    g (Obligations.shapeFlow [rs1.val, 32 + cs.val] [32]) (exec (.jc c cs rs1) s) false reg some' old28 old6 same ∧
    g (Obligations.shapeFlow [rs1.val, 32 + cs.val] [28, 38]) (exec (.callc c cs rs1) s) true reg some' link
      (fun u => u.cap i 0) full) ∧
  (∀ (s : State) (c : CoreId),
    let i := coreIx c
    let g (op : Op) (r : Result) (code : State → Option (Nat × Cap)) (bounds : State → Option (BitVec 40 × BitVec 40)) :
        Prop :=
      let u := s.issued c op
      let k := u.core[i]
      let x := (code u).getD (0, u.cap i 0)
      s.ready c op = true → targetTrouble x.2 x.1 (u.gr i 28) = none →
      (∀ l, k.stack = { offs := u.gr i 28, cap := bounds u } :: l →
        Obligations.transfers s c op r (u.gr i 28) ((code u).map (fun x => x.2)) k.regs[28] (u.cap i 6) l) ∧
      (∀ e l, k.stack = e :: l → e ≠ { offs := u.gr i 28, cap := bounds u } → r = .next (u.takeFault i (flowTrouble 8))) ∧
      (k.stack = [] → r = .next (u.takeFault i (flowTrouble 9)))
    g (Obligations.shapeFlow [28] []) (exec (.ret c) s) (fun _ => none) (fun _ => none) ∧
    g (Obligations.shapeFlow [28, 38] [32]) (exec (.retc c) s) (fun u => some (6, u.cap i 6))
      (fun u => some (BitVec.ofNat 40 (u.cap i 6).base, BitVec.ofNat 40 (u.cap i 6).limit))) ∧
  (∀ (s : State) (c : CoreId) (rs1 : Reg) (imm : BitVec 15) (x : Trouble),
    let op := Obligations.shapeFlow [rs1.val] []
    let u := s.issued c op
    let target : Word := u.gr (coreIx c) rs1 + imm.signExtend 32
    s.ready c op = true → targetTrouble (u.cap (coreIx c) 0) 0 target = some x →
    exec (.jumpr c rs1 imm) s = .next (u.takeFault (coreIx c) x) ∧
    (target.toNat % 4 ≠ 0 → x.desc = 4) ∧
    (target.toNat % 4 = 0 → x.desc = 3 ∧ x.cause =
      if (u.cap (coreIx c) 0).tag = false then 0 else if (u.cap (coreIx c) 0).sl ≠ 0 then 1
      else if (u.cap (coreIx c) 0).holds pRUN = false then 2 else 3))

/-! ### Cores: faults and interrupts -/

/-- R482, R483, R489: with a valid descriptor, and no long operation or transfer under way, a fault enters its
handler: the level's save registers hold the offset, the cause and the interrupted `c0`; the code capability, the
stack capability and the level are the descriptor's; the general registers and memory keep their values.

R491 to R493: a fault without a valid descriptor is a double fault, and what was to be saved passes to `DFPC`,
`DFSTAT` and `DFADDR`. A control pair locks up, with WHY 1; a core of the service class whose descriptor 0 is valid
enters the double-fault state.

Rests on choices of the model: log entry 64. -/
def Obligations.FaultEntry : Prop :=
  (∀ (s : State) (i : Fin 5) (x : Trouble) (d : Desc),
    let k := s.core[i]
    k.long = none → k.slot = none → k.df = false → k.flip = false → s.lockedUp i = false →
    k.descriptor x.desc true = some d →
    let v : SaveSt := { spc := k.pc, sstat := sstatOf k x.desc x.cause x.capn x.fetch, scap := k.caps[0],
                        replay0 := 0, replay1 := 0, faddr := BitVec.ofNat 40 x.addr }
    (s.modCore i (fun k => k.enter d v)).fetchTrouble i = none →
    let t := s.takeFault i x
    let k' := t.core[i]
    k'.save[d.level] = v ∧ (∀ l : Fin 4, l ≠ d.level → k'.save[l] = k.save[l]) ∧
    (∀ n : Fin 7, (k'.bank[d.level])[n] = k.caps[(n : Nat) + 1]) ∧
    k'.caps = d.install k.caps ∧ k'.caps[0] = d.code ∧ k'.pc = d.offs ∧ k'.cur = d.level ∧ k'.mask = k.mask ||| d.mask ∧
    k'.regs = k.regs ∧ k'.cycle = k.cycle + 17 ∧ t.mem = s.mem ∧ t.reg = (s.eccReads x.addr x.size).reg) ∧
  (∀ (s : State) (i : Fin 5) (x : Trouble),
    let k := s.core[i]
    k.long = none → k.slot = none → k.df = false → k.flip = false → s.lockedUp i = false →
    k.descriptor x.desc true = none →
    (i.val < 2 → s.takeFault i x = ((s.eccReads x.addr x.size).modCore i (fun k =>
      { k with dfpc := k.pc, dfstat := sstatOf k x.desc x.cause x.capn x.fetch,
               dfaddr := BitVec.ofNat 40 x.addr })).lockup (pairIx i) 1) ∧
    (∀ d, 2 ≤ i.val → k.descriptor 0 false = some d →
      (s.modCore i (fun k => { k with caps := d.install k.caps, pc := d.offs })).fetchTrouble i = none →
      let k' := (s.takeFault i x).core[i]
      k'.df = true ∧ k'.dfpc = k.pc ∧ k'.dfstat = sstatOf k x.desc x.cause x.capn x.fetch ∧
        k'.dfaddr = BitVec.ofNat 40 x.addr ∧ k'.pc = d.offs ∧ k'.caps = d.install k.caps ∧ k'.save = k.save ∧
        k'.regs = k.regs))

/-- R461 to R464, R482, R483: a request that can be sampled enters its handler; with no long operation and no transfer
under way, the offset of the boundary is saved, and the code is the entry's number. With no request nothing happens.

R435, R464: `ECALL` and `BREAK` raise the service-call and the breakpoint fault, descriptors 8 and 9, which is
their effect. -/
def Obligations.InterruptsAndServiceCalls : Prop :=
  (∀ (s : State) (c : CoreId), s.coreUp (coreIx c) = true →
    let i := coreIx c
    let k := s.core[i]
    (s.request i = none → exec (.interruptEntry c) s = .next s) ∧
    (∀ e l d, s.request i = some (e, l) → k.long = none → k.slot = none → k.flip = false →
      k.descriptor e false = some d →
      let v : SaveSt := { spc := k.pc, sstat := sstatOf k e 0 0 false, scap := k.caps[0], replay0 := 0, replay1 := 0,
                          faddr := 0 }
      (s.modCore i (fun k => k.enter d v)).fetchTrouble i = none →
      ∃ t, exec (.interruptEntry c) s = .next t ∧ (t.core[i]).save[d.level] = v ∧ (t.core[i]).pc = d.offs ∧
        (t.core[i]).caps = d.install k.caps ∧ (t.core[i]).cur = d.level ∧ (t.core[i]).mask = k.mask ||| d.mask ∧
        (t.core[i]).regs = k.regs ∧ (t.core[i]).waiting = false ∧ t.mem = s.mem ∧ t.reg = s.reg)) ∧
  (∀ (s : State) (c : CoreId), s.ready c (Obligations.shapeFlow [] []) = true →
    let u := s.issued c (Obligations.shapeFlow [] [])
    exec (.ecall c) s =
      .next (u.takeFault (coreIx c) { desc := 8, cause := 0, capn := 0, fetch := false, addr := 0 }) ∧
    exec (.breakpoint c) s =
      .next (u.takeFault (coreIx c) { desc := 9, cause := 0, capn := 0, fetch := false, addr := 0 }))

/-! ### Cores: system instructions -/

/-- R435, R447, R455, R466: `FENCE`, `WFE`, `ICINV` and `BPFLUSH` complete; the last three need PRIV and raise the
capability fault with cause PERM without it. No general register, flag or capability register changes, nor memory.

R484: `RETI` in a level, with an empty shadow stack, restores the program counter, the code capability, the
authority bank, the level and the mask that entry saved, and reissues the operation of a valid replay slot; the
general registers and memory keep their values. -/
def Obligations.SystemInstructions : Prop :=
  (∀ (s : State) (c : CoreId) (cs : CapIx) (rs : Reg),
    let i := coreIx c
    let plain : Op := { reads := [], writes := [] }
    let wait : Op := { reads := [], writes := [], slotOk := false }
    let inv : Op := { reads := [rs.val, 32 + cs.val], writes := [] }
    let does (op : Op) (priv : Bool) (r : Result) (f : State → State → Prop) : Prop :=
      let u := s.issued c op
      s.ready c op = true →
      (priv = true → u.code i pPRIV = true) →
      ∃ t, r = s.ended c op t ∧ f u t ∧ (t.core[i]).regs = (u.core[i]).regs ∧ (t.core[i]).caps = (u.core[i]).caps ∧
        (t.core[i]).fflags = (u.core[i]).fflags ∧ (t.core[i]).pc = (u.core[i]).pc ∧ t.mem = u.mem ∧ t.tags = u.tags ∧
        t.reg = u.reg
    let denied (op : Op) (r : Result) : Prop :=
      s.ready c op = true → (s.issued c op).code i pPRIV = false →
      r = .next ((s.issued c op).takeFault i { desc := 3, cause := 2, capn := 0, fetch := false, addr := 0 })
    let k (u : State) : Cap := u.cap i cs
    let a (u : State) : Nat := (k u).base + (u.gr i rs).toNat
    let line (u : State) : Nat := a u / lineSize i
    let legal : Prop := (k (s.issued c inv)).tag = true ∧ (k (s.issued c inv)).sl = 0 ∧
      a (s.issued c inv) ≤ (k (s.issued c inv)).limit ∧ a (s.issued c inv) < 2 ^ 40
    does plain false (exec (.fence c) s) (fun u t => (t.core[i]).cycle = (u.core[i]).cycle + 6) ∧
    does wait true (exec (.wfe c) s) (fun u t => (t.core[i]).waiting = !u.wakes i) ∧
    does plain true (exec (.bpflush c) s) (fun u t => ∀ o, (t.core[i]).predGet o = (1, (u.core[i]).ctx)) ∧
    (legal → does inv true (exec (.icinv c cs rs) s) (fun u t => (t.core[i]).line ≠ some (line u) ∧
      ∀ e : Nat × Nat, e ∈ (t.core[i]).ways ↔ e ∈ (u.core[i]).ways ∧ e.2 ≠ line u)) ∧
    denied wait (exec (.wfe c) s) ∧ denied plain (exec (.bpflush c) s) ∧ denied inv (exec (.icinv c cs rs) s)) ∧
  (∀ (s : State) (c : CoreId) (l : Fin 4),
    let i := coreIx c
    let op : Op := { reads := [], writes := [], sys := true, slotOk := false, long := (s.core[i]).replays }
    let u := s.issued c op
    let k := u.core[i]
    let v := k.save[l]
    s.ready c op = true →
    (k.cur = l.val → k.df = false → u.code i pPRIV = true → k.stack = [] →
      ∃ t, exec (.reti c) s = .next t ∧
        let k' := t.core[i]
        k'.pc = v.spc ∧ k'.caps[0] = v.scap ∧ (∀ n : Fin 7, k'.caps[(n : Nat) + 1] = (k.bank[l])[n]) ∧
        k'.cur = v.sstat.toNat / 65536 % 8 ∧ k'.mask = v.sstat.toNat / 4096 % 16 ∧ k'.regs = k.regs ∧
        k'.save = k.save ∧ t.mem = u.mem ∧ t.reg = u.reg ∧
        (v.replay1.getLsbD 0 = false → k'.long = k.long) ∧
        (∀ r : LongRes, v.replay1.getLsbD 0 = true →
          longOf (fieldOf v.replay0 30 25) (fieldOf v.replay0 9 0) (u.gr i (longRegs v.replay0).1)
            (u.gr i (longRegs v.replay0).2.1) (u.gr i (longRegs v.replay0).2.2) = some r →
          ∃ lo, k'.long = some lo ∧ lo.word = v.replay0 ∧ lo.result = r.r.w ∧ lo.flags = r.r.fl)) ∧
    (k.cur = l.val → k.df = true → exec (.reti c) s = .next (u.takeFault i illegal)) ∧
    (4 ≤ k.cur → exec (.reti c) s = .next (u.takeFault i illegal)) ∧
    (k.cur = l.val → k.df = false → u.code i pPRIV = false →
      exec (.reti c) s = .next (u.takeFault i { desc := 3, cause := 2, capn := 0, fetch := false, addr := 0 })) ∧
    (k.cur = l.val → k.df = false → u.code i pPRIV = true → k.stack ≠ [] →
      exec (.reti c) s = .next (u.takeFault i (flowTrouble 11))))

/-- R436, R437: `CSR` puts the register as it was into rd, and changes it to rs1, or sets or clears the bits that are set
in rs1, as KIND selects. A number that the core does not define and a change of a read-only register are illegal; an
access without SYS, and a change of a seal-type mask without KEY, raise a capability fault with cause PERM.

Rests on choices of the model: log entry 67. -/
def Obligations.CsrResults : Prop :=
  ∀ (s : State) (c : CoreId) (rd rs1 : Reg) (kind : Fin 4) (num : BitVec 12),
    let i := coreIx c
    let n := num.toNat
    let change : Bool := decide (kind = 1 ∨ (2 ≤ kind.val ∧ rs1 ≠ 0))
    let op : Op := { reads := if kind = 0 then [] else [rs1.val], writes := [rd.val], sys := change }
    let u := s.issued c op
    let r := u.csrRead i n
    let x := u.gr i rs1
    let w : Word := if kind = 1 then x else if kind = 2 then r.1 ||| x else if kind = 3 then r.1 &&& ~~~x else r.1
    let faults (t : Trouble) : Prop := exec (.csr c rd rs1 kind num) s = .next (u.takeFault i t)
    s.ready c op = true →
    (csrMask i n = none → faults illegal) ∧
    (csrMask i n = some 0 → change = true → faults illegal) ∧
    (∀ m, csrMask i n = some m → (change = true → m ≠ 0) →
      (u.code i pSYS = false → faults { desc := 3, cause := 2, capn := 0, fetch := false, addr := 0 }) ∧
      (u.code i pSYS = true → change = true → 32 ≤ n → n < 40 → u.code i pKEY = false →
        faults { desc := 3, cause := 2, capn := 0, fetch := false, addr := 0 }) ∧
      (u.code i pSYS = true → change = false →
        exec (.csr c rd rs1 kind num) s = s.ended c op (r.2.setGr i rd r.1)) ∧
      (u.code i pSYS = true → change = true → (32 ≤ n → n < 40 → u.code i pKEY = true) →
        (n ≠ 0x154 ∨ w.getLsbD 4 = false) →
        exec (.csr c rd rs1 kind num) s = s.ended c op ((r.2.modCore i (fun k => k.setCsr n w)).setGr i rd r.1)))

/-- What a written system register reads as afterwards, on a core with no other change: its writable bits are those
of the word written (R437 and the field tables of chapters 12 to 14); bit 0 of `SEALMASK0` reads 1.

R437, R454, R455, R480, R487: the writes of `SVC`, `PRED_CTX`, a `SEALMASK` register, `SSTK` and `HDT_CTL` with their
own rows complete on a core whose code holds SYS, and KEY for the mask.

Rests on choices of the model: log entry 67. -/
def Obligations.SystemRegisters : Prop :=
  (∀ (s : State) (i : Fin 5) (w : Word),
    let after (n : Nat) : Word := ((s.modCore i (fun k => k.setCsr n w)).csrRead i n).1
    after 0x000 = w &&& 0x1F#32 ∧
    (∀ j : Nat, j < 8 → after (0x020 + j) = if j = 0 then w ||| 1#32 else w) ∧
    (∀ l : Nat, l < 4 → after (0x100 + 16 * l) = w) ∧
    (∀ l : Nat, l < 4 → (after (0x101 + 16 * l)).toNat / 4096 % 16 = w.toNat / 4096 % 16) ∧
    ((s.core[i]).cur < 16 → (after 0x150).toNat / 16 % 16 = w.toNat / 16 % 16) ∧
    after 0x151 = w &&& 0xFFFF#32 ∧ after 0x153 = w ∧ after 0x155 = w ∧ after 0x200 = w &&& 3#32 ∧
    after 0x201 = w &&& 0xF#32 ∧ after 0x202 = w &&& 0xF7#32) ∧
  (∀ (s : State) (c : CoreId) (j : Fin 8) (cap : CapIx) (n : BitVec 9) (val : Word),
    let i := coreIx c
    let op : Op := { reads := [], writes := [], sys := true }
    let u := s.issued c op
    let k := u.core[i]
    s.ready c op = true → u.code i pSYS = true →
    let ends (r : Result) (f : CoreSt → Prop) : Prop := ∃ t, r = s.ended c op t ∧ f t.core[i] ∧
      (t.core[i]).regs = k.regs ∧ (t.core[i]).caps = k.caps ∧ (t.core[i]).pc = k.pc ∧ t.mem = u.mem ∧ t.reg = u.reg
    ends (exec (.svcWrite c val) s) (fun k' => k'.svc = val.toNat % 4 ∧
      (val.toNat % 4 ≠ k.svc → k'.pred = [] ∧ k'.scrambles = [] ∧ k'.drawn = false)) ∧
    ends (exec (.predCtxWrite c val) s) (fun k' => k'.ctx = val.toNat % 16 ∧ (k.svc = 1 → k'.pred = [])) ∧
    (u.code i pKEY = true → ends (exec (.sealmaskWrite c j val) s) (fun k' => ∀ m : Fin 8,
      k'.sealmask[m] = if m = j then (if j = 0 then val ||| 1#32 else val) else k.sealmask[m])) ∧
    ends (exec (.sstkDiscard c n) s) (fun k' => k'.stack = k.stack.drop n.toNat) ∧
    (∀ l t, u.hdtGranules i cap k.hdtBase 160 0 [] = .ok (l, t) → k.cycle ≤ (t.core[i]).cycle →
      ∃ t', exec (.hdtLoad c cap) s = s.ended c op t' ∧ (t'.core[i]).hdt = some
        { bytes := (l.take 128).flatMap (fun q => leBytes 16 q.bits.toNat), vault := l.drop 128 }) ∧
    (∀ x, u.hdtGranules i cap k.hdtBase 160 0 [] = .error x → exec (.hdtLoad c cap) s = .next (u.takeFault i x)))

/-! ### Cores: events, pairs and block repeat -/

/-- R457, R477, R495: the events of a core that runs. The timer matches in the cycle in which `CYCLE_LO` becomes equal
to `TMCMP`; a mismatch of its two cores locks a control pair up with WHY 2; a scramble draw gives sixteen values of ten
bits.

R261, R493: lockup drops what the pair had under way, marks it locked up, and writes why; its input of the trip matrix
is asserted from then on. -/
def Obligations.CoreEvents : Prop :=
  (∀ (s : State) (c : CoreId) (n : Fin 2),
    let i := coreIx c
    let k := s.core[i]
    (s.coreUp i = true → ∃ t, exec (.timerMatch c) s = .next t ∧ (t.core[i]).tm = true ∧
      (t.core[i]).cycle % 2 ^ 32 = k.tmcmp.toNat ∧ k.cycle < (t.core[i]).cycle ∧ (t.core[i]).regs = k.regs ∧
      t.mem = s.mem ∧ t.reg = s.reg) ∧
    (s.coreUp (if n = 0 then 0 else 1) = true → ∃ t, exec (.lockstepMismatch n) s = .next t ∧ t = s.lockup n 2) ∧
    (s.coreUp i = true → k.tagged = true → k.drawn = false → ∃ t, exec (.scrambleDrawComplete c) s = .next t ∧
      (t.core[i]).drawn = true ∧ (t.core[i]).scrambles.length = 16 ∧ (∀ x ∈ (t.core[i]).scrambles, x < 1024) ∧
      (t.core[i]).regs = k.regs ∧ (t.core[i]).pred = k.pred ∧ t.mem = s.mem ∧ t.reg = s.reg)) ∧
  (∀ (s : State) (n : Fin 2) (why : Nat), s.locked[n] = false → why < 4 →
    let u := s.lockup n why
    u.locked[n] = true ∧ u.inputLevel (36 + n) = true ∧ u.get (CPM_PAIR_RST.WHY n) = why ∧
    (∀ m : Fin 2, m ≠ n → u.locked[m] = s.locked[m]) ∧
    (u.core[(if n = 0 then 0 else 1 : Fin 5)]).long = none ∧
    (u.core[(if n = 0 then 0 else 1 : Fin 5)]).regs = (s.core[(if n = 0 then 0 else 1 : Fin 5)]).regs ∧ u.mem = s.mem)

/-- The shape of a pair. -/
def Obligations.shapePair (a b : Short) : Op :=
  let late (x : Short) : List Nat := if x.sop = 0x16 ∨ x.sop = 0xA then [x.rd] else []
  { reads := a.reads ++ b.reads ++ (if a.isMem || b.isMem then [33] else []), writes := a.writes ++ b.writes,
    late := late a ++ late b, count := 2 }

/-- R405, R406: a legal pair without a dependence and without a memory access writes both results, each computed from
the registers as they were before the pair; a dependent pair raises the illegal-pair fault before either slot
executes, an illegal slot the illegal-instruction fault.

R405: the results of the short operations from the values `d` of rd and `v` of rs, or from the immediate. -/
def Obligations.PairedOperations : Prop :=
  (∀ (s : State) (c : CoreId) (x y : BitVec 15) (low : Bool),
    let i := coreIx c
    let a := shortOf x
    let b := shortOf y
    let op := Obligations.shapePair a b
    let u := s.issued c op
    let v (z : Short) : Word := z.value (u.gr i (Fin.ofNat 32 z.rd)) (u.gr i (Fin.ofNat 32 z.rs))
    s.ready c op = true →
    ((low = true ∨ a.legal = false ∨ b.legal = false) → exec (.pairedWord c x y low) s = .next (u.takeFault i illegal)) ∧
    (low = false → a.legal = true → b.legal = true → dependent a b = true →
      exec (.pairedWord c x y low) s = .next (u.takeFault i { desc := 2, cause := 0, capn := 0, fetch := false, addr := 0 })) ∧
    (low = false → a.legal = true → b.legal = true → dependent a b = false → a.isMem = false → b.isMem = false →
      ∃ t, exec (.pairedWord c x y low) s = s.ended c op t ∧
        (∀ r : Reg, t.gr i r = if r = 0 then 0 else if r.val ∈ b.writes then v b else if r.val ∈ a.writes then v a
          else u.gr i r) ∧
        (t.core[i]).caps = (u.core[i]).caps ∧ t.mem = u.mem ∧ t.reg = u.reg)) ∧
  (∀ (d v : Word) (rd n : Nat), n < 32 →
    let f (sop : Nat) : Word := ({ sop := sop, rd := rd, rs := n } : Short).value d v
    let imm : Word := if n < 16 then BitVec.ofNat 32 n else BitVec.ofInt 32 ((n : Int) - 32)
    f 1 = v ∧ f 2 = d + v ∧ f 3 = d - v ∧ f 4 = d &&& v ∧ f 5 = d ||| v ∧ f 6 = d ^^^ v ∧
    f 7 = d <<< (v.toNat % 32) ∧ f 8 = d >>> (v.toNat % 32) ∧ f 9 = d.sshiftRight (v.toNat % 32) ∧
    f 0xA = BitVec.ofNat 32 (d.toNat * v.toNat) ∧ f 0xB = 0 - v ∧ f 0xC = v ^^^ 0xFFFFFFFF#32 ∧
    f 0xD = (if d.toInt ≤ v.toInt then d else v) ∧ f 0xE = (if v.toInt ≤ d.toInt then d else v) ∧
    f 0xF = (if d.toInt < v.toInt then 1 else 0) ∧ f 0x10 = imm ∧ f 0x11 = d + imm ∧ f 0x12 = d <<< n ∧
    f 0x13 = d >>> n ∧ f 0x14 = d.sshiftRight n ∧ f 0x15 = d &&& BitVec.ofNat 32 n)

/-- The shape of a block repeat with the word that follows it. -/
def Obligations.shapeRepeat (w : Word) : Op :=
  { reads := (strRegs w).1, writes := (strRegs w).2, slotOk := false, count := 0 }

/-- R430 to R432: with a count of 0, and with any count that its elements exhaust or end early, a block repeat completes
and the program counter passes the string instruction; a following word that is no legal string instruction is the
illegal-instruction fault; an element that faults stops the loop with the registers as the earlier elements left
them.

R431: a fill of `n` elements of memory whose stores all pass, on a core with no interrupt enabled, leaves the
element in every place, every other byte as it was, the count 0 and the destination offset past the last element.

Rests on choices of the model: log entry 66. -/
def Obligations.BlockRepeat : Prop :=
  (∀ (s : State) (c : CoreId) (w : Word),
    let i := coreIx c
    let op := Obligations.shapeRepeat w
    let u := s.issued c op
    s.ready c op = true → u.fetchNext i = none →
    (strOf w = none → exec (.brpt c w) s = .next (u.takeFault i illegal)) ∧
    (∀ x, strOf w = some x → u.gr i 29 = 0 → ∃ t, exec (.brpt c w) s = .next t ∧
      (∀ r : Reg, t.gr i r = if x.kind = 2 ∧ r = x.rd then 0 else u.gr i r) ∧
      (t.core[i]).pc = (u.core[i]).pc + 8 ∧ (t.core[i]).retired = (u.core[i]).retired + 1 ∧
      t.mem = u.mem ∧ t.tags = u.tags ∧ t.reg = u.reg) ∧
    (∀ x t, strOf w = some x → u.blockLoop i x (u.gr i 29).toNat = (true, t, none) →
      (u.core[i]).cycle ≤ (t.core[i]).cycle → (t.core[i]).slot = none →
      ∃ t', exec (.brpt c w) s = .next t' ∧ (t'.core[i]).pc = (t.core[i]).pc + 8 ∧ (t'.core[i]).regs = (t.core[i]).regs ∧
        t'.mem = t.mem) ∧
    (∀ x t y, strOf w = some x → u.blockLoop i x (u.gr i 29).toNat = (false, t, some y) →
      exec (.brpt c w) s = .next (t.takeFault i y))) ∧
  (∀ (s : State) (i : Fin 5) (x : Str) (n a : Nat),
    let sz := 2 ^ x.size
    let g := (s.gr i 31).toNat
    x.kind = 1 → x.down = false → x.size < 4 → x.rd.val < 29 → (s.core[i]).ien = 0 → (s.gr i 29).toNat = n →
    g + n * sz < 2 ^ 32 → (∀ j, j < n * sz → isRegAddr (a + j) = false) →
    (∀ j : Nat, j < n → s.access i x.cd pWR (g + j * sz) sz true = .ok (a + j * sz)) →
    ∃ t, s.blockLoop i x n = (true, t, none) ∧ t.gr i 29 = 0 ∧ (t.gr i 31).toNat = g + n * sz ∧
      (∀ j, j < n * sz → (t.byte (a + j)).toNat = elemOf x (s.gr i x.rd) / 2 ^ (8 * (j % sz)) % 256) ∧
      (∀ b, (b < a ∨ a + n * sz ≤ b) → t.byte b = s.byte b) ∧
      (∀ r : Reg, r ≠ 29 → r ≠ 31 → t.gr i r = s.gr i r) ∧ t.reg = s.reg)

/-! ### Register accesses -/

/-- A command that writes the register at `a` as agent `ag` is carried out when the access is, and leaves a state with
`f`; for an always-on register BRC runs (R32). -/
def Obligations.writes (s : State) (ag : Agent) (a : Nat) (r : Result) (f : State → Prop) : Prop :=
  s.busOk ag a true = true → (onAoBus a = true → s.on APM_CLKSTAT.BRCRUN = true) →
  ∃ t, r = .next t ∧ t.answer = some 0 ∧ f t

/-- A command that reads the register at `a` as agent `ag` answers `w` when the access is carried out, and leaves a
state with `f`. -/
def Obligations.reads (s : State) (ag : Agent) (a : Nat) (r : Result) (w : Word) (f : State → Prop) : Prop :=
  s.busOk ag a false = true → (onAoBus a = true → s.on APM_CLKSTAT.BRCRUN = true) →
  ∃ t, r = .next t ∧ t.answer = some w ∧ f t

/-- R25 to R32: a register write that the map, the region filter, the domains and the clocks let pass writes the
register; any other changes nothing and is answered by a bus error. An access to an always-on register while BRC is
stopped starts BRC, is carried out when BRC runs, and APM stops BRC afterwards when nothing else needs it.

R13, R14, R17: what the access codes do, bit by bit, to the word `old` of a register with fields `l` when `w` is
written, where hardware sets the bits `hw` in the same cycle: an RW bit takes the bit written, an LK bit in the permitted
life-cycle states and a CD bit that is not refused; a W1C bit is cleared by a 1 unless hardware sets it in this cycle; a
W1S bit is set by a 1; every other bit keeps its value.

Rests on choices of the model: log entries 11, 12, 15. -/
def Obligations.RegisterAccess : Prop :=
  (∀ (s : State) (ag : Agent) (adr : BitVec 40) (val : Word),
    let a := adr.toNat
    let runs := s.on APM_CLKSTAT.BRCRUN
    let stall : RegAccess := { adr := adr, write := some val }
    let load : RegAccess := { adr := adr, write := none }
    (s.busOk ag a true = false → exec (.registerWrite ag adr val) s = .next { s with answer := none } ∧
      exec (.aoRegisterAccessStall ag stall) s = .next { s with answer := none }) ∧
    (s.busOk ag a true = true → (onAoBus a = false ∨ runs = true) →
      exec (.registerWrite ag adr val) s = .next { s.regWrite ag a val with answer := some 0 }) ∧
    (s.busOk ag a true = true → onAoBus a = true → runs = false →
      exec (.registerWrite ag adr val) s = .next { (s.aoBus.regWrite ag a val).brcSettle with answer := some 0 } ∧
      exec (.aoRegisterAccessStall ag stall) s =
        .next { (s.aoBus.regWrite ag a val).brcSettle with answer := some 0 }) ∧
    (s.busOk ag a false = true → onAoBus a = true → runs = false →
      let r := s.aoBus.regRead ag a
      exec (.aoRegisterAccessStall ag load) s = .next { r.2.brcSettle with answer := some r.1 }) ∧
    (s.busOk ag a false = false → exec (.aoRegisterAccessStall ag load) s = .next { s with answer := none })) ∧
  (∀ (l : List FieldSpec) (lk cold : Bool) (hw old w : Word) (i : Nat), i < 32 →
    let has (c : Access) : Bool := (accMask l c).getLsbD i
    let one (c : Access) : Prop := has c = true ∧ ∀ d, d ≠ c → has d = false
    let b := (nextWord l lk cold hw old w).getLsbD i
    (one .rw → b = w.getLsbD i) ∧
    (one .lk → b = if lk then w.getLsbD i else old.getLsbD i) ∧
    (one .cd → b = if cold then w.getLsbD i else old.getLsbD i) ∧
    (one .w1c → b = (old.getLsbD i && (!w.getLsbD i || hw.getLsbD i))) ∧
    (one .w1s → b = (old.getLsbD i || w.getLsbD i)) ∧
    ((one .ro ∨ one .wo ∨ one .st ∨ ∀ c, has c = false) → b = old.getLsbD i))

/-! ### Position tracks -/

/-- R101, R128, R111 to R116: what the events of a track's measurements and of its encoder do. A measurement that waits is
applied in its cycle. A change of a line begins to be filtered, is rejected when the line returns within the filter
time, and else moves the count by one and is a measurement with the instant of its first cycle; a change of both lines at
once is a fault. The check of the far boundary and the index act only as the track's settings say.

R118 to R121: the SSI frames of a track. At the end of its poll period the lowest-numbered track of an interface
starts a frame, or drops the start and sets SSIOVR while a frame or its wait lasts; at the end of a frame whose position
is wanted each track of the interface takes the position as its measurement, or ENCiB low before the first edge as its
fault.

Rests on choices of the model: log entries 18, 22, 25, 74, 77. -/
def Obligations.TrackSources : Prop :=
  (∀ (s : State) (n : TrackId),
    let t := s.trk[n]
    let runs : Prop := t.seeded = true ∧ t.lost = false ∧ t.coast = false
    let inc : Prop := s.trkEn n = true ∧ s.trkType n = 2
    (s.nextDue n = none → exec (.trkMeasurement n) s = .next s) ∧
    (∀ d, s.nextDue n = some d → exec (.trkMeasurement n) s = .next ((s.reach d).trkDue n)) ∧
    (∀ m : Meas, t.waiting = [m] → t.edges = [] → t.shares = [] → m.due ≤ s.now → runs →
      (s.trkType n = 1 ∨ s.trkType n = 2) →
      exec (.trkMeasurement n) s = .next ((s.modTrk n (fun t => { t with waiting := [] })).correct n m.m m.ts)) ∧
    (∀ e : SeenEdge, t.waiting = [] → t.edges = [e] → t.shares = [] → s.edgeDue n e.ts ≤ s.now → runs → inc →
      let a := if e.lineB then t.lineA else e.level
      let b := if e.lineB then e.level else t.lineB
      let k := (quadIx a b + 4 - quadIx t.lineA t.lineB) % 4
      let counted (c : Int) : Prop := ∃ u : State, exec (.trkMeasurement n) s = .next u ∧ (u.trk[n]).cnt = c ∧
        (u.trk[n]).lineA = a ∧ (u.trk[n]).lineB = b ∧ (u.trk[n]).edges = [] ∧ (u.trk[n]).tsPrev = 16 * (e.ts : Int) ∧
        (u.trk[n]).loss = false ∧ (∀ j : TrackId, n ≠ j → u.trk[j] = s.trk[j]) ∧ u.now = s.now
      (k = 1 → counted (t.cnt + 1)) ∧ (k = 3 → counted (t.cnt - 1))) ∧
    (∀ (a b : Bool) (ts : Nat), t.waiting = [] → t.shares = [] → s.edgeDue n ts ≤ s.now → runs → inc →
      t.edges = [{ lineB := false, level := a, ts := ts }, { lineB := true, level := b, ts := ts }] →
      a ≠ t.lineA → b ≠ t.lineB →
      ∃ u : State, exec (.trkMeasurement n) s = .next u ∧ (u.trk[n]).cnt = t.cnt ∧ u.get (TRK_FLAGS.SRCF n) = 1 ∧
        (u.trk[n]).loss = true) ∧
    (∀ (a b : Bool) (ts : Nat), ts ≤ s.now → s.now < ts + 2 →
      let i : Fin 8 := Fin.ofNat 8 (s.get (TRK_CTRL.IFACE n))
      let old := s.enc[i]
      (∀ k : TrackId, (s.trk[k]).edges = []) →
      ∃ u : State, exec (.encoderEdge n a b ts) s = .next u ∧ u.enc = s.enc.set i ⟨a, b⟩ ∧
        (∀ k : TrackId, (u.trk[k]).cnt = (s.trk[k]).cnt ∧ (u.trk[k]).lineA = (s.trk[k]).lineA ∧
          (u.trk[k]).edges =
            (if s.trkEn k = true ∧ s.trkType k = 2 ∧ s.get (TRK_CTRL.IFACE k) = s.get (TRK_CTRL.IFACE n) then
              (if a = old.a then [] else [{ lineB := false, level := a, ts := ts }]) ++
              (if b = old.b then [] else [{ lineB := true, level := b, ts := ts }])
            else [])) ∧
        u.reg = s.reg ∧ u.mem = s.mem ∧ u.now = s.now) ∧
    (∀ (a b : Bool) (ts : Nat) (e : SeenEdge), ts ≤ s.now → s.now < ts + 2 → inc → t.edges = [e] →
      let old := s.enc[(Fin.ofNat 8 (s.get (TRK_CTRL.IFACE n)) : Fin 8)]
      e.lineB = false → e.level = old.a → a ≠ old.a → b = old.b → ts < e.ts + s.get (TRK_SRCB.GLITCH n) →
      (∀ k : TrackId, k ≠ n → (s.trk[k]).edges = []) →
      ∃ u : State, exec (.encoderEdge n a b ts) s = .next u ∧ (u.trk[n]).edges = [] ∧ (u.trk[n]).gate = some ts ∧
        (u.trk[n]).cnt = t.cnt ∧ (u.trk[n]).lineA = t.lineA ∧ u.reg = s.reg) ∧
    (inc → runs → t.edges = [] → t.gate ≠ some s.now → t.checked ≠ some s.now → s.beyond n = true →
      t.passed ≠ some (s.farBoundary n) →
      exec (.encoderBoundaryMeasurement n) s =
        .next ((s.modTrk n (fun t => { t with passed := some (s.farBoundary n), checked := some s.now })).correct n
          (s.farBoundary n) s.now16)) ∧
    ((s.trkEn n = false ∨ s.trkType n ≠ 2 ∨ t.lost = true ∨ t.coast = true ∨ s.beyond n = false ∨ t.edges ≠ [] ∨
        t.gate = some s.now ∨ t.passed = some (s.farBoundary n)) →
      exec (.encoderBoundaryMeasurement n) s = .next s) ∧
    (∀ ts : Nat, (s.trkEn n = false ∨ s.trkType n ≠ 2) → exec (.encoderIndex n ts) s = .next s) ∧
    (∀ ts : Nat, inc →
      let u := s.reach (ts + 2 + s.get (TRK_SRCB.GLITCH n))
      let w := if u.on (TRK_SRCA.ZEN n) then
          ((u.wr (TRK_IDXCAP.adr n) (u.trk[n]).oang).raise (TRK_FLAGS.IDX n)).signal (4 * n + 2)
        else u
      let v := w.trk[n]
      let r := v.cnt % (w.cpt n : Int)
      let far := decide (w.get (TRK_SRCB.IDXTOL n) ≠ 0 ∧ (w.get (TRK_SRCB.IDXTOL n) : Int) < min r (w.cpt n - r))
      let homes := w.on (TRK_SRCA.ZHOME n)
      (homes = false → exec (.encoderIndex n ts) s = .next w) ∧
      (homes = true → v.homed = false → v.lost = false →
        exec (.encoderIndex n ts) s = .next ((w.modTrk n (fun t =>
          { t with cnt := 0, homed := true, loss := false })).seed n 0 (16 * ts))) ∧
      (homes = true → v.homed = false → v.lost = true →
        exec (.encoderIndex n ts) s = .next (w.modTrk n (fun t => { t with cnt := 0, homed := true }))) ∧
      (homes = true → v.homed = true → far = true →
        exec (.encoderIndex n ts) s = .next ((w.raise (TRK_FLAGS.IDXERR n)).lossCondition n)) ∧
      (homes = true → v.homed = true → far = false → exec (.encoderIndex n ts) s = .next w))) ∧
  (∀ (s : State) (n : TrackId),
    let t := s.trk[n]
    let idle : Prop := ∀ x ∈ s.arrived, x.task ≠ 0x88 + n
    (idle → s.ssiDrives n = true → s.on (TRK_SRCB.POLL n) = true → s.pollAt n ≤ s.now → t.ssiBusy s.now = false →
      let bits := s.ssiBits n
      let per := s.ssiPer n
      let f : SsiFrame := { start := s.now, bits := bits, per := per, live := true,
                            until_ := s.now + bits * per + 1250 * max 1 (s.get (TRK_SRCB.TM n)) }
      exec (.ssiStart n) s =
        .next ((s.modTrk n (fun t => { t with pollFrom := s.now, ssi := some f })).signal (4 * n + 3))) ∧
    (idle → s.ssiDrives n = true → s.on (TRK_SRCB.POLL n) = true → s.pollAt n ≤ s.now → t.ssiBusy s.now = true →
      exec (.ssiStart n) s =
        .next ((s.modTrk n (fun t => { t with pollFrom := s.now })).raise (TRK_FLAGS.SSIOVR n))) ∧
    (idle → (s.ssiDrives n = false ∨ s.on (TRK_SRCB.POLL n) = false) → exec (.ssiStart n) s = .next s) ∧
    (∀ (bits : Word) (low : Bool), t.ssi = none → exec (.ssiFrameComplete n bits low) s = .next s) ∧
    (∀ (bits : Word) (low : Bool) (f : SsiFrame), t.ssi = some f → f.live = false →
      exec (.ssiFrameComplete n bits low) s = .next (s.modTrk n (fun t => { t with ssi := some f }))) ∧
    (∀ (bits : Word) (f : SsiFrame), t.ssi = some f → f.live = true → f.start + f.bits * f.per + 2 ≤ s.now →
      s.ssiPeers n = [n] →
      exec (.ssiFrameComplete n bits true) s =
        .next ((s.modTrk n (fun t => { t with ssi := some { f with live := false } })).lossCondition n)) ∧
    (∀ (bits : Word) (f : SsiFrame), t.ssi = some f → f.live = true → f.start + f.bits * f.per + 2 ≤ s.now →
      s.ssiPeers n = [n] → s.on (TRK_SRCA.GRAY n) = false → s.get (TRK_SRCB.JUMP n) = 0 → t.waiting = [] →
      t.seeded = true → t.lost = false → t.coast = false →
      exec (.ssiFrameComplete n bits false) s =
        .next ((s.modTrk n (fun t => { t with ssi := some { f with live := false }, loss := false })).correct n
          (bits.toNat % 2 ^ f.bits * 2 ^ (32 - f.bits) % 2 ^ 32) (16 * f.start))))

/-- R101, R103: the correction by a measurement on a track. The angle and the velocity move by the innovation times
their gains, rounded to the nearest unit; the acceleration is the change of the velocity since the previous
measurement; the other tracks, memory and the registers but for the track's SAT flag keep their values.

R100, R105, R124, R646: in each loop cycle an enabled, seeded track that is not lost advances its source angle by its
source velocity, and an observer track its velocity by its acceleration, unless a core load takes effect in the cycle,
which sets the source state in place of the advance. A track that is not seeded or not enabled holds everything; a lost
track holds its output, and behind it the PLL of a mains track runs on.

R104, R123, R127, R131, R133, R134: a loss condition on a valid track that does not coast starts its coast, or takes
it straight to lost with a COAST of 0; on a track that is not valid it only sets SRCF and holds. Only a locked PLL can
unlock, and a share is stale 2.5 µs after the last. When the coast timer expires the track goes lost: it clears COAST and
VALID, holds its angle and turn count and reports zero velocity and acceleration.

Rests on choices of the model: log entries 21, 24, 77. -/
def Obligations.TrackMotion : Prop :=
  (∀ (s : State) (n : TrackId) (m : Nat) (ts : Int),
    let t := s.trk[n]
    let d16 : Nat := max 16 (ts - t.tsPrev).toNat
    let pred : Int := t.src.toNat * 16 - t.vel.toInt * ((16 * s.now : Nat) - ts)
    let e := (BitVec.ofInt 52 ((m : Int) * 2 ^ 20 - pred)).toInt
    let g := trkGains (s.get (TRK_FILT.BW n)) d16
    let v := t.vel.toInt + roundDiv (g.2 * e) (2 ^ 24 * d16)
    let v' := max (-(2 ^ 47)) (min (2 ^ 47 - 1) v)
    let u := s.correct n m ts
    (u.trk[n]).src = BitVec.ofInt 48 (roundDiv ((t.src.toNat : Int) * 16 * 2 ^ 24 + g.1 * e) (2 ^ 44) * 65536) ∧
    (u.trk[n]).vel = BitVec.ofInt 48 v' ∧ (u.trk[n]).tsPrev = ts ∧
    (v ≠ v' → u.get (TRK_FLAGS.SAT n) = 1) ∧
    (∀ j : TrackId, n ≠ j → u.trk[j] = s.trk[j]) ∧ u.mem = s.mem ∧
    (∀ a, a ≠ TRK_FLAGS.adr n → u.rd a = s.rd a) ∧
    0 ≤ g.1 ∧ g.1 ≤ 2 ^ 24 ∧ 0 ≤ g.2 ∧ g.2 ≤ 2 ^ 24) ∧
  (∀ (s : State) (n : TrackId),
    let t := s.trk[n]
    let u := s.predict n
    (t.seeded = true → s.trkEn n = true → t.lost = false → s.loadDue n = false →
      (u.trk[n]).src = t.src + t.vel ∧
      (s.trkType n ≠ 5 → (u.trk[n]).vel = t.vel) ∧
      (s.trkType n = 5 → (u.trk[n]).vel = BitVec.ofInt 48 (max (-(2 ^ 47)) (min (2 ^ 47 - 1) (t.vel.toInt + t.acc.toInt)))) ∧
      (u.trk[n]).oang = BitVec.ofNat 32 (t.mult * ((t.src + t.vel).toNat / 65536)) + s.rd (TRK_OFFS.adr n)) ∧
    ((t.seeded = false ∨ s.trkEn n = false ∨ t.lost = true ∨ s.loadDue n = true) →
      (u.trk[n]).vel = t.vel ∧ (u.trk[n]).oang = t.oang ∧ (u.trk[n]).turn = t.turn ∧
      ((t.lost = false ∨ s.trkType n ≠ 4) → (u.trk[n]).src = t.src)) ∧
    (∀ l : CoreLoad, t.load = some l → l.cycle < s.now → s.trkEn n = true → s.trkType n = 5 →
      let v := s.coreLoad n
      (v.trk[n]).src = BitVec.ofNat 48 (l.ang.toNat * 65536) ∧ (v.trk[n]).vel = l.vel ∧ (v.trk[n]).acc = l.acc ∧
      (v.trk[n]).load = none ∧ (v.trk[n]).valid = true) ∧
    (∀ j : TrackId, n ≠ j → u.trk[j] = s.trk[j]) ∧ u.mem = s.mem) ∧
  (∀ (s : State) (n : TrackId) (cond : LossCond),
    let t := s.trk[n]
    let marked := (s.raise (TRK_FLAGS.SRCF n)).modTrk n (fun t => { t with loss := true })
    let limit := t.coastAt + 1250 * min 1000 (s.get (TRK_FILT.COAST n))
    ((s.trkEn n = false ∨ s.trkType n ≠ lossType cond) → exec (.trkLossCondition n cond) s = .next s) ∧
    (s.trkEn n = true → s.trkType n = lossType cond → cond ≠ .pllUnlock → (cond = .staleShare → t.staleAt ≤ s.now) →
      (cond = .staleShare → t.loss = false) →
      (t.valid = false → exec (.trkLossCondition n cond) s = .next marked) ∧
      (t.valid = true → t.coast = true →
        exec (.trkLossCondition n cond) s = .next (marked.modTrk n (fun t => { t with goodRun := 0 }))) ∧
      (t.valid = true → t.coast = false → s.get (TRK_FILT.COAST n) ≠ 0 →
        ∃ u : State, exec (.trkLossCondition n cond) s = .next (u.signal (4 * n)) ∧ (u.trk[n]).coast = true ∧
          (u.trk[n]).coastAt = s.now ∧ (u.trk[n]).acc = 0 ∧ (u.trk[n]).vel = t.vel ∧ (u.trk[n]).src = t.src ∧
          u.get (TRK_FLAGS.SRCF n) = 1 ∧ (∀ j : TrackId, n ≠ j → u.trk[j] = s.trk[j]) ∧ u.mem = s.mem) ∧
      (t.valid = true → t.coast = false → s.get (TRK_FILT.COAST n) = 0 →
        exec (.trkLossCondition n cond) s = .next (marked.goLost n))) ∧
    (s.trkEn n = true → s.trkType n = 4 → t.lock = false → exec (.trkLossCondition n .pllUnlock) s = .next s) ∧
    (s.trkEn n = true → s.trkType n = 4 → t.lock = true → exec (.trkLossCondition n .pllUnlock) s =
      .next ((s.modTrk n (fun t => { t with lock := false, lockRun := 0, unlockRun := 0 })).lossCondition n)) ∧
    (s.trkEn n = true → s.trkType n = 6 → s.now < t.staleAt →
      exec (.trkLossCondition n .staleShare) s = .next ((s.reach t.staleAt).staleDue n)) ∧
    (t.coast = false → exec (.trkCoastExpiry n) s = .next s) ∧
    (t.coast = true → limit ≤ s.now → exec (.trkCoastExpiry n) s = .next (s.goLost n)) ∧
    (t.coast = true → s.now < limit → exec (.trkCoastExpiry n) s = .next ((s.reach limit).coastDue n)) ∧
    (∃ u : State, s.goLost n = u.signal (4 * n + 1) ∧ (u.trk[n]).lost = true ∧ (u.trk[n]).coast = false ∧
      (u.trk[n]).valid = false ∧ (u.trk[n]).oang = t.oang ∧ (u.trk[n]).turn = t.turn ∧ (u.trk[n]).ovel = 0 ∧
      (u.trk[n]).oacc = 0 ∧ u.get (TRK_FLAGS.LOST n) = 1 ∧ (∀ j : TrackId, n ≠ j → u.trk[j] = s.trk[j])))

/-- R124, R135, R136, R139, R140, R644, R645: the register accesses with rows of their own, where no drive is armed. A
read of `TRKn_ANG` answers the output angle and latches the rest of the track for its reader; a core load is kept for the
next cycle; a write of 1 to LOST clears the lost state only while no loss condition holds; a change of EN, MULT or the
source is kept for the next cycle, in which clearing EN stops the track and holds its angle, and setting it starts the
track with count 0, DIR forward and the present levels of its encoder lines.

Rests on choices of the model: log entries 12, 23, 24. -/
def Obligations.TrackRegisters : Prop :=
  ∀ (s : State) (ag : Agent) (n : TrackId),
    let t := s.trk[n]
    let idle : Prop := ∀ p, p < 32 → s.pairState p ≠ pRun
    let kept (u : State) : Prop := u.trk[n] = { t with ctl := t.ctl ++ [{
      cycle := s.now, ctrl0 := s.rd (TRK_CTRL.adr n), srca0 := s.rd (TRK_SRCA.adr n),
      ctrl1 := u.rd (TRK_CTRL.adr n), srca1 := s.rd (TRK_SRCA.adr n) }] }
    Obligations.reads s ag (TRK_ANG.adr n) (exec (.trkAngRead ag n) s) t.oang (fun u =>
      (u.trk[n]).latches[latchIx ag] = { turn := t.turn, vel := t.ovel, acc := t.oacc, stat := t.statWord } ∧
      (u.trk[n]).oang = t.oang ∧ (∀ j : TrackId, n ≠ j → u.trk[j] = s.trk[j]) ∧ u.reg = s.reg ∧ u.mem = s.mem) ∧
    (∀ ang, Obligations.writes s ag (TRK_OBS_ANG.adr n) (exec (.observerLoad ag n ang) s) (fun u =>
      u.rd (TRK_OBS_ANG.adr n) = ang ∧ u.mem = s.mem ∧
      (u.trk[n]).load = some {
        cycle := s.now, ang := ang, acc := s.rd (TRK_OBS_ACC.adr n),
        vel := BitVec.ofNat 48 (s.get (TRK_OBS_VEL_HI.VHI n) * 2 ^ 32 + s.get (TRK_OBS_VEL_LO.VLO n)) } ∧
      (u.trk[n]).src = t.src ∧ (u.trk[n]).oang = t.oang ∧ (∀ j : TrackId, n ≠ j → u.trk[j] = s.trk[j]))) ∧
    Obligations.writes s ag (TRK_FLAGS.adr n) (exec (.trkLostClear ag n) s) (fun u =>
      ((t.loss = true ∨ s.clearable (TRK_FLAGS.LOST n) = false) → u.trk = s.trk ∧ ∀ a, u.rd a = s.rd a) ∧
      (t.loss = false → s.clearable (TRK_FLAGS.LOST n) = true →
        u.get (TRK_FLAGS.LOST n) = 0 ∧ (u.trk[n]).lost = false ∧
        (t.lost = true → (u.trk[n]).seeded = false ∧ (u.trk[n]).oang = t.oang)) ∧ u.mem = s.mem) ∧
    (idle → ∀ en : Bool, Obligations.writes s ag (TRK_CTRL.adr n) (exec (.trkEnable ag n en) s) (fun u =>
      u.trkEn n = en ∧ u.trkType n = s.trkType n ∧ (s.trkEn n = en → u.trk = s.trk) ∧ (s.trkEn n ≠ en → kept u))) ∧
    (∀ x : CtlChange, t.ctl = [x] → x.cycle < s.now →
      let v := s.ctlDue n
      (fieldOf x.ctrl0 0 0 = 1 → fieldOf x.ctrl1 0 0 = 0 → (v.trk[n]).valid = false ∧ (v.trk[n]).coast = false ∧
        (v.trk[n]).lost = false ∧ (v.trk[n]).oang = t.oang ∧ (v.trk[n]).turn = t.turn) ∧
      (fieldOf x.ctrl0 0 0 = 0 → fieldOf x.ctrl1 0 0 = 1 → (v.trk[n]).cnt = 0 ∧ (v.trk[n]).rev = false ∧
        (v.trk[n]).valid = decide (s.trkType n = 0) ∧ (v.trk[n]).lineA =
          (s.enc[(Fin.ofNat 8 (s.get (TRK_CTRL.IFACE n)) : Fin 8)]).a)) ∧
    (idle → ∀ (ty iface : Fin 8) (srca : Word), ty ≠ 7 →
      s.busOk ag (TRK_CTRL.adr n) true = true →
      ∃ u, exec (.trkSourceChange ag n ty iface srca) s = .next u ∧ u.answer = some 0 ∧ u.trkType n = ty ∧
        u.get (TRK_CTRL.IFACE n) = iface ∧
        u.rd (TRK_SRCA.adr n) &&& srcaMask ty = srca &&& srcaMask ty) ∧
    (idle → ∀ mult : BitVec 7, Obligations.writes s ag (TRK_CTRL.adr n) (exec (.trkMultChange ag n mult) s) (fun u =>
      u.get (TRK_CTRL.MULT n) = mult.toNat ∧ u.trkEn n = s.trkEn n ∧ u.trkType n = s.trkType n ∧
      (s.get (TRK_CTRL.MULT n) ≠ mult.toNat → kept u)))

/-! ### Almanac -/

/-- R149, R150: how an entry re-arms at its commitment: MODE 0 clears its EN; 1 moves its threshold by its step in the
direction of the scan; 2 leaves it armed; 3 clears its EN and sets that of the entry it names, unless it names itself. A
read shows the entries as they were until the cycle is over.

R145 to R148, R152 to R155, R161, R164, R166, R168: the Almanac's commands. A track is scanned once in a cycle; one
that is not scanned keeps its frontier and queue; under HOLD the frontier follows the position; a scan with no entry in
its way moves the frontier to the position it has passed, and one that commits a crossing queues its firing first. A
firing leaves the queue when it is issued, counts in `ALM_FIRED`, and is issued at most once a cycle. `ALM_ARM` sets
or clears one entry's EN.

Rests on choices of the model: log entries 18, 74. -/
def Obligations.AlmanacCommands : Prop :=
  (∀ (s : State) (i : Nat) (rev : Bool),
    let w1 := s.almWord i 1
    let m := fieldOf w1 7 6
    let next := fieldOf w1 25 16
    let u := s.almRearm i rev
    let en (t : State) (j : Nat) : Bool := (t.almWord j 1).getLsbD 15
    i < 1024 → s.almc.cycle ≠ s.now →
    (m = 0 → en u i = false ∧ u.almWord i 0 = s.almWord i 0) ∧
    (m = 1 → u.almWord i 0 = (if rev then s.almWord i 0 - s.almWord i 2 else s.almWord i 0 + s.almWord i 2) ∧
      en u i = en s i) ∧
    (m = 2 → u = s) ∧
    (m = 3 → next = i → u = s) ∧
    (m = 3 → next ≠ i → en u i = false ∧ en u next = true) ∧
    (∀ j k, j ≠ i → (m = 3 → j ≠ next) → j < 1024 → k < 4 → u.almWord j k = s.almWord j k) ∧
    (∀ j k, j < 1024 → k < 4 → u.almRead (almAddr j k) = s.almWord j k) ∧ u.mem = s.mem) ∧
  (∀ (s : State) (ag : Agent) (n : TrackId),
    let a := s.alm[n]
    let t := s.trk[n]
    let moves (f : BitVec 48) (u : State) : Prop := (u.alm[n]).frontier = f ∧ (u.alm[n]).queue = a.queue ∧
      (u.alm[n]).scanned = some s.now ∧ (∀ j : TrackId, n ≠ j → u.alm[j] = s.alm[j]) ∧ u.trk = s.trk ∧ u.reg = s.reg ∧
      u.mem = s.mem
    let beyond (f : BitVec 48) : BitVec 48 := if (if t.rev then posGt f t.pos else posGt t.pos f) then t.pos else f
    (a.scanned = some s.now → exec (.almanacCommit n) s = .next s) ∧
    (a.scanned ≠ some s.now → s.takes blkALM = true → s.on (ALM_TRK_CFG.HOLD n) = true →
      ∃ u, exec (.almanacCommit n) s = .next u ∧ moves t.pos u) ∧
    (a.scanned ≠ some s.now → s.takes blkALM = false →
      ∃ u, exec (.almanacCommit n) s = .next u ∧ moves a.frontier u) ∧
    (a.scanned ≠ some s.now → (s.trkEn n = false ∨ t.valid = false ∨ t.lost = true) →
      s.on (ALM_TRK_CFG.HOLD n) = false → ∃ u, exec (.almanacCommit n) s = .next u ∧ moves a.frontier u) ∧
    (a.scanned ≠ some s.now → s.almScans n = true → s.commit = none → s.upset = [] →
      s.almCandidates n t.rev a.frontier = [] →
      ∃ u, exec (.almanacCommit n) s = .next u ∧ moves (beyond a.frontier) u) ∧
    (∀ d i l inst short, a.scanned ≠ some s.now → s.almScans n = true → s.commit = none → s.upset = [] →
      s.almCandidates n t.rev a.frontier = (d, i) :: l → a.queue.length < 16 →
      crossAt t.rev (posAhead t.rev a.frontier d) t.pos t.ovel.toInt 2 s.now = some (inst, short) →
      ∃ u rest, exec (.almanacCommit n) s = .next u ∧
        (u.alm[n]).queue = a.queue ++
          { t := inst, entry := i, tasks := (s.almTasks i).1, fork := (s.almTasks i).2 } :: rest ∧
        (l = [] → rest = [] ∧ (u.alm[n]).frontier = beyond (posAhead t.rev a.frontier d)) ∧
        (∀ j : TrackId, n ≠ j → u.alm[j] = s.alm[j]) ∧ u.trk = s.trk ∧ u.mem = s.mem) ∧
    (a.queue = [] → exec (.almanacFiringIssue n) s = .next s) ∧
    (∀ f, nextFiring a.queue = some f → s.runs blkALM = true → f.t / 16 ≤ s.now + 1 →
      (∀ i, a.lastIssue = some i → i < s.now) →
      let k := s.now - (f.t / 16 - 1)
      ∃ v w : State, (v.alm[n]).queue = a.queue.erase f ∧ (v.alm[n]).lastIssue = some s.now ∧
        v.rd ALM_FIRED.adr = s.rd ALM_FIRED.adr + 1 ∧ (∀ j : TrackId, n ≠ j → v.alm[j] = s.alm[j]) ∧ v.trk = s.trk ∧
        (k = 0 → w = v) ∧
        (k ≠ 0 → w = ((v.raise ALM_STAT.LATE).set ALM_LATEIDX.LIDX f.entry).signal 0x040) ∧
        exec (.almanacFiringIssue n) s = .next (match f.fork with
          | some g => w.raiseSrc g (some (f.t + 16 * k))
          | none => f.tasks.foldl (fun (w : State) task => w.almTask task (f.t + 16 * k)) w)) ∧
    (∀ (idx : EntryId) (set : Bool), Obligations.writes s ag ALM_ARM.adr (exec (.almArm ag idx set) s) (fun u =>
      (u.almWord idx 1).getLsbD 15 = set ∧ (∀ i : Nat, i < 32 → i ≠ 15 →
        (u.almWord idx 1).getLsbD i = (s.almWord idx 1).getLsbD i) ∧
      (∀ adr, adr ≠ almAddr idx 1 → u.rd adr = s.rd adr) ∧ u.alm = s.alm ∧ u.mem = s.mem)) ∧
    (s.runs blkALM = true → s.bit CPM_CLKEN.BLOCKS blkALM = true → (∀ j : TrackId, (s.alm[j]).queue = []) →
      ∃ u, exec .almanacClockStop s = .next u ∧ u.runs blkALM = false ∧ u.bit CPM_CLKEN.BLOCKS blkALM = false ∧
        u.trk = s.trk ∧ u.mem = s.mem))

/-! ### Event fabric and mailboxes -/

/-- R275, R278, R280, R282, R283: where a task goes. A reserved task sets BADTASK; a task of the always-on domain acts at
the second edge of BRC, or waits while BRC is stopped; an event-bit task arrives in the next cycle, where it sets its
bit, or when the bit is set already its overrun bit and its lost bit unless another set it in the same cycle; every
other task arrives in the next cycle with its instant.

R274, R277, R279, R286 to R288, R291, R292, R333: software events raise their signals in the next cycle; a push puts
its word at the end of its queue, or, when eight words wait, in place of the newest and sets the collision flag; a pop
takes the oldest word, or answers 0 and sets the underrun flag where there is none or it cannot be read; a doorbell that
rings already sets its overrun bit. A stopped block loses its clock.

Rests on choices of the model: log entries 12, 18, 19, 20, 72. -/
def Obligations.FabricAndMailboxes : Prop :=
  (∀ (s : State) (task : Nat) (inst : Option Nat) (c : Nat),
    let u := s.deliver task inst c
    let core := (task - 0xA0) / 8
    let k := task % 8
    let v := s.dueAct (.eventBit task)
    (0xD2 ≤ task → u = s.raise EVF_STAT.BADTASK) ∧
    (0xC0 ≤ task → task < 0xD2 → s.on APM_CLKSTAT.BRCRUN = false →
      u.aoWait = s.aoWait ++ [{ task := task, inst := none, cycle := c }] ∧ u.brcAt.isSome = true ∧ u.reg = s.reg) ∧
    (0xC0 ≤ task → task < 0xD2 → s.on APM_CLKSTAT.BRCRUN = true → u = s.later (s.brcSecond c) (.aoTask task)) ∧
    (0xA0 ≤ task → task < 0xC0 → u = s.later (c + 1) (.eventBit task)) ∧
    (0xA0 ≤ task → task < 0xC0 → s.bit (EVF_CORE_PEND.PEND core) k = false →
      v.bit (EVF_CORE_PEND.PEND core) k = true ∧ (∀ j, j < 8 → j ≠ k →
        v.bit (EVF_CORE_PEND.PEND core) j = s.bit (EVF_CORE_PEND.PEND core) j) ∧
      (∀ a, a ≠ EVF_CORE_PEND.adr core → v.rd a = s.rd a)) ∧
    (0xA0 ≤ task → task < 0xC0 → s.bit (EVF_CORE_PEND.PEND core) k = true →
      SMap.get (fun _ => 0) s.evtAt task ≠ s.now + 1 →
      v.bit (EVF_CORE_PEND.OVR core) k = true ∧ v.bit (EVF_TLOST.LOST (task / 32)) (task % 32) = true ∧
        v.bit (EVF_CORE_PEND.PEND core) k = true) ∧
    (task < 0xA0 → u = { s with arrived := s.arrived ++ [{ task := task, inst := inst, cycle := c + 1 }] })) ∧
  (∀ (s : State) (ag : Agent) (ch : ChanId) (host : Bool) (val : Word) (m16 : BitVec 16) (m8 : BitVec 8),
    let q := s.mbxQueue ch host
    let push := if host then MBX_HPUSH.adr ch else MBX_DPUSH.adr ch
    let pop := if host then MBX_HPOP.adr ch else MBX_DPOP.adr ch
    let coll := if host then MBX_STAT.HCOLL ch else MBX_STAT.DCOLL ch
    let under := if host then MBX_STAT.HUNDER ch else MBX_STAT.DUNDER ch
    let others (u : State) : Prop := u.mbxQueue ch (!host) = s.mbxQueue ch (!host) ∧
      (∀ j : ChanId, ch ≠ j → u.chan[j] = s.chan[j]) ∧ u.mem = s.mem
    let stopped (b : Nat) (u : State) : Prop :=
      u.runs b = false ∧ u.bit CPM_CLKEN.BLOCKS b = false ∧ u.chan = s.chan ∧ u.mem = s.mem
    Obligations.writes s ag EVF_SWEV.adr (exec (.evfSwev ag m16) s) (fun u =>
      u = { (forNat (fun n (t : State) =>
        if m16.getLsbD n then t.later (s.now + 1) (.signal (0x1D0 + n)) else t) 16 s) with answer := some 0 }) ∧
    Obligations.writes s ag EVF_AO_SWEV.adr (exec (.evfAoSwev ag m8) s) (fun u =>
      u = { (forNat (fun n (t : State) => if m8.getLsbD n then t.aoSignal (0x1C0 + n) else t) 8 s) with
        answer := some 0 }) ∧
    Obligations.writes s ag push (exec (.mbxPush ag ch host val) s) (fun u => others u ∧
      (q.length < 8 → u.mbxQueue ch host = q ++ [val]) ∧
      (8 ≤ q.length → u.mbxQueue ch host = q.dropLast ++ [val] ∧ u.get coll = 1)) ∧
    (∀ w l, q = w :: l → s.upset = [] →
      Obligations.reads s ag pop (exec (.mbxPop ag ch host) s) w (fun u => others u ∧ u.mbxQueue ch host = l ∧
        u.reg = s.reg)) ∧
    (∀ w l, q = w :: l → s.spoilt (mbxCell ch host) = true →
      Obligations.reads s ag pop (exec (.mbxPop ag ch host) s) 0 (fun u => others u ∧ u.mbxQueue ch host = l ∧
        u.get under = 1)) ∧
    (q = [] → Obligations.reads s ag pop (exec (.mbxPop ag ch host) s) 0 (fun u => others u ∧
      u.mbxQueue ch host = [] ∧ u.get under = 1)) ∧
    Obligations.writes s ag MBX_BELL_SET.adr (exec (.doorbellRing ag val) s) (fun u => u.chan = s.chan ∧
      ∀ n, n < 32 → u.bit MBX_BELL.BELL n = (s.bit MBX_BELL.BELL n || val.getLsbD n) ∧
        u.bit MBX_BELL_OVR.OVR n = (s.bit MBX_BELL_OVR.OVR n || (s.bit MBX_BELL.BELL n && val.getLsbD n))) ∧
    (s.bit CPM_CLKEN.BLOCKS blkEVF = true → ∃ u, exec .evfClockStop s = .next u ∧ stopped blkEVF u) ∧
    (s.bit CPM_CLKEN.BLOCKS blkMBX = true → ∃ u, exec .mbxClockStop s = .next u ∧ stopped blkMBX u))

/-! ### Converters and comparators -/

/-- R170 to R173, R176, R179, R180, R187, R188, R281: with no task waiting the sampling and sequence commands change
nothing. A sampling task that finds its enabled, task-started converter free samples at its instant, or at the start of
the next cycle when that has passed, which sets LATE; a busy converter drops it and sets TASKOVR. A free-running
converter samples once in an even cycle. A step takes the channel at POS, a rewind the first.

Rests on choices of the model: log entries 18, 74, 82. -/
def Obligations.ConverterSampling : Prop :=
  ∀ (s : State) (n : CvId),
    let c := s.cv[n]
    let auto := s.on (CV_SEQ.AUTO n)
    let sampled (u : State) (t : Nat) : Prop := (u.cv[n]).flight = c.flight ++
        [{ inst := t, tag := s.chNow n, ain := ainOf n (s.chNow n), gain := s.get (CV_CFG.GAIN n),
           trim := s.getInt (CV_TRIM.OFFS n), tail := false }] ∧
      (∀ j : CvId, n ≠ j → u.cv[j] = s.cv[j]) ∧ u.mem = s.mem
    ((∀ a ∈ s.arrived, a.task ≠ n) → exec (.cvSampleTask n) s = .next s) ∧
    (∀ a : Arrival, s.arrived = [a] → a.task = n → a.cycle ≤ s.now → s.cvEn n = true →
      s.on (CV_CFG.MODE n) = false → s.get (CV_CFG.BURST n) = 0 → auto = false →
      let x := sampleAt a.inst a.cycle
      (¬ (c.busyFrom ≤ x.1 ∧ x.1 < c.busyTo) → x.1 / 16 ≤ s.now →
        ∃ u, exec (.cvSampleTask n) s = .next u ∧ sampled u x.1 ∧ (u.cv[n]).busyFrom = x.1 ∧
          (u.cv[n]).busyTo = x.1 + 32 ∧ (x.2 = true → u.get (CV_STAT.LATE n) = 1) ∧ u.arrived = []) ∧
      (c.busyFrom ≤ x.1 → x.1 < c.busyTo →
        ∃ u, exec (.cvSampleTask n) s = .next u ∧ u.cv = s.cv ∧ u.get (CV_STAT.TASKOVR n) = 1 ∧ u.arrived = [])) ∧
    (s.cvEn n = true → s.on (CV_CFG.MODE n) = true → s.evenPhase s.now = true → c.lastFree ≠ some s.now →
      auto = false →
      ∃ u, exec (.cvFreeRunSample n) s = .next u ∧ sampled u (16 * s.now) ∧ (u.cv[n]).lastFree = some s.now ∧
        u.reg = s.reg) ∧
    (s.cvEn n = true → s.on (CV_CFG.MODE n) = true → s.evenPhase s.now = false →
      exec (.cvFreeRunSample n) s = .next ((s.reach (s.now + 1)).cvFreeNow n)) ∧
    ((s.cvEn n = false ∨ s.on (CV_CFG.MODE n) = false) → exec (.cvFreeRunSample n) s = .next s) ∧
    (∀ a : Arrival, s.arrived = [a] → a.task = 0x18 + n → a.cycle ≤ s.now → s.cvEn n = true →
      c.rewound ≠ some s.now → c.advanced ≠ some s.now → c.selWritten ≠ some s.now →
      ∃ u, exec (.cvStepTask n) s = .next u ∧ u.get (CV_SEL.CH n) = s.seqEntry n (s.get (CV_STAT.POS n)) ∧
        u.get (CV_STAT.POS n) = (s.get (CV_STAT.POS n) + 1) % s.seqLen n ∧ (u.cv[n]).flight = c.flight) ∧
    (∀ a : Arrival, s.arrived = [a] → a.task = 0x30 + n → a.cycle ≤ s.now → s.cvEn n = true →
      c.selWritten ≠ some s.now →
      ∃ u, exec (.cvRewindTask n) s = .next u ∧ u.get (CV_SEL.CH n) = s.seqEntry n 0 ∧
        u.get (CV_STAT.POS n) = 1 % s.seqLen n ∧ (u.cv[n]).sumN = 0 ∧ (u.cv[n]).flight = c.flight)

/-- R174, R175, R180 to R184, R187: the oldest sample in flight is delivered 15 cycles after its cycle: its code at the
converter's gain, limited to the range, plus its trim, saturated to 12 bits, in the raw slot, which keeps a mark when its
old result had not been taken; then its consumers get it. A read of `CVn_DATA` shows the raw slot while no averaging is
set, and takes it. A disabled converter marks its samples in flight as the tail.

Rests on choices of the model: log entries 12, 18, 76. -/
def Obligations.ConverterResults : Prop :=
  ∀ (s : State) (ag : Agent) (n : CvId) (input : Int) (ch : Fin 8),
    let c := s.cv[n]
    (c.flight = [] → exec (.resultDelivered n input) s = .next s) ∧
    (∀ x rest, c.flight = x :: rest → x.inst / 16 + 15 ≤ s.now →
      let u := s.modCv n (fun c => { c with flight := rest })
      let code := max (-2048) (min 2047 (input * 2 ^ x.gain / 8))
      let v := max (-2048) (min 2047 (code + x.trim))
      let missed := notTaken c.raw
      let got : CvResult := { val := v, tag := x.tag, ovr := missed, avg := false, tail := x.tail, inst := x.inst,
                              taken := u.usedNow n x.tag false }
      ∃ w y : State, (w.cv[n]).raw = some got ∧ (w.cv[n]).flight = rest ∧
        (∀ j : CvId, n ≠ j → w.cv[j] = u.cv[j]) ∧ (missed = false → w.reg = u.reg) ∧
        y = ((((w.signal (0x048 + n)).grnRaw n x.inst (bitsOf 12 v).toNat x.tag missed).toSlices n false x.tag v
          x.inst).trackResult n x.tag v x.inst) ∧
        exec (.resultDelivered n input) s = .next ((if x.tail then y else y.average n x.tag v x.inst).plausible n
          { inst := x.inst, tag := x.tag, val := v })) ∧
    Obligations.writes s ag (CV_SEL.adr n) (exec (.cvSelWrite ag n ch) s) (fun u => u.get (CV_SEL.CH n) = ch ∧
      (u.cv[n]).selWritten = some s.now ∧ (∀ j : CvId, n ≠ j → u.cv[j] = s.cv[j])) ∧
    (s.get (CV_AVG.K n) = 0 → c.raw = none → Obligations.reads s ag (CV_DATA.adr n) (exec (.cvDataRead ag n) s) 0
      (fun u => u.cv = s.cv ∧ u.reg = s.reg)) ∧
    (∀ r, s.get (CV_AVG.K n) = 0 → c.raw = some r → r.tag < 8 → s.busOk ag (CV_DATA.adr n) false = true →
      ∃ (u : State) (w : Word), exec (.cvDataRead ag n) s = .next u ∧ u.answer = some w ∧
        w.toNat % 65536 = (BitVec.ofInt 16 r.val).toNat ∧ w.toNat / 65536 % 8 = r.tag ∧ w.getLsbD 28 = !r.taken ∧
        w.getLsbD 29 = r.tail ∧ w.getLsbD 30 = r.avg ∧ w.getLsbD 31 = r.ovr ∧
        (u.cv[n]).raw = some { r with taken := true } ∧ u.reg = s.reg) ∧
    ((∀ p, p < 32 → s.pairState p ≠ pRun) → Obligations.writes s ag (CV_CFG.adr n) (exec (.cvDisable ag n) s) (fun u =>
      u.get (CV_CFG.EN n) = 0 ∧ (s.get (CV_CFG.EN n) = 1 → (∀ x ∈ (u.cv[n]).flight, x.tail = true) ∧
        (u.cv[n]).flight.length = c.flight.length)))

/-- R194 to R197: a comparator that is disabled only keeps its level. One that is enabled and not held follows its
thresholds with their hysteresis: its synchronised outputs change at once, and pass to the matrix and the fabric at once
without a filter, else each when it has held its value for the filter's time; while BLANK is 1 the outputs are held, and
25 cycles after the hold began they are released.

Rests on choices of the model: log entries 18, 74, 76. -/
def Obligations.Comparators : Prop :=
  ∀ (s : State) (m : CmpId) (level : Int),
    let c := s.cmp[m]
    let code (d : Int) : Int := 4 * d - 2048
    let hi : Int := s.get (CMP_THR.HI m)
    let lo : Int := s.get (CMP_THR.LO m)
    let hy : Int := s.get (CMP_CFG.HYST m)
    let above := if c.anaAbove then decide (code (hi - hy) ≤ level) else decide (code hi < level)
    let below := if c.anaBelow then decide (level ≤ code (lo + hy)) else decide (level < code lo)
    let a0 := s.on (CMP_STAT.ABOVE m)
    let b0 := s.on (CMP_STAT.BELOW m)
    let settled : Prop := c.outAbove = a0 ∧ c.outBelow = b0 ∧ c.outOutside = (a0 || b0)
    let filt := s.get (CMP_CFG.FILT m)
    let input : Fin 64 := Fin.ofNat 64 (m + 32 * s.get (CMP_CFG.INSEL m))
    let kept (u : State) : Prop := u.ain = s.ain.set input level ∧ (u.cmp[m]).outAbove = c.outAbove ∧
      (u.cmp[m]).outBelow = c.outBelow ∧ (u.cmp[m]).outOutside = c.outOutside ∧
      (∀ j : CmpId, m ≠ j → u.cmp[j] = s.cmp[j]) ∧ u.mem = s.mem
    (s.cmpEn m = false →
      ∃ u, exec (.comparatorInputChange m level) s = .next u ∧ kept u ∧ u.cmp = s.cmp ∧ u.reg = s.reg) ∧
    (s.cmpEn m = true → s.on (CMP_STAT.BLANK m) = true →
      ∃ u, exec (.comparatorInputChange m level) s = .next u ∧ kept u ∧ u.reg = s.reg ∧
        (u.cmp[m]).anaAbove = above ∧ (u.cmp[m]).anaBelow = below) ∧
    (s.cmpEn m = true → s.on (CMP_STAT.BLANK m) = false → settled → filt ≠ 0 →
      ∃ u, exec (.comparatorInputChange m level) s = .next u ∧ kept u ∧
        (u.cmp[m]).anaAbove = above ∧ (u.cmp[m]).anaBelow = below ∧ u.on (CMP_STAT.ABOVE m) = above ∧
        u.on (CMP_STAT.BELOW m) = below ∧ (above = true → a0 = false → u.get (CMP_STAT.ABOVESEEN m) = 1) ∧
        (∀ a, a ≠ CMP_STAT.adr m → u.rd a = s.rd a)) ∧
    (s.cmpEn m = true → s.on (CMP_STAT.BLANK m) = false → settled → filt = 0 →
      ∃ u, exec (.comparatorInputChange m level) s = .next u ∧ u.ain = s.ain.set input level ∧
        (u.cmp[m]).outAbove = above ∧ (u.cmp[m]).outBelow = below ∧ (u.cmp[m]).outOutside = (above || below)) ∧
    (settled → exec (.comparatorFilterExpiry m) s = .next s) ∧
    (∀ k, s.cmpPassAt m = some k → exec (.comparatorFilterExpiry m) s = .next ((s.reach k).cmpPass m)) ∧
    (s.cmpEn m = true →
      let outside := if c.sinceOutside + filt ≤ s.now then a0 || b0 else c.outOutside
      ∃ v : State, (v.cmp[m]).outAbove = (if c.sinceAbove + filt ≤ s.now then a0 else c.outAbove) ∧
        (v.cmp[m]).outBelow = (if c.sinceBelow + filt ≤ s.now then b0 else c.outBelow) ∧
        (v.cmp[m]).outOutside = outside ∧ v.reg = s.reg ∧
        s.cmpPass m = (if outside && !c.outOutside then v.signal (0x0A0 + m)
          else if c.outOutside && !outside then v.signal (0x0C0 + m) else v)) ∧
    (s.on (CMP_STAT.BLANK m) = false → exec (.comparatorBlankEnd m) s = .next s) ∧
    (s.on (CMP_STAT.BLANK m) = true → c.blankAt + 25 ≤ s.now →
      exec (.comparatorBlankEnd m) s = .next ((s.set (CMP_STAT.BLANK m) 0).cmpEval m)) ∧
    (s.on (CMP_STAT.BLANK m) = true → s.now < c.blankAt + 25 →
      exec (.comparatorBlankEnd m) s = .next ((s.reach (c.blankAt + 25)).cmpDue m))

/-! ### Loop slices -/

/-- R201 to R203, R220, R228, R230, R231, R234, R236 to R238: the commands of a slice. A trigger that waits starts its
run; the period timer triggers when it expires, or the trigger is dropped; a reference write leaves the last value for
its parameter, unless a switch of the same cycle has overruled it; IZERO and the zero-integrators task ask for the next
run start; clearing TWIN and an effective enable zero the working registers, the integrators and the energy; an enable
while a named pair is armed only sets CDREF; a disable abandons the run, and in the next cycle the slice's pairs leave
RUN.

Rests on choices of the model: log entries 12, 18, 31. -/
def Obligations.SliceCommands : Prop :=
  ∀ (s : State) (ag : Agent) (n : SliceId) (k : Fin 32) (val : Word) (mask : BitVec 8),
    let x := s.slc[n]
    let zeroed (u : State) : Prop := (u.slc[n]).w = Vector.replicate 16 0 ∧ (u.slc[n]).energy = 0 ∧
      (u.slc[n]).opens = s.now + 1 ∧ ∀ j, j < 8 → u.rd (SLC_INT.adr n j) = 0
    let others (u : State) : Prop := (∀ j : SliceId, n ≠ j → u.slc[j] = s.slc[j]) ∧ u.mem = s.mem
    let timer := x.timerFrom + x.timerPer
    let overruled : Prop := x.switched.1 = s.now ∧ x.switched.2.contains k.val = true
    ((∀ a ∈ s.arrived, a.task ≠ 0x48 + n) → x.trigs = [] → exec (.sliceRunStart n) s = .next (s.slcCycle n)) ∧
    (∀ t, x.trigs = [t] → s.slcMode n ≠ 2 → s.upset = [] → ∃ u, exec (.sliceRunStart n) s = .next u ∧
      (u.slc[n]).trigs = [] ∧ u.rd (SLC_RUNS.adr n) = s.rd (SLC_RUNS.adr n) + 1 ∧
      u.get (SLC_STAT.APROG n) = s.get (SLC_CTRL.PROG n) ∧
      (∀ p ∈ (u.slc[n]).ports.toList, p.fresh = false ∧ p.sum = 0 ∧ p.cnt = 0) ∧ others u) ∧
    ((s.slcMode n ≠ 2 ∨ s.on (SLC_CTRL.EN n) = false ∨ s.takes blkSLC = false) →
      exec (.slicePeriodTimer n) s = .next s) ∧
    (s.slcMode n = 2 → s.on (SLC_CTRL.EN n) = true → s.takes blkSLC = true →
      (timer ≤ s.now → s.trigOk n = true → ∃ v, exec (.slicePeriodTimer n) s = .next v ∧
        (v.slc[n]).trigs = x.trigs ++ [{ inst := 16 * s.now, cycle := s.now }] ∧
        (v.slc[n]).timerFrom = s.now ∧ (v.slc[n]).timerPer = max 625 (s.get (SLC_PER.PER n)) ∧ v.reg = s.reg) ∧
      (timer ≤ s.now → s.trigOk n = false → ∃ v, exec (.slicePeriodTimer n) s = .next v ∧
        (v.slc[n]).trigs = x.trigs ∧ (v.slc[n]).timerFrom = s.now ∧ (s.runs blkSLC = true →
          v.get (SLC_STAT.TRGOVR n) = 1)) ∧
      (s.now < timer → exec (.slicePeriodTimer n) s = .next ((s.reach timer).timerDue n))) ∧
    Obligations.writes s ag (SLC_STAT.adr n) (exec (.twinClear ag n) s) (fun u => others u ∧
      (s.get (SLC_STAT.TWIN n) = 1 → s.clearable (SLC_STAT.TWIN n) = true → u.get (SLC_STAT.TWIN n) = 0 ∧ zeroed u) ∧
      ((s.get (SLC_STAT.TWIN n) = 0 ∨ s.clearable (SLC_STAT.TWIN n) = false) →
        u.slc = s.slc ∧ u.get (SLC_STAT.TWIN n) = s.get (SLC_STAT.TWIN n))) ∧
    ((∀ r ∈ x.refs, r.k = k.val → r.cycle < s.now) → ¬ overruled →
      Obligations.writes s ag (SLC_REF.adr n k) (exec (.slcRefWrite ag n k val) s) (fun u => others u ∧
        (u.slc[n]).refs = x.refs.filter (fun r => r.k != k.val) ++
          [{ k := k.val, val := val, cycle := s.now, rank := refRank ag }] ∧ u.reg = s.reg ∧ u.bank = s.bank)) ∧
    (overruled → Obligations.writes s ag (SLC_REF.adr n k) (exec (.slcRefWrite ag n k val) s) (fun u =>
      u.slc = s.slc ∧ u.get (SLC_STAT.REFCOL n) = 1 ∧ u.mem = s.mem)) ∧
    Obligations.writes s ag (SLC_CMD.adr n) (exec (.slcIzero ag n mask) s) (fun u => others u ∧
      (u.slc[n]).izeros = (if mask = 0 then x.izeros else x.izeros ++ [(mask.toNat, s.now)])) ∧
    Obligations.writes s ag (SLC_CMD.adr n) (exec (.slcInj ag n) s) (fun u => others u ∧
      (s.slcDisarmed n = true → (u.slc[n]).inject = true) ∧
      (s.slcDisarmed n = false → u.slc = s.slc ∧ u.get (SLC_STAT.CDREF n) = 1)) ∧
    ((∀ a ∈ s.arrived, a.task ≠ 0x58 + n) → exec (.slcZeroIntegratorsTask n) s = .next s) ∧
    (∀ a : Arrival, s.arrived = [a] → a.task = 0x58 + n → a.cycle ≤ s.now → s.runs blkSLC = true →
      ∃ v, exec (.slcZeroIntegratorsTask n) s = .next v ∧ (v.slc[n]).izeros = x.izeros ++ [(255, s.now)] ∧
        v.reg = s.reg ∧ others v) ∧
    Obligations.writes s ag (SLC_CTRL.adr n) (exec (.slcEnable ag n) s) (fun u => others u ∧
      (s.on (SLC_CTRL.EN n) = false → s.slcDisarmed n = true → u.get (SLC_CTRL.EN n) = 1 ∧ zeroed u ∧
        (u.slc[n]).timerFrom = s.now) ∧
      (s.on (SLC_CTRL.EN n) = false → s.slcDisarmed n = false → u.get (SLC_CTRL.EN n) = 0 ∧ u.slc = s.slc ∧
        u.get (SLC_STAT.CDREF n) = 1) ∧
      (s.on (SLC_CTRL.EN n) = true → u.slc = s.slc ∧ u.get (SLC_CTRL.EN n) = 1)) ∧
    Obligations.writes s ag (SLC_CTRL.adr n) (exec (.slcDisable ag n) s) (fun u => others u ∧
      u.get (SLC_CTRL.EN n) = 0 ∧ (s.on (SLC_CTRL.EN n) = true → (u.slc[n]).trigs = [] ∧
        (u.slc[n]).stopAt = s.now + 2 ∧ (x.periodEnd ≠ s.now → (u.slc[n]).run = none) ∧
        u.dues = s.dues ++ [{ cycle := s.now + 1, act := .slcSafe n }])) ∧
    ((s.slcSafe n).get (SLC_STAT.OFFSAFE n) = 1 ∧
      ∀ p ∈ s.slcPairs n, s.pairState p = pRun → (s.slcSafe n).pairState p = pSafe) ∧
    (∀ (prog : Fin 8) (uop : Fin 32) (w : Fin 2),
      Obligations.writes s ag (storeAddr n prog uop w) (exec (.slcProgramStoreWrite ag n prog uop w val) s) (fun u =>
        others u ∧ (s.on (SLC_CTRL.EN n) = true → u.rd (storeAddr n prog uop w) = s.rd (storeAddr n prog uop w) ∧
          u.get (SLC_STAT.CDREF n) = 1))) ∧
    ((∀ p, p < 32 → s.pairState p ≠ pRun) → s.on (SLC_CTRL.EN n) = false → ∀ (prog : Fin 8) (uop : Fin 32) (w : Fin 2),
      let bits : Word := if w = 0 then 0xFFFFFFC0#32 else 0xFFFF0000#32
      Obligations.writes s ag (storeAddr n prog uop w) (exec (.slcProgramStoreWrite ag n prog uop w val) s) (fun u =>
        u.rd (storeAddr n prog uop w) &&& bits = val &&& bits ∧
        ∀ a, a ≠ storeAddr n prog uop w → u.rd a = s.rd a)) ∧
    Obligations.reads s ag (SLC_ENERGY_LO.adr n) (exec (.slcEnergyRead ag n) s) (x.energy.setWidth 32) (fun u =>
      others u ∧ (u.slc[n]).eLatch[(partyOf ag).core] = (x.energy >>> 32).setWidth 32 ∧
      (u.slc[n]).energy = x.energy ∧ u.reg = s.reg)

/-- R209, R213: results of micro-ops on a run: the words of an operation are computed exactly, rounded to the nearest,
saturated to 32 bits, which alone marks saturation, and written to their working register; each costs one cycle.

Rests on choices of the model: log entries 28, 29. -/
def Obligations.MicroOps : Prop :=
  ∀ (r : Run) (d a b : Nat) (w0 w1 : Word), d < 16 → fieldOf w0 25 21 = d → fieldOf w0 20 16 = a →
    fieldOf w0 15 11 = b →
    let x := (r.operand a).toInt
    let y := (r.operand b).toInt
    let p := (r.par (fieldOf w1 31 27)).toInt
    let clamp (z : Int) : Int := max (-(2 ^ 31)) (min (2 ^ 31 - 1) z)
    let gives (op : Nat) (z : Int) : Prop := fieldOf w0 31 26 = op →
      let q := r.op w0 w1
      q.wd d = BitVec.ofInt 32 (clamp z) ∧ (z ≠ clamp z ↔ q.sat = true) ∧ opCost w0 = 1 ∧ q.wrote = true ∧
      (∀ j, j ≠ d → q.wd j = r.wd j) ∧ q.ints = r.ints ∧ q.energy = r.energy ∧ q.cset = r.cset ∧ q.done = r.done
    gives 0x01 x ∧ gives 0x02 (x + y) ∧ gives 0x03 (x - y) ∧ gives 0x04 (roundDiv (x * y) (2 ^ 30)) ∧
    gives 0x06 p ∧ gives 0x07 (x + p) ∧ gives 0x08 (roundDiv (x * p) (2 ^ 30)) ∧
    gives 0x0A (if 0 ≤ (r.operand (fieldOf w0 10 6)).toInt then x else y)

/-! ### Gate outputs and trip matrix -/

/-- R245 to R250, R254, R258, R263, R271: the events of the gate outputs. A pair is scanned once in a cycle, as its mode
says, and in carrier mode a track that is no clock track sets CARERR; an edge changes the command at its instant, and
the output that it turns on waits for the dead time; a task starts a pulse of a pair in direct mode; a TRIPIN pin counts
as active when it has held its active level for its filter.

Rests on choices of the model: log entries 18, 26, 27. -/
def Obligations.GateEvents : Prop :=
  ∀ (s : State) (p : PairId) (j : Fin 4) (level : Bool),
    let q := s.pair[p]
    let n := s.pairTrack p
    let dead := s.get (GOU_PAIR_DEAD.TIME p)
    let carrier : Prop := s.gMode p = gmCarrier
    let once (u : State) : State := u.modPair p (fun q => { q with scanned := some s.now })
    (q.scanned = some s.now → exec (.pairCrossingCommit p) s = .next s) ∧
    (q.scanned ≠ some s.now → s.pairScans p = false → ¬ (carrier ∧ s.trkType n ≠ 0) →
      exec (.pairCrossingCommit p) s = .next s) ∧
    (q.scanned ≠ some s.now → carrier → s.trkType n ≠ 0 → s.fastUp = true → s.runs blkGOU = true →
      exec (.pairCrossingCommit p) s = .next (s.raise (GOU_PAIR_STAT.CARERR p))) ∧
    (q.scanned ≠ some s.now → s.pairScans p = true →
      (s.gMode p = gmDirect → exec (.pairCrossingCommit p) s = .next (once s)) ∧
      (carrier → s.trkType n = 0 → exec (.pairCrossingCommit p) s = .next (State.carrierScan p n 2 (once s))) ∧
      (s.gMode p = gmPattern → exec (.pairCrossingCommit p) s = .next ((once s).patternScan p n))) ∧
    (q.edges = [] → q.owed = none → exec (.edgePlacement p) s = .next s) ∧
    (∀ t h, q.edges = [] → q.owed = some (t, h) → t / 16 ≤ s.now →
      ∃ v, exec (.edgePlacement p) s = .next v ∧ (v.pair[p]).owed = none ∧ v.reg = s.reg ∧
        (h = true → (v.pair[p]).hi = true ∧ (v.pair[p]).lo = q.lo) ∧
        (h = false → (v.pair[p]).lo = true ∧ (v.pair[p]).hi = q.hi)) ∧
    (∀ e, q.edges = [e] → q.owed = none → q.lastT = none → e.lvl ≠ s.on (GOU_PAIR_STAT.HCMD p) → e.t / 16 ≤ s.now →
      dead ≠ 0 →
      ∃ u : State, exec (.edgePlacement p) s = .next (u.grnEdge p e.t e.lvl) ∧
        u.get (GOU_PAIR_STAT.HCMD p) = (if e.lvl then 1 else 0) ∧ (u.pair[p]).edges = [] ∧
        (u.pair[p]).lastT = some e.t ∧
        (e.lvl = true → (u.pair[p]).lo = false ∧ (u.pair[p]).hi = q.hi ∧ (u.pair[p]).owed = some (e.t + dead, true)) ∧
        (e.lvl = false → (u.pair[p]).hi = false ∧ (u.pair[p]).lo = q.lo ∧
          (u.pair[p]).owed = if s.on (GOU_PAIR_CFG.LSMODE p) then none else some (e.t + dead, false)) ∧
        (∀ i : PairId, p ≠ i → u.pair[i] = s.pair[i])) ∧
    (∀ e, q.edges = [e] → q.owed = none → q.lastT = none → e.lvl ≠ s.on (GOU_PAIR_STAT.HCMD p) → s.now < e.t / 16 →
      exec (.edgePlacement p) s = .next ((s.reach (e.t / 16)).placeOne p).2) ∧
    ((∀ a ∈ s.arrived, a.task ≠ 0x68 + p) → exec (.directPulseStart p) s = .next s) ∧
    (∀ a : Arrival, s.arrived = [a] → a.task = 0x68 + p → a.cycle ≤ s.now →
      let t := a.inst.getD (16 * a.cycle)
      let w := (s.rd (GOU_PAIR_WORD.adr p)).toNat
      s.runs blkGOU = true → s.pairState p = pRun → s.gMode p = gmDirect → q.pulse = none → w ≠ 0 →
      ∃ v : State, exec (.directPulseStart p) s = .next (v.signal (0x160 + p)) ∧
        (v.pair[p]).edges = q.edges ++ [{ t := t, lvl := true }, { t := t + w, lvl := false }] ∧
        (v.pair[p]).pulse = some t ∧ v.reg = s.reg) ∧
    ((s.tripin[j]).level = level → exec (.tripinPinChange j level) s = .next s) ∧
    ((s.tripin[j]).level ≠ level →
      let cfg := s.rd GOU_TRIN_CFG.adr
      ∃ u : State, exec (.tripinPinChange j level) s = .next u ∧ u.tripin[j] = { level := level, since := s.now } ∧
        (∀ i : Fin 4, j ≠ i → u.tripin[i] = s.tripin[i]) ∧ u.reg = s.reg ∧ u.pair = s.pair ∧
        u.pinActive j = (cfg.getLsbD (8 * j + 7) && (level != cfg.getLsbD (8 * j + 6)) &&
          decide (fieldOf cfg (8 * j + 3) (8 * j) = 0))) ∧
    ((∀ i, i < 32 → s.pairState i = pOff) → s.bit CPM_CLKEN.BLOCKS blkGOU = true →
      ∃ u, exec .gouClockStop s = .next u ∧ u.runs blkGOU = false ∧ u.pair = s.pair ∧ u.mem = s.mem)

/-- R243, R244, R267: arming, disarming and clearing. A named pair that is not in RUN asks to be armed, and in the next
cycle, from Field without a latched trip, it is in RUN with both outputs inactive and its word and trim 0; otherwise
ARMREF is set. A disarm in RUN discards the pair's edges, and two cycles later its outputs are inactive; it drops an arm
request of its cycle. A latched trip clears when its cause has gone.

R262, R264, R265, R266: an asserted input that shares a group with a pair calls for a trip on it, with a code at most
its own. A trip is latched with its cause on a pair that has none; a pair in RUN goes to SAFE, its committed edges are
discarded, and one cycle later its outputs take their safe state; a pair in OFF or SAFE stays there.

Rests on choices of the model: log entry 26. -/
def Obligations.ArmingAndTrips : Prop :=
  (∀ (s : State) (ag : Agent) (mask : Word) (p : PairId),
    let named := mask.getLsbD p
    let st := s.pairState p
    let q := s.pair[p]
    let tripped := s.on (GOU_PAIR_STAT.TRIP p)
    Obligations.writes s ag GOU_ARMREQ.adr (exec (.gouArmreq ag mask) s) (fun u => u.mem = s.mem ∧ u.reg = s.reg ∧
      (named = true → st ≠ pRun → q.disarmAt ≠ some s.now →
        u.pair[p] = { q with ask := some (s.mode == mField && !tripped) }) ∧
      ((named = false ∨ st = pRun ∨ q.disarmAt = some s.now) → u.pair[p] = q)) ∧
    (q.ask = some true →
      let u := s.armPairs
      u.pairState p = pRun ∧ (u.pair[p]).hi = false ∧ (u.pair[p]).lo = false ∧ (u.pair[p]).edges = [] ∧
      (u.pair[p]).owed = none ∧ (u.pair[p]).ask = none ∧ u.rd (GOU_PAIR_WORD.adr p) = 0 ∧
      u.rd (GOU_PAIR_TRIM.adr p) = 0 ∧ u.get (GOU_PAIR_STAT.HCMD p) = 0 ∧ (u.pair[p]).frontier = s.phi p) ∧
    (q.ask = some false → s.armRefuse.get GOU_GEN.ARMREF = 1 ∧ s.armPairs.pairState p = st ∧
      s.armPairs.pair[p] = { q with ask := none }) ∧
    Obligations.writes s ag GOU_DISARM.adr (exec (.gouDisarm ag mask) s) (fun u => u.mem = s.mem ∧
      (named = true → (u.pair[p]).ask = none ∧ (u.pair[p]).disarmAt = some s.now ∧
        (u.pair[p]).hi = q.hi ∧ (u.pair[p]).lo = q.lo) ∧
      (named = true → st = pRun → u.pairState p = pOff ∧ (u.pair[p]).edges = [] ∧ (u.pair[p]).owed = none ∧
        u.get (GOU_PAIR_STAT.HCMD p) = 0 ∧ ({ cycle := s.now + 2, act := .outsOff p } : Due) ∈ u.dues) ∧
      (named = true → st = pSafe → tripped = false → u.pairState p = pSafe ∧
        ({ cycle := s.now + 2, act := .offState p } : Due) ∈ u.dues) ∧
      ((named = false ∨ st ≠ pRun) → u.pairState p = st) ∧ (named = false → u.pair[p] = q)) ∧
    (let u := s.dueAct (.outsOff p)
     (u.pair[p]).hi = false ∧ (u.pair[p]).lo = false ∧ u.reg = s.reg) ∧
    (st = pSafe →
      let u := s.dueAct (.offState p)
      u.pairState p = pOff ∧ (u.pair[p]).hi = false ∧ (u.pair[p]).lo = false) ∧
    Obligations.writes s ag GOU_TRIPCLR.adr (exec (.gouTripclr ag mask) s) (fun u => u.pair = s.pair ∧ u.mem = s.mem ∧
      u.pairState p = st ∧
      (named = true → tripped = true → s.causeGone p = true →
        u.get (GOU_PAIR_STAT.TRIP p) = 0 ∧ u.get (GOU_PAIR_STAT.CAUSE p) = 0xFF) ∧
      ((named = false ∨ s.causeGone p = false) → u.get (GOU_PAIR_STAT.TRIP p) = s.get (GOU_PAIR_STAT.TRIP p)))) ∧
  (∀ (s : State) (p : PairId) (c : Nat), c < 256 →
    let dead := s.get (GOU_PAIR_DEAD.TIME p)
    let safe := s.get (GOU_PAIR_CFG.SAFE p)
    let q := s.pair[p]
    let v := s.dueAct (.safeOut p)
    (∀ i, i < 67 → s.fastUp = true → s.inputLevel i = true → s.routeOf i &&& s.get (GOU_PAIR_CFG.GRP p) ≠ 0 →
      ∃ k, k ≤ i ∧ (p, k) ∈ s.tripList) ∧
    (∃ u : State, s.latchTrip p c = u.signal (0x140 + p) ∧ u.get (GOU_PAIR_STAT.TRIP p) = 1 ∧
      u.get (GOU_PAIR_STAT.CAUSE p) = c ∧ (u.pair[p]).hi = q.hi ∧ (u.pair[p]).lo = q.lo ∧
      (s.pairState p = pRun → u.pairState p = pSafe ∧ u.get (GOU_PAIR_STAT.HCMD p) = 0 ∧ (u.pair[p]).edges = [] ∧
        (u.pair[p]).owed = none ∧ ({ cycle := s.now + 1, act := .safeOut p } : Due) ∈ u.dues) ∧
      (s.pairState p ≠ pRun → u.pairState p = s.pairState p ∧ u.pair[p] = q) ∧
      (∀ j : PairId, p ≠ j → u.pair[j] = s.pair[j]) ∧ u.mem = s.mem) ∧
    (s.pairState p = pSafe →
      (safe ≠ 1 → safe ≠ 2 → (v.pair[p]).hi = false ∧ (v.pair[p]).lo = false ∧ (v.pair[p]).owed = none) ∧
      (safe = 1 → (v.pair[p]).hi = false ∧ (v.pair[p]).lo = q.lo ∧
        (q.lo = false → (v.pair[p]).owed = some (16 * s.now + dead, false))) ∧
      (safe = 2 → (v.pair[p]).lo = false ∧ (v.pair[p]).hi = q.hi ∧
        (q.hi = false → (v.pair[p]).owed = some (16 * s.now + dead, true)))) ∧
    (s.pairState p ≠ pSafe → v = s))

/-! ### Granary -/

/-- R333, R351 to R355, R357: the capture's commands. A start that is not refused runs the configured streams and clears
the times of the old record; a trigger outside running sets TRIGIGN; a trigger without a post-trigger amount freezes with
cause 1, a freeze command with cause 2, the armed time with 3, a stop of the clock with 4; the post-trigger amount
freezes when it has been written. A mark notes the time; the 65th sets MARKFULL. A completed block goes to its slot of
the ring; one that cannot be read is a gap.

Rests on choices of the model: log entries 18, 32, 33, 72. -/
def Obligations.GranaryCommands : Prop :=
  ∀ (s : State) (ag : Agent),
    let st := s.grnState
    let idle : Prop := st ≠ gRun ∧ st ≠ gPost
    let mask := (List.range 32).foldl (fun m n => if fieldOf (s.rd (GRN_STR_CFG.adr n)) 26 24 = 0 then m else m + 2 ^ n) 0
    let start := s.grnStart mask (s.rd GRN_POST.adr).toNat
    let taken : State := { s with arrived := [] }
    Obligations.writes s ag GRN_CMD.adr (exec (.grnStart ag) s) (fun u =>
      (start.1 ≠ .ok → u.get GRN_STAT.STARTREF = 1 ∧ u.grnState = st ∧ u.grn = s.grn) ∧
      (start.1 = .ok → u.grnState = gRun ∧ u.get GRN_STAT.FCAUSE = 0 ∧ u.grn.written = 0 ∧ u.grn.queue = [] ∧
        u.grn.start = s.now ∧ u.grn.base = s.get GRN_BASE.BASE ∧ u.grn.size = s.get GRN_SIZE.SIZE ∧
        u.rd GRN_TRIGTIME_LO.adr = 0 ∧ u.rd GRN_RECLEN_LO.adr = 0) ∧ u.mem = s.mem) ∧
    Obligations.writes s ag GRN_CMD.adr (exec (.grnTrig ag) s) (fun u =>
      (st ≠ gRun → u.get GRN_STAT.TRIGIGN = 1 ∧ u.grn = s.grn ∧ u.grnState = st) ∧
      (st = gRun → s.on GRN_POST.KB = true → u.grnState = gPost ∧ u.grn.trigged = true ∧ u.grn.post = 0 ∧
        u.rd GRN_TRIGTIME_LO.adr = BitVec.ofNat 32 s.ptp)) ∧
    Obligations.writes s ag GRN_CMD.adr (exec (.grnFreeze ag) s) (fun u =>
      (idle → u.grn = s.grn ∧ ∀ a, u.rd a = s.rd a) ∧
      (¬ idle → u.grnState = gFrozen ∧ u.get GRN_STAT.FCAUSE = 2 ∧ u.rd GRN_FRZTIME_LO.adr = BitVec.ofNat 32 s.ptp)) ∧
    Obligations.writes s ag GRN_CMD.adr (exec (.grnFrzat ag) s) (fun u =>
      (¬ idle → u.grn.armed = true) ∧ (idle → u.grn = s.grn) ∧ u.mem = s.mem) ∧
    ((∀ a ∈ s.arrived, a.task ≠ 0x98 ∧ a.task ≠ 0x99) → exec .captureTask s = .next s) ∧
    (∀ a : Arrival, s.arrived = [a] → a.cycle ≤ s.now → s.runs blkGRN = true →
      (a.task = 0x98 → exec .captureTask s = .next taken.grnTrigger) ∧
      (a.task = 0x99 → exec .captureTask s = .next (taken.grnFreeze 2))) ∧
    ((∀ a ∈ s.arrived, ¬ (0x9A ≤ a.task ∧ a.task < 0xA0)) → exec .captureMarkTask s = .next s) ∧
    (∀ (k : Nat) (a : Arrival), k < 6 → s.arrived = [a] → a.task = 0x9A + k → a.cycle ≤ s.now →
      s.runs blkGRN = true → s.grnOpen = true →
      (s.grn.marks.length < 64 → ∃ v, exec .captureMarkTask s = .next v ∧
        v.grn.marks = s.grn.marks ++ [(k + 2, s.ptp)] ∧ v.reg = s.reg ∧ v.mem = s.mem) ∧
      (64 ≤ s.grn.marks.length → ∃ v, exec .captureMarkTask s = .next v ∧ v.grn = s.grn ∧
        v.get GRN_STAT.MARKFULL = 1)) ∧
    ((st ≠ gPost ∨ 64 * s.grn.post < (s.rd GRN_POST.adr).toNat) → exec .postTriggerComplete s = .next s) ∧
    (st = gPost → (s.rd GRN_POST.adr).toNat ≤ 64 * s.grn.post → ∃ u, exec .postTriggerComplete s = .next u ∧
      u.grnState = gFrozen ∧ u.get GRN_STAT.FCAUSE = 1) ∧
    (s.grn.armed = false → exec .freezeTimeReached s = .next s) ∧
    (s.grn.armed = true → s.cycleOfPtp s.grnFrzTime ≤ s.now → ¬ idle → ∃ u, exec .freezeTimeReached s = .next u ∧
      u.grnState = gFrozen ∧ u.get GRN_STAT.FCAUSE = 3) ∧
    (s.grn.armed = true → s.now < s.cycleOfPtp s.grnFrzTime →
      exec .freezeTimeReached s = .next (s.reach (s.cycleOfPtp s.grnFrzTime)).grnTimeFreeze) ∧
    (s.grn.queue = [] → exec .granaryBlockWrite s = .next s) ∧
    (∀ b q g, s.grn.queue = b :: q → s.grn.stream b.stream = some g → 0 < s.grn.size → s.upset = [] →
      (s.blockHeader g b (b.payload g.glean).length ++ b.payload g.glean).length ≤ 65536 →
      let a := s.grn.base * 65536 + s.grn.written % s.grn.size * 65536
      ∃ u, exec .granaryBlockWrite s = .next u ∧ u.grn.queue = q ∧ u.grn.written = s.grn.written + 1 ∧
        (∀ x, (x < a ∨ a + 65536 ≤ x) → u.byte x = s.byte x) ∧ u.le a 4 = 0x4E524731 ∧ u.reg = s.reg) ∧
    (∀ b q g, s.grn.queue = b :: q → s.grn.stream b.stream = some g → s.spoilt (grnCell b.stream) = true →
      ∃ u, exec .granaryBlockWrite s = .next u ∧ u.grn.queue = q ∧ u.grn.written = s.grn.written ∧ u.mem = s.mem ∧
        u.grn.drops = s.grn.drops + b.elems.length ∧ u.get GRN_STAT.GAP = 1) ∧
    (s.bit CPM_CLKEN.BLOCKS blkGRN = true → idle → s.grn.queue = [] → ∃ u, exec .granaryDisableFreeze s = .next u ∧
      u.runs blkGRN = false ∧ u.grn = s.grn ∧ u.mem = s.mem) ∧
    (s.bit CPM_CLKEN.BLOCKS blkGRN = true → ¬ idle → ∃ u, exec .granaryDisableFreeze s = .next u ∧
      u.grnState = gFrozen ∧ u.get GRN_STAT.FCAUSE = 4)

/-! ### Power, domains and clocks -/

/-- R499 to R502, R507 to R514, R525, R526: modes, votes and domains. A request for Field outside Yard, and one for
another mode while a pair is armed, are refused with REQREF; one for Yard from Field is carried out. A vote register
takes the bits of its writer. A descent ends at the configured level, a return at H0; a domain in no descent, or in no
return that may be completed, stays as it is. A wake source wakes the AOC only where it is enabled, in Cellar only
source 10. A pattern that has been repeated begins training. Clock enables start and stop their blocks.

Rests on choices of the model: log entries 46, 47. -/
def Obligations.ModesAndVotes : Prop :=
  ∀ (s : State) (ag : Agent) (val : Word) (req : BitVec 2) (d : Dom) (b : Fin 10) (port : PortId) (i : Fin 11),
    let x := s.dom[domIx d]
    let own (v : Fin 3) (j : Nat) : Bool := (decide (j = voteBit ag) && val.getLsbD v) ||
      (decide (j = 0) && val.getLsbD (4 + v) && (partyOf ag).isMgt)
    let level (u : State) (l : Nat) : Prop := (u.dom[domIx d]).level = l ∧
      ∀ j : Fin 3, domIx d ≠ j → (u.dom[j]).level = (s.dom[j]).level
    Obligations.writes s ag APM_MODE.adr (exec (.apmModeReq ag req) s) (fun u => u.mem = s.mem ∧
      (req.toNat = mField → s.mode ≠ mField → s.mode ≠ mYard → u.mode = s.mode ∧ u.get APM_MODE.REQREF = 1) ∧
      (req ≠ 3 → req.toNat ≠ mField → s.anyArmed = true → u.mode = s.mode ∧ u.get APM_MODE.REQREF = 1) ∧
      (req.toNat = mYard → s.anyArmed = false → s.mode = mField → u.mode = mYard) ∧ (req = 3 → u.reg = s.reg)) ∧
    Obligations.writes s ag APM_VOTE_SET.adr (exec (.apmVoteSet ag val) s) (fun u => u.mem = s.mem ∧
      ∀ (v : Fin 3) (j : Nat), j < 32 →
        (u.rd (APM_VOTE.adr v)).getLsbD j = ((s.rd (APM_VOTE.adr v)).getLsbD j || own v j)) ∧
    Obligations.writes s ag APM_VOTE_CLR.adr (exec (.apmVoteClr ag val) s) (fun u => u.mem = s.mem ∧
      ∀ (v : Fin 3) (j : Nat), j < 32 → (u.rd (APM_VOTE.adr v)).getLsbD j =
        ((s.rd (APM_VOTE.adr v)).getLsbD j && !(own v j || (decide (j = 9) && val.getLsbD (8 + v))))) ∧
    (x.phase ≠ .descending → exec (.domainDescentComplete d) s = .next s) ∧
    (x.phase = .descending →
      let u := s.reach (x.since + 1)
      (u.dom[domIx d]).phase = .descending → (d = .fast → u.rd CPM_CLKRUN.adr = 0) → (d = .mem → u.grn.queue = []) →
      ∃ v, exec (.domainDescentComplete d) s = .next v ∧ (v.dom[domIx d]).level = u.holdLevel (domIx d) ∧
        (v.dom[domIx d]).phase ≠ .up ∧ (d = .fast → 3 ≤ u.holdLevel 0 → v.get CPM_BOOT.FWST = 1)) ∧
    ((x.phase ≠ .returning ∨ s.mayRise (domIx d) = false) → exec (.domainReturnComplete d) s = .next s) ∧
    (x.phase = .returning → s.mayRise (domIx d) = true → ∃ u, exec (.domainReturnComplete d) s = .next u ∧ level u 0 ∧
      (d = .fast → s.mode = mBarn → s.ao.toField = false → u.mode = mYard)) ∧
    ((s.aoOn = false ∨ (s.mode = mCellar ∧ i ≠ 10)) → exec (.wakeSourceFire i) s = .next s) ∧
    (s.aoOn = true → (s.mode ≠ mCellar ∨ i = 10) → ∃ u, exec (.wakeSourceFire i) s = .next u ∧
      (s.bit APM_WAKE_EN.SRC i = true → u.bit APM_WAKE_STAT.SRC i = true ∧ (u.core[4]).waiting = false) ∧
      (s.bit APM_WAKE_EN.SRC i = false → u.core = s.core ∧ u.dom = s.dom ∧
        u.rd APM_WAKE_STAT.adr = s.rd APM_WAKE_STAT.adr)) ∧
    ((s.domUp .link = true ∨ s.aoOn = false ∨ s.mode = mCellar) → exec (.linkWakeDetect port) s = .next s) ∧
    (s.domUp .link = false → s.aoOn = true → s.mode ≠ mCellar → ∃ u, exec (.linkWakeDetect port) s = .next u ∧
      (u.port[portIx port]).woken = true ∧ u.port[portIx (otherPort port)] = s.port[portIx (otherPort port)]) ∧
    ((∀ p : Fin 2, (s.port[p]).pattern = false) → exec .linkWakeRepeat s = .next s) ∧
    ((∃ p : Fin 2, (s.port[p]).pattern = true) →
      let u := s.reach (s.now + usLc (max 5 (s.get APM_LWAKE.LEN)))
      ∃ v, exec .linkWakeRepeat s = .next v ∧ v.reg = u.reg ∧ ∀ p : Fin 2, (v.port[p]).pattern = false ∧
        (v.port[p]).training = ((u.port[p]).training || (u.port[p]).pattern)) ∧
    Obligations.writes s ag CPM_CLKEN.adr (exec (.cpmClkenWrite ag val) s) (fun u =>
      u.get CPM_CLKEN.BLOCKS = fieldOf val 9 0 ∧
      (∀ k : Nat, k < 10 → val.getLsbD k = true → (s.bit CPM_CLKEN.BLOCKS k = false ∨ s.runs k = true) →
        u.runs k = true) ∧
      (∀ k ∈ [blkTRK, blkEVF, blkMBX, blkU2, blkU3], val.getLsbD k = false → s.bit CPM_CLKEN.BLOCKS k = true →
        u.runs k = false)) ∧
    let down := s.clockDown b
    (s.stops.testBit b = false → exec (.blockClockStopped b) s = .next s) ∧
    (s.blockIdle b = true → down.runs b = false ∧ down.stops.testBit b = false ∧
      (∀ k : Nat, k < 10 → k ≠ b → down.runs k = s.runs k) ∧ down.mem = s.mem) ∧
    (s.stops.testBit b = true → s.blockIdle b = true → (s.fastUp = false ∨ s.bit CPM_CLKEN.BLOCKS b = false) →
      exec (.blockClockStopped b) s = .next down) ∧
    (s.stops.testBit b = true → s.blockIdle b = true → s.fastUp = true → s.bit CPM_CLKEN.BLOCKS b = true →
      exec (.blockClockStopped b) s = .next (down.reach (s.now + 1)))

/-- R515 to R523: the clocks. A switch to a ready reference slews, one to a reference that is not ready sets SWREF; the
slew's end locks the loop and shows the reference. The loss of the selected recovered clock is holdover, or undoes a
switch that was requested in its cycle; the end of holdover switches to HRC, or enables it first. XO32 and BRC become ready; the loss of XO32 sets XOLOST.

Rests on choices of the model: log entries 18, 74. -/
def Obligations.Clocks : Prop :=
  ∀ (s : State) (ag : Agent) (src : BitVec 2),
    let cur := s.get CPM_CLK_CTRL.SRC
    let hold := s.on CPM_CLK_STAT.HOLD
    let slews (u : State) (r : Nat) : Prop := u.get CPM_CLK_CTRL.SRC = r ∧ u.get CPM_CLK_STAT.LOCK = 0 ∧
      u.get CPM_CLK_STAT.SLEW = 1 ∧ u.get CPM_CLK_STAT.HOLD = 0 ∧ u.pll.waitHrc = false
    Obligations.writes s ag CPM_CLK_CTRL.adr (exec (.clockSwitchRequest ag src) s) (fun u => u.mem = s.mem ∧
      u.on CPM_CLK_CTRL.HRCEN = s.on CPM_CLK_CTRL.HRCEN ∧
      ((src = 3 ∨ src.toNat = cur) → u.get CPM_CLK_CTRL.SRC = cur ∧ u.rd CPM_CLK_STAT.adr = s.rd CPM_CLK_STAT.adr) ∧
      (src ≠ 3 → src.toNat ≠ cur → s.on (readyFlag src.toNat) = true → slews u src.toNat) ∧
      (src ≠ 3 → src.toNat ≠ cur → s.on (readyFlag src.toNat) = false →
        u.get CPM_CLK_CTRL.SRC = cur ∧ u.get CPM_CLK_STAT.SWREF = 1)) ∧
    (s.on CPM_CLK_STAT.SLEW = false → exec .clockSlewLock s = .next s) ∧
    (s.on CPM_CLK_STAT.SLEW = true → ∃ u, exec .clockSlewLock s = .next u ∧ u.get CPM_CLK_STAT.SLEW = 0 ∧
      u.get CPM_CLK_STAT.LOCK = 1 ∧ u.get CPM_CLK_STAT.CUR = cur ∧ u.mem = s.mem ∧
      ∀ a, a ≠ CPM_CLK_STAT.adr → u.rd a = s.rd a) ∧
    ((s.fastUp = false ∨ 2 ≤ cur) → exec .holdoverEntry s = .next s) ∧
    (s.fastUp = true → cur < 2 → (hold = true ∨ ∀ o, s.pll.undo = some o → o.cycle ≠ s.now) →
      ∃ u, exec .holdoverEntry s = .next u ∧ u.on (readyFlag cur) = false ∧
        u.get CPM_CLK_STAT.HOLD = 1 ∧ (hold = false → u.get CPM_CLK_STAT.LOCK = 0 ∧ u.get CPM_CLK_STAT.SLEW = 0 ∧
          u.pll.holdAt = s.now)) ∧
    (∀ o, s.fastUp = true → cur < 2 → hold = false → s.pll.undo = some o → o.cycle = s.now → o.src < 3 → o.hold < 2 →
      o.lock < 2 → o.slew < 2 → ∃ u, exec .holdoverEntry s = .next u ∧ u.on (readyFlag cur) = false ∧
        u.get CPM_CLK_STAT.SWREF = 1 ∧ u.get CPM_CLK_CTRL.SRC = o.src ∧ u.get CPM_CLK_STAT.HOLD = o.hold ∧
        u.get CPM_CLK_STAT.LOCK = o.lock ∧ u.get CPM_CLK_STAT.SLEW = o.slew) ∧
    ((hold = false ∨ s.pll.waitHrc = true) → exec .holdoverExpiry s = .next s) ∧
    (hold = true → s.pll.waitHrc = false →
      let u := s.reach (s.pll.holdAt + usLc 100000)
      ∃ v, exec .holdoverExpiry s = .next v ∧ v.get CPM_CLK_STAT.HOLDEXP = 1 ∧
        (u.on CPM_CLK_STAT.HRCRDY = true → slews v 2) ∧
        (u.on CPM_CLK_STAT.HRCRDY = false → v.get CPM_CLK_CTRL.HRCEN = 1 ∧ v.pll.waitHrc = true ∧
          v.get CPM_CLK_CTRL.SRC = u.get CPM_CLK_CTRL.SRC)) ∧
    ((s.fastUp = false ∨ s.on CPM_CLK_CTRL.HRCEN = false ∨ s.on CPM_CLK_STAT.HRCRDY = true) →
      exec .hrcReady s = .next s) ∧
    (s.fastUp = true → s.on CPM_CLK_CTRL.HRCEN = true → s.on CPM_CLK_STAT.HRCRDY = false →
      ∃ u, exec .hrcReady s = .next u ∧ u.get CPM_CLK_STAT.HRCRDY = 1 ∧ (s.pll.waitHrc = true → slews u 2)) ∧
    ((s.aoOn = false ∨ s.on APM_CLK.XOEN = false ∨ s.on APM_CLKSTAT.XORDY = true) → exec .xo32Ready s = .next s) ∧
    (s.aoOn = true → s.on APM_CLK.XOEN = true → s.on APM_CLKSTAT.XORDY = false → ∃ u, exec .xo32Ready s = .next u ∧
      u.get APM_CLKSTAT.XORDY = 1 ∧ u.get RTC_STAT.LRC = 0 ∧ u.mem = s.mem) ∧
    (s.on APM_CLKSTAT.XORDY = false → exec .xo32Lost s = .next s) ∧
    (s.on APM_CLKSTAT.XORDY = true → ∃ u, exec .xo32Lost s = .next u ∧ u.get APM_CLKSTAT.XORDY = 0 ∧
      u.get APM_CLKSTAT.XOLOST = 1 ∧ u.get RTC_STAT.LRC = 1 ∧ u.mem = s.mem) ∧
    (s.brcAt = none → exec .brcReady s = .next s) ∧
    (∀ c, s.brcAt = some c → ∃ u, exec .brcReady s = .next u ∧ u.get APM_CLKSTAT.BRCRUN = 1 ∧ u.brcAt = none ∧
      let v := s.reach (c + 3750)
      u.brcFrom = v.now ∧ u.aoWait = [] ∧ u.mem = v.mem ∧
        ∀ a ∈ v.aoWait, ∃ d ∈ u.dues, d.act = .aoTask a.task ∧ v.now < d.cycle)

/-! ### Supplies, resets and start-up -/

/-- R500, R502, R504, R527, R528, R532, R549, R609 to R611: the supplies. The failure of VSYS takes the switched domains to H5 and
Field or Yard to Barn; its return starts the always-on domain, or ends Cellar. A rail out of range takes its domain to
H5. A start latches the straps and casts the HOST votes after a power-up or a reset by pin with VSYS in range.

Rests on choices of the model: log entries 46, 57, 83. -/
def Obligations.Supplies : Prop :=
  ∀ (s : State) (d : Dom),
    let x := s.ao
    let starts (u : State) (full : Bool) : Prop := u.ao.phase = .starting ∧ u.ao.full = full
    let leaves (u : State) : Prop := starts u false ∧ u.mode = mBarn ∧ u.get APM_RSTCAUSE.CELLAR = 1
    (x.vsys = false → exec .vsysFail s = .next s) ∧
    (x.vsys = true → ∃ u, exec .vsysFail s = .next u ∧ u.ao.vsys = false ∧ u.get APM_MODE.VSYS = 0 ∧
      u.get HRV_STAT.SRC = 0 ∧ u.get APM_RSTCAUSE.VSYSF = 1 ∧
      (∀ j : Fin 3, (u.dom[j]).level = 5 ∧ (u.dom[j]).phase = .down) ∧
      u.mode = (if s.mode = mField ∨ s.mode = mYard then mBarn else s.mode)) ∧
    (x.vsys = true → exec .vsysReturn s = .next s) ∧
    (x.vsys = false → x.phase = .off → ∃ u, exec .vsysReturn s = .next u ∧ u.ao.vsys = true ∧ starts u true ∧
      u.rd APM_RSTCAUSE.adr = 1 ∧ u.get HRV_STAT.COLD = 0) ∧
    (x.vsys = false → x.phase ≠ .off → s.mode ≠ mCellar → ∃ u, exec .vsysReturn s = .next u ∧ u.ao.vsys = true ∧
      u.get APM_MODE.VSYS = 1 ∧ u.get HRV_STAT.SRC = 1 ∧ u.ao.phase = x.phase) ∧
    (x.vsys = false → x.phase ≠ .off → s.mode = mCellar → ∃ u, exec .vsysReturn s = .next u ∧ u.ao.vsys = true ∧
      leaves u) ∧
    (∃ u, exec (.railOutOfRange d) s = .next u ∧ (u.dom[domIx d]).powered = false ∧ (u.dom[domIx d]).level = 5) ∧
    (∃ u, exec (.railInRange d) s = .next u ∧ (u.dom[domIx d]).powered = true ∧ ∀ j : Fin 3,
      (u.dom[j]).level = (s.dom[j]).level ∧ (domIx d ≠ j → (u.dom[j]).powered = (s.dom[j]).powered)) ∧
    ((x.phase ≠ .off ∨ x.vsys = true) → exec .aoPowerUp s = .next s) ∧
    (x.phase = .off → x.vsys = false → ∃ u, exec .aoPowerUp s = .next u ∧ starts u true ∧
      u.rd APM_RSTCAUSE.adr = 1 ∧ u.get HRV_STAT.COLD = 1) ∧
    ((x.phase = .off ∨ x.vsys = true) → exec .aoPowerLoss s = .next s) ∧
    (x.phase ≠ .off → x.vsys = false → ∃ u, exec .aoPowerLoss s = .next u ∧ u.ao.phase = .off ∧ u.reg = s.reg ∧
      u.core[4] = CoreSt.reset false ∧ u.mem = s.mem) ∧
    ((s.mode ≠ mCellar ∨ x.phase = .off ∨ (x.vsys = false ∧ s.vstore < s.vexit)) → exec .cellarExit s = .next s) ∧
    (s.mode = mCellar → x.phase ≠ .off → (x.vsys = true ∨ s.vexit ≤ s.vstore) →
      ∃ u, exec .cellarExit s = .next u ∧ leaves u) ∧
    (x.phase ≠ .starting → exec .alwaysOnStart s = .next s) ∧
    (x.phase = .starting → ∃ u, exec .alwaysOnStart s = .next u ∧ u.ao.phase = .on ∧
      u.get APM_STRAP.BOOT = x.boot % 4 ∧ u.on APM_STRAP.GPOL = x.gpol ∧
      ((x.full = true ∨ x.byPin = true) → x.vsys = true → ∀ v, v < 3 → u.get (APM_VOTE.HOST v) = 1) ∧
      ((x.full = false ∧ x.byPin = false) ∨ x.vsys = false → ∀ v, v < 3 →
        u.get (APM_VOTE.HOST v) = s.get (APM_VOTE.HOST v)))

/-- R494, R496, R613, R614, R616, R619 to R624: resets and boot. A request by the AOC or a management core resets the
domain it names and notes its cause; one by another agent does nothing. A kick and an enable restart the watchdog's
time; its expiry shows, and with RSTEN resets the fast domain. Only the boot ROM writes `CPM_BOOT`. The boot decision
takes the first slot in order that verifies, and releases MGT1.

Rests on choices of the model: log entries 48, 56, 57, 72. -/
def Obligations.ResetsAndBoot : Prop :=
  ∀ (s : State) (ag : Agent) (val : Word) (n k : Fin 2) (hold : Bool),
    let may := partyOf ag = .aoc ∨ (partyOf ag).isMgt = true
    let asks (f : Fld) (P : State → Prop) (u : State) : Prop :=
      (may → u.get f = 1 ∧ u.get APM_RSTCAUSE.CORE = (partyOf ag).core ∧ P u) ∧
      (¬ may → u.reg = s.reg ∧ u.dom = s.dom ∧ u.ao = s.ao)
    let pair : Fin 5 := if n = 0 then 0 else 1
    let rom := s.fastUp = true ∧ s.get CPM_BOOT.FWST = 1 ∧ s.wdog.expired = none
    let restores := s.fastUp = true ∧ 2 ≤ s.get CPM_BOOT.FWST ∧ s.wdog.expired = none ∧ s.recovering = false ∧
      s.restored = false
    Obligations.writes s ag APM_RSTREQ.adr (exec (.apmRstreqAo ag) s) (asks APM_RSTCAUSE.REQAO (fun u =>
      (s.on HRV_STAT.SEALING = true → u.ao.restart = true ∧ u.ao.phase = s.ao.phase) ∧
      (s.on HRV_STAT.SEALING = false → u.ao.phase = .starting ∧ u.ao.full = false))) ∧
    Obligations.writes s ag APM_RSTREQ.adr (exec (.apmRstreqFast ag) s)
      (asks APM_RSTCAUSE.REQFAST (fun u => (u.dom[0]).level = 5)) ∧
    Obligations.writes s ag APM_RSTREQ.adr (exec (.apmRstreqLink ag) s)
      (asks APM_RSTCAUSE.REQLINK (fun u => (u.dom[2]).level = 5 ∧ u.sessions = [] ∧ u.linkFree = false)) ∧
    Obligations.writes s ag CPM_WDOG.adr (exec (.watchdogKick ag) s) (fun u => u.get CPM_WDOG.EN = s.get CPM_WDOG.EN ∧
      u.get CPM_WDOG.TIMEOUT = s.get CPM_WDOG.TIMEOUT ∧ u.wdog.expired = s.wdog.expired ∧
      u.wdog.since = (if s.on CPM_WDOG.EN then s.now else s.wdog.since)) ∧
    Obligations.writes s ag CPM_WDOG.adr (exec (.watchdogEnable ag val) s) (fun u => u.get CPM_WDOG.EN = 1 ∧
      u.get CPM_WDOG.TIMEOUT = fieldOf val 15 0 ∧
      u.wdog.since = (if s.on CPM_WDOG.EN = false ∨ val.getLsbD 29 = true then s.now else s.wdog.since)) ∧
    Obligations.writes s ag CPM_BOOT.adr (exec (.cpmBootWrite ag val) s) (fun u =>
      (s.inBootRom ag = true → u.get CPM_BOOT.FWST = fieldOf val 11 8) ∧ (s.inBootRom ag = false → u.reg = s.reg)) ∧
    Obligations.writes s ag (CPM_PAIR_RST.adr n) (exec (.cpmPairHold ag n hold) s) (fun u =>
      u.get (CPM_PAIR_RST.HOLD n) = (if hold then 1 else 0) ∧
      (hold = true → u.get (CPM_PAIR_RST.WHY n) = 0 ∧ u.locked[n] = false ∧ u.core[pair] = CoreSt.reset false) ∧
      (hold = false → u.core = s.core ∧ u.locked = s.locked)) ∧
    (s.on (CPM_PAIR_RST.HOLD n) = false → Obligations.writes s ag (CPM_PAIR_RST.adr n) (exec (.cpmPairInj ag n) s)
      (fun u => (s.anyArmed = true → u.get (CPM_PAIR_RST.INJREF n) = 1 ∧ u.core = s.core) ∧
        (s.anyArmed = false → (u.core[pair]).flip = true))) ∧
    (s.ao.phase = .off → exec .poreset s = .next s) ∧
    (s.ao.phase ≠ .off → ∃ u, exec .poreset s = .next u ∧ u.get APM_RSTCAUSE.PIN = 1 ∧ u.ao.byPin = true ∧
      (∀ j : Fin 3, (u.dom[j]).level = 5) ∧ (s.on HRV_STAT.SEALING = true → u.ao.restart = true) ∧
      (s.on HRV_STAT.SEALING = false → u.ao.phase = .starting)) ∧
    exec .trst s = .next { s with tap := .idcode } ∧
    ((s.fastUp = false ∨ s.on CPM_WDOG.EN = false) → exec .watchdogExpiry s = .next s) ∧
    (s.fastUp = true → s.on CPM_WDOG.EN = true → s.wdog.expired = none →
      let v := s.reach (s.wdog.since + usLc (1000 * max 1 (s.get CPM_WDOG.TIMEOUT)))
      ∃ u, exec .watchdogExpiry s = .next u ∧ u.wdog.expired = some v.now ∧ u.fcode = 0x0F01 ∧ u.reg = v.reg ∧ u.mem = v.mem) ∧
    (∀ c, s.fastUp = true → s.on CPM_WDOG.EN = true → s.wdog.expired = some c →
      (s.on CPM_WDOG.RSTEN = false → exec .watchdogExpiry s = .next s) ∧
      (s.on CPM_WDOG.RSTEN = true → ∃ u, exec .watchdogExpiry s = .next u ∧ u.get APM_RSTCAUSE.WDOG = 1 ∧ (u.dom[0]).level = 5 ∧
        u.wdog.expired = none)) ∧
    (¬ rom → exec .bootRomDecision s = .next s) ∧
    (rom → ∃ u, exec .bootRomDecision s = .next u ∧ u.mem = s.mem ∧ u.linkFree = true ∧ u.mac = s.sec.mac.getD s.mac ∧
      (∀ m, s.bootOrder.find? (fun (j : Fin 2) => s.slotOk j) = some m → (u.core[3]).held = false ∧
        (u.img[m]).state = 3 ∧ u.get CPM_BOOT.SLOT = m ∧
        u.get CPM_BOOT.FWST = (if s.bootOrder.head? = some m then 2 else 3)) ∧
      (s.bootOrder.find? (fun (j : Fin 2) => s.slotOk j) = none → u.get CPM_BOOT.FWST = 2 ∧ (u.core[2]).svc = 3 ∧
        ∀ j ∈ s.bootOrder, (u.img[j]).state = 4)) ∧
    ((s.img[k]).state ≠ 2 → exec (.imageVerifyDone k) s = .next s) ∧
    ((s.img[k]).state = 2 → ∃ u, exec (.imageVerifyDone k) s = .next u ∧
      (u.img[k]).state = (if s.slotOk k then 3 else 4) ∧ (∀ j : Fin 2, k ≠ j → u.img[j] = s.img[j]) ∧
      u.mem = s.mem ∧ (s.upset = [] → u.reg = s.reg)) ∧
    (s.aocAwake = false → exec .aocBootPath s = .next s) ∧
    (s.aocAwake = true → (∀ j : Fin 2, j ∈ s.bootOrder → s.headerOk j = false) →
      ∃ u, exec .aocBootPath s = .next u ∧ (u.core[4]).waiting = true ∧ u.mem = s.mem ∧
        (s.upset = [] → u.reg = s.reg)) ∧
    (∀ (m : Fin 2) l, s.aocAwake = true → s.bootOrder = m :: l → s.headerOk m = true → s.sectionOk m = true →
      s.le (slotBase m + 28) 4 ≤ 0x50000 →
      exec .aocBootPath s = .next ((s.eccReads (slotBase m) slotSize).putBytes 0x41000000
        (s.bytes (slotBase m + s.le (slotBase m + 24) 4) (s.le (slotBase m + 28) 4)))) ∧
    (¬ restores → exec .configRestore s = .next s) ∧
    (restores → ∃ u, exec .configRestore s = .next u ∧ u.restored = true ∧
      (∀ m, s.newestCopy = some m → u.epoch = BitVec.ofNat 16 (s.le (copyBase m + 8) 2)) ∧
      (s.newestCopy = none → u.epoch = s.epoch ∧ (s.upset = [] → u.reg = s.reg)))

/-! ### Calendar, supplies of energy and the hour ledger -/

/-- R550 to R564: the calendar's commands, on LRC where a trim does not act. A tick is the next wrap of SUB's low bits; a
second carry brings the time that follows; a trim loads the trim that acts; the periodic wake fires when its count is
complete. A setting that is valid is taken, another sets BADSET. A read freezes the four words until all are read,
a release or the timeout. Without a supply the calendar stands.

Rests on choices of the model: log entries 51, 52. -/
def Obligations.Calendar : Prop :=
  ∀ (s : State) (ag : Agent) (val : Word) (k : Fin 4),
    let c := s.cal
    let live := s.ao.phase ≠ .off
    let lrc := s.on APM_CLKSTAT.XORDY = false
    let unit := if s.on RTC_PWAKE.X64 then 64 else 1
    let wakes := live ∧ s.on RTC_PWAKE.EN = true ∧ s.mode ≠ mCellar
    let t := s.rd RTC_SET_TIME.adr
    let d := s.rd RTC_SET_DATE.adr
    let ok := setValid t d (val.getLsbD 30) (fieldOf val 18 16)
    let word (x : Shadow) : Word := (if k = 0 then x.time else if k = 1 then x.date else if k = 2 then x.sub
      else x.wday) &&& readMask (RTC_TIME.adr + 4 * k)
    let frozen (x : Shadow) (u : State) : Prop := u.reg = s.reg ∧ u.mem = s.mem ∧
      u.cal.shadow = (if setBit x.seen k true = 15 then none else some { x with seen := setBit x.seen k true })
    (¬ live → exec .calendarTick s = .next s ∧ exec .calendarSecondCarry s = .next s ∧
      exec .calendarTrim s = .next s ∧ exec .rtcFreezeTimeout s = .next s) ∧
    (live → lrc → c.sub < 32768 → ∃ u, exec .calendarTick s = .next u ∧ u.cal.ticks = c.ticks + 1 ∧
      u.cal.sub = (c.sub / 32 + 1) * 32 % 32768 ∧ u.mem = s.mem) ∧
    (live → lrc → c.sub < 32768 → c.sec < 60 → ∃ u, exec .calendarSecondCarry s = .next u ∧ u.cal.sub = 0 ∧
      (u.cal.sec, u.cal.min, u.cal.hour) = (c.carry.1.sec, c.carry.1.min, c.carry.1.hour) ∧
      (u.cal.day, u.cal.month, u.cal.year, u.cal.wday) =
        (c.carry.1.day, c.carry.1.month, c.carry.1.year, c.carry.1.wday) ∧
      (c.carry.2 = true → u.get RTC_STAT.WRAP = 1) ∧ u.mem = s.mem) ∧
    (lrc → exec .calendarTrim s = .next s) ∧
    (live → ¬ lrc → c.counts < 2 ^ 20 → ∃ u, exec .calendarTrim s = .next u ∧ u.cal.counts = 0 ∧
      u.cal.trim = s.getInt RTC_TRIM.TRIM ∧ u.mem = s.mem) ∧
    (¬ wakes → exec .periodicWake s = .next s) ∧
    (wakes → lrc → c.sub < 32768 → c.part < unit → c.units < max 1 (s.get RTC_PWAKE.COUNT) →
      ∃ u, exec .periodicWake s = .next u ∧ u.get RTC_STAT.PWK = 1 ∧ u.cal.units = 0 ∧ u.cal.part = 0 ∧
        u.cal.ticks = c.ticks + unit * max 1 (s.get RTC_PWAKE.COUNT) - (c.units * unit + c.part)) ∧
    Obligations.writes s ag RTC_APPLY.adr (exec (.rtcApply ag val) s) (fun u => u.mem = s.mem ∧
      (ok = false → u.cal = c ∧ u.get RTC_STAT.BADSET = 1) ∧
      (ok = true → u.get RTC_STAT.SET = 1 ∧ u.cal.shadow = none ∧ u.cal.sub = fieldOf val 14 0 ∧
        (u.cal.hour, u.cal.min, u.cal.sec) = (fieldOf t 23 16, fieldOf t 15 8, fieldOf t 7 0) ∧
        (u.cal.year, u.cal.month, u.cal.day) = (fieldOf d 31 16, fieldOf d 11 8, fieldOf d 4 0) ∧
        u.cal.wday = (if val.getLsbD 30 then fieldOf val 18 16 else c.wday) ∧ u.cal.ticks = c.ticks)) ∧
    (∀ x, c.shadow.getD { time := c.word 0, date := c.word 1, sub := c.word 2, wday := c.word 3, seen := 0, age := 0 } = x →
      Obligations.reads s ag (RTC_TIME.adr + 4 * k) (exec (.rtcReadFreeze ag k) s) (word x) (frozen x)) ∧
    Obligations.writes s ag RTC_RELEASE.adr (exec (.rtcRelease ag) s) (fun u => u.reg = s.reg ∧ u.mem = s.mem ∧
      u.cal = { c with shadow := none }) ∧
    (c.shadow = none → exec .rtcFreezeTimeout s = .next s) ∧
    (∀ x, live → lrc → c.shadow = some x → x.age < 32768 → ∃ u, exec .rtcFreezeTimeout s = .next u ∧
      u.cal.shadow = none ∧ u.mem = s.mem)

/-- R531, R533, R535, R537 to R545, R547: harvest, purse and grants. AVAIL is the purse without the tithe and without
what the grants reserve. A request is given while the machine supply is present, or when it does not exceed AVAIL;
it is denied when the holder has a grant already, or the final sequence runs. A warning, the seal threshold and the end of
the final sequence act only where their conditions hold.

Rests on choices of the model: log entries 49, 50. -/
def Obligations.PurseAndGrants : Prop :=
  ∀ (s : State) (h : Fin 4) (amount : BitVec 24) (voc vin vstore : Nat),
    let sealing := s.on HRV_STAT.SEALING
    let avail := s.get HRV_PURSE.UJ - max 60 (s.get HRV_TITHE.TITHE) - s.ao.reserved.toList.sum
    let had := s.on (HRV_GRANT.GRANTED h)
    let given (n : Nat) : Prop := ∃ u, exec (.grantRequest h amount) s = .next u ∧ u.get (HRV_GRANT.GRANTED h) = 1 ∧
      u.get (HRV_GRANT.DENIED h) = 0 ∧ u.get (HRV_GRANT.AMOUNT h) = n ∧ u.ao.reserved = s.ao.reserved.set h n ∧
      (∀ a, a ≠ HRV_GRANT.adr h → u.rd a = s.rd a) ∧ u.mem = s.mem
    let denied : Prop := ∃ u, exec (.grantRequest h amount) s = .next u ∧ u.get (HRV_GRANT.DENIED h) = 1 ∧ u.on (HRV_GRANT.GRANTED h) = had ∧
      u.ao = s.ao ∧ (∀ a, a ≠ HRV_GRANT.adr h → u.rd a = s.rd a) ∧ u.mem = s.mem
    let warns := s.aoOn = true ∧ s.mode ≠ mCellar ∧ s.warnCause = true ∧ s.ao.warned = false
    let low := s.purse ≤ s.tithe ∨ s.vstore ≤ codeMv (s.get HRV_VTH.VSEAL)
    let acts := s.aoOn = true ∧ s.mode ≠ mCellar ∧ s.on HRV_STAT.SRC = false ∧ sealing = false ∧ low
    (s.aoOn = false → exec (.grantRequest h amount) s = .next s ∧ exec (.grantReturn h) s = .next s ∧ exec (.vocSample voc) s = .next s ∧
      exec (.purseRecompute vin vstore) s = .next s ∧ exec .storeFull s = .next s) ∧
    (s.aoOn = true →
      (had = true → denied) ∧ (had = false → sealing = true → denied) ∧
      (had = false → sealing = false → s.on HRV_STAT.SRC = true → given 0) ∧
      (had = false → sealing = false → s.on HRV_STAT.SRC = false → amount.toNat ≤ avail → given amount.toNat) ∧
      (had = false → sealing = false → s.on HRV_STAT.SRC = false → avail < amount.toNat → denied) ∧
      (∃ u, exec (.grantReturn h) s = .next u ∧ u.get (HRV_GRANT.GRANTED h) = 0 ∧
        u.ao.reserved = s.ao.reserved.set h 0 ∧ (∀ a, a ≠ HRV_GRANT.adr h → u.rd a = s.rd a) ∧ u.mem = s.mem) ∧
      (s.on HRV_CTRL.HEN = false → exec (.vocSample voc) s = .next s) ∧
      (s.on HRV_CTRL.HEN = true → ∃ u, exec (.vocSample voc) s = .next u ∧ u.get HRV_VOC.MV = min 65535 voc ∧
        u.ao.point = clampNat 32 60 (s.get HRV_MPPT.FRAC) * voc ∧ u.ao.period = 2 ^ min 9 (s.get HRV_MPPT.PER) ∧
        (∀ a, a ≠ HRV_VOC.adr → u.rd a = s.rd a) ∧ u.mem = s.mem) ∧
      (∃ u, exec (.purseRecompute vin vstore) s = .next u ∧ u.get HRV_VIN.MV = min 65535 vin ∧
        u.get HRV_VSTORE.MV = min 65535 vstore ∧ u.mem = s.mem ∧
        (s.mode = mCellar → u.get HRV_PURSE.UJ = s.get HRV_PURSE.UJ) ∧
        (s.mode ≠ mCellar → u.get HRV_STAT.FULL = (if s.vmax ≤ vstore then 1 else 0) ∧
          (s.isCell = false → u.get HRV_PURSE.UJ = min 16777215
            (500 * s.get HRV_MODEL.CAP * (vstore * vstore - s.vfloor * s.vfloor) / 1000000)) ∧
          (s.isCell = true → s.vmax ≤ vstore → u.get HRV_PURSE.UJ = 16777215))) ∧
      (∃ u, exec .storeFull s = .next u ∧ u.get HRV_STAT.FULL = 1 ∧ u.mem = s.mem ∧
        u.get HRV_PURSE.UJ = (if s.isCell then 16777215 else s.get HRV_PURSE.UJ))) ∧
    (¬ warns → exec .brownOutWarning s = .next s) ∧
    (warns → ∃ u, exec .brownOutWarning s = .next u ∧ u.get HRV_STAT.BOWARN = 1 ∧ u.ao.warned = true ∧
      (∀ j, j < 4 → s.on (HRV_GRANT.GRANTED j) = true → u.get (HRV_GRANT.WARN j) = 1)) ∧
    (¬ acts → exec .sealThreshold s = .next s) ∧
    (acts → ∃ u, exec .sealThreshold s = .next u ∧ u.get HRV_STAT.SEALING = 1 ∧ u.get APM_CLK.BRCF = 1 ∧ u.mem = s.mem ∧
      ∀ j : Fin 4, s.on (HRV_GRANT.GRANTED j) = true →
        (s.clearable (HRV_GRANT.GRANTED j) = false → u.get (HRV_GRANT.GRANTED j) = 0 ∧
          u.get (HRV_GRANT.DENIED j) = 1 ∧ u.ao.reserved[j] = 0) ∧
        (s.clearable (HRV_GRANT.GRANTED j) = true → j ≠ 0 → u.get (HRV_GRANT.GRANTED j) = 0 ∧
          u.get (HRV_GRANT.REVOKED j) = 1 ∧ u.ao.reserved[j] = 0)) ∧
    (sealing = false → exec .finalSequenceComplete s = .next s) ∧
    (sealing = true → s.ao.vsys = false → s.ao.restart = false → ∃ u, exec .finalSequenceComplete s = .next u ∧
      u.mode = mCellar ∧ u.get HRV_STAT.SEALING = 0 ∧ u.get APM_CLKSTAT.BRCRUN = 0 ∧ u.lgr.queue = [] ∧
      u.lgr.hourDue = none)

/-- R364, R365, R370 to R375, R377, R382, R384 to R386: the ledger's engine. While the machine supply is present, the
next event is written to the next slot with its head and its link; an HOUR entry and a seal record likewise. A note and a seal
request queue what they ask for; recovery makes the ledger usable; a condense replaces its span. A tamper event sets its flags,
parked motion counts the edges.

Rests on choices of the model: log entries 53, 54, 55, 71, 72. -/
def Obligations.HourLedger : Prop :=
  ∀ (s : State) (ag : Agent) (j : Fin 4) (a b : Bool),
    let l := s.lgr
    let takes := s.lgrTakes = true ∧ l.queue.length < 16 ∧ s.on LGR_STAT.FULL = false ∧ s.on HRV_STAT.SEALING = false
    let idle := l.hourDue = none ∧ l.queue = []
    let runs := s.lgrRuns = true ∧ s.on HRV_STAT.SRC = true
    let p := slotAddr l.next
    let watched := s.aoOn = true ∧ s.mode ≠ mCellar ∧ s.on (LGR_TAMP_CFG.EN j) = true
    let moves := s.aoOn = true ∧ s.mode = mBarn ∧ s.on LGR_PM_CFG.EN = true
    let edges := (if a = l.pmPins.1 then 0 else 1) + (if b = l.pmPins.2 then 0 else 1)
    ((s.lgrRuns = false ∨ idle) → exec .ledgerSlotWrite s = .next s) ∧
    (∀ e q, runs → l.hourDue = none → l.queue = e :: q → e.type ≠ 0x29 →
      let h := s.entryHead e.type (s.entryFlags (!s.on APM_CLKSTAT.XORDY)) e.code e.payload
      ∃ u, exec .ledgerSlotWrite s = .next u ∧ u.lgr.queue = q ∧ u.lgr.next = l.next + 1 ∧
        u.bytes p 48 = h ∧ u.bytes (p + 48) 16 = linkOf l.head h ∧ u.lgr.since = l.since + 1 ∧
        u.rd LGR_NEWEST.adr = BitVec.ofNat 32 l.next ∧ (∀ x, (x < p ∨ p + 64 ≤ x) → u.byte x = s.byte x)) ∧
    (l.hourDue = none → exec .hourEntry s = .next s) ∧
    (∀ t incs, runs → l.hourDue = some (t, incs) → l.queue = [] → ∃ u, exec .hourEntry s = .next u ∧
      u.lgr.hourDue = none ∧ u.lgr.next = l.next + 1 ∧ u.lgr.lostHour = 0 ∧ u.lgr.lrcSeen = false ∧
      u.byte (p + 4) = 0x10#8 ∧ (∀ x, (x < p ∨ p + 64 ≤ x) → u.byte x = s.byte x)) ∧
    ((s.lgrRuns = false ∨ l.seals = []) → exec .ledgerSeal s = .next s) ∧
    (∀ r q, runs → idle → l.seals = r :: q → ∃ u, exec .ledgerSeal s = .next u ∧ u.lgr.next = l.next + 4 ∧
      u.lgr.seals = q ∧ u.lgr.since = 0 ∧ u.lgr.sealNum = l.sealNum + 1 ∧ u.lgr.prevSeal = some l.next ∧
      u.lgr.lostSeal = 0 ∧ u.rd LGR_NEWEST.adr = BitVec.ofNat 32 (l.next + 3) ∧ u.get LGR_STAT.SEALPEND = 0) ∧
    (takes → s.get LGR_CTRL.TYPE ≠ 0x24 → Obligations.writes s ag LGR_CTRL.adr (exec (.lgrNote ag) s) (fun u =>
      u.mem = s.mem ∧ u.lgr.queue.length = l.queue.length + 1 ∧ ∃ e ∈ u.lgr.queue, e.type = 0x40 ∧
        e.code = s.get LGR_CTRL.CODE ∧ e.tick = s.cal.ticks)) ∧
    (takes → 7 ∉ l.seals → Obligations.writes s ag LGR_CTRL.adr (exec (.lgrSealRequest ag) s) (fun u =>
      u.mem = s.mem ∧ u.lgr = { l with seals := l.seals ++ [7] })) ∧
    ((s.aoOn = false ∨ l.recovered = true) → exec .ledgerRecovery s = .next s) ∧
    (s.aoOn = true → l.recovered = false → ∃ u, exec .ledgerRecovery s = .next u ∧ u.lgr.recovered = true ∧
      ((s.lcs = .maker ∨ s.lcs = .provisioned) → u = { s with lgr := { l with recovered := true } })) ∧
    ((s.lgrRuns = false ∨ s.condenseSpan = none) → exec .ledgerCondense s = .next s) ∧
    (∀ f e ents, runs → s.condenseSpan = some (f, e, ents) → ∃ u, exec .ledgerCondense s = .next u ∧
      u.rd LGR_OLDUNACK.adr = BitVec.ofNat 32 (e + 1) ∧ u.lgr.merged = (f, e) :: l.merged ∧
      u.lgr.condense = true) ∧
    (¬ watched → exec (.tamperAssert j) s = .next s) ∧
    (watched → ∃ u, exec (.tamperAssert j) s = .next u ∧ u.bit LGR_TAMP_STAT.SEEN j = true ∧
      u.bit LGR_TAMP_STAT.LVL j = true ∧ u.mem = s.mem) ∧
    (¬ moves → exec (.parkedMotionSample a b) s = .next s) ∧
    (moves → ∃ u, exec (.parkedMotionSample a b) s = .next u ∧ u.lgr.pmPins = (a, b) ∧ u.mem = s.mem ∧
      u.rd LGR_PM_CNT.adr = s.rd LGR_PM_CNT.adr + BitVec.ofNat 32 edges ∧
      (s.get LGR_PM_CFG.THR = 0 → u.lgr.pmAcc = 0 ∧ u.lgr.queue = l.queue))

/-! ### Serial ports, touch keys and display -/

/-- R569 to R581: the serial ports. A character is decided bit by bit by majority; one that is received goes to the end of
the receive queue, or sets ROVR; with address listening only a matching address and what follows it are stored. The
oldest character is sent. Reads and writes of `Un_DATA` take and append; a flush and a change of depth empty a queue.

Rests on choices of the model: log entry 60. -/
def Obligations.SerialPorts : Prop :=
  ∀ (s : State) (ag : Agent) (n : UartId) (c : SerialChar) (val : Word) (ch : BitVec 9) (rx tx : Bool),
    let u0 := s.uart[n]
    let listens := s.uartListens n = true ∧ (2 ≤ n.val ∨ s.on APM_CLKSTAT.BRCRUN = true)
    let good := c.startHigh = false ∨ s.on (U_CTRL.SH210 n) = true
    let e := s.rxChar n c
    let plain := s.on (U_CTRL.ABEN n) = false ∧ s.on (U_CTRL.ADDR9 n) = false
    let stores (u : State) : Prop := (u.uart[n]).rx = u0.rx ++ [e]
    let others (u : State) : Prop := (∀ j : UartId, n ≠ j → u.uart[j] = s.uart[j]) ∧ u.mem = s.mem
    let nine := s.on (U_CTRL.DATA9 n) || s.on (U_CTRL.ADDR9 n)
    (∀ b : List Sample3, c.samples = b → b.length = 9 → nine = false → s.get (U_CTRL.PAR n) = 0 →
      s.on (U_CTRL.STOP2 n) = false → s.on (U_CTRL.SH210 n) = false →
      let bits := b.map (fun x => (x.early && x.mid) || (x.early && x.late) || (x.mid && x.late))
      e = ofBits (bits.take 8) + (if bits.getD 8 true then 0 else 2048) + (if bits.any (fun x => x) then 0 else 4096)) ∧
    (s.uartListens n = false → exec (.uartCharReceived n c) s = .next s) ∧
    (listens → ¬ good → ∃ u, exec (.uartCharReceived n c) s = .next u ∧ u.get (U_STAT.GLITCH n) = 1 ∧ u.uart = s.uart ∧ u.mem = s.mem) ∧
    (listens → good → plain → u0.rx.length < s.rxSize n → ∃ u, exec (.uartCharReceived n c) s = .next u ∧ stores u ∧ others u ∧
      (1024 ≤ e → u.get (U_STAT.ERR n) = 1)) ∧
    (listens → good → plain → s.rxSize n ≤ u0.rx.length → ∃ u, exec (.uartCharReceived n c) s = .next u ∧ u.get (U_STAT.ROVR n) = 1 ∧
      u.uart = s.uart ∧ u.mem = s.mem) ∧
    (listens → good → s.on (U_CTRL.ABEN n) = false → s.on (U_CTRL.ADDR9 n) = true → e.testBit 8 = true →
      (s.addrMatch n e = true → u0.rx.length < s.rxSize n → ∃ u, exec (.uartCharReceived n c) s = .next u ∧ stores u ∧ others u ∧
        (u.uart[n]).matched = true ∧ u.get (U_STAT.MATCH n) = 1) ∧
      (s.addrMatch n e = false → ∃ u, exec (.uartCharReceived n c) s = .next u ∧ others u ∧ u.uart[n] = { u0 with matched := false })) ∧
    (listens → good → s.on (U_CTRL.ABEN n) = false → s.on (U_CTRL.ADDR9 n) = true → e.testBit 8 = false →
      u0.matched = false → ∃ u, exec (.uartCharReceived n c) s = .next u ∧ u.uart = s.uart ∧ u.mem = s.mem) ∧
    (u0.tx = [] → exec (.uartTxStart n) s = .next s) ∧
    (∀ x q, u0.tx = x :: q → s.uartClock n = true → s.on (U_CTRL.TXEN n) = true →
      (2 ≤ n.val ∨ s.on APM_CLKSTAT.BRCRUN = true) → ∃ u, exec (.uartTxStart n) s = .next u ∧ others u ∧
        u.reg = s.reg ∧ u.uart[n] = { u0 with tx := q, out := u0.out ++ [if nine then x % 512 else x % 256] }) ∧
    Obligations.writes s ag (U_DATA.adr n) (exec (.uartDataWrite ag n ch) s) (fun u => others u ∧
      (u0.tx.length < s.txSize n → u.uart[n] = { u0 with tx := u0.tx ++ [ch.toNat] } ∧ u.reg = s.reg) ∧
      (s.txSize n ≤ u0.tx.length → u.uart = s.uart ∧ u.get (U_STAT.TOVR n) = 1)) ∧
    (u0.rx = [] → Obligations.reads s ag (U_DATA.adr n) (exec (.uartDataRead ag n) s) 0 (fun u => u.uart = s.uart ∧
      u.reg = s.reg ∧ u.mem = s.mem)) ∧
    (∀ x q, u0.rx = x :: q → x < 512 → Obligations.reads s ag (U_DATA.adr n) (exec (.uartDataRead ag n) s)
      (BitVec.ofNat 32 (2 ^ 31 + x)) (fun u => others u ∧ (u.uart[n]).rx = q ∧ (u.uart[n]).tx = u0.tx ∧ u.reg = s.reg)) ∧
    Obligations.writes s ag (U_CTRL.adr n) (exec (.rxflush ag n) s) (fun u => others u ∧ (u.uart[n]).rx = [] ∧
      (u.uart[n]).tx = u0.tx) ∧
    Obligations.writes s ag (U_CTRL.adr n) (exec (.txflush ag n) s) (fun u => others u ∧ (u.uart[n]).tx = [] ∧
      (u.uart[n]).rx = u0.rx) ∧
    Obligations.writes s ag (U_QCFG.adr n) (exec (.uartDepthWrite ag n val) s) (fun u => others u ∧
      u.get (U_QCFG.RXDEPTH n) = fieldOf val 18 16 ∧ u.get (U_QCFG.TXDEPTH n) = fieldOf val 26 24 ∧
      (u.uart[n]).rx = (if fieldOf val 18 16 = s.get (U_QCFG.RXDEPTH n) then u0.rx else []) ∧
      (u.uart[n]).tx = (if fieldOf val 26 24 = s.get (U_QCFG.TXDEPTH n) then u0.tx else [])) ∧
    ((s.uartClock n = false ∨ s.on (U_CTRL.RXEN n) = false ∨ u0.rx = []) → exec (.uartIdle n) s = .next s) ∧
    (s.uartClock n = true → s.on (U_CTRL.RXEN n) = true → u0.rx ≠ [] → ∃ u, exec (.uartIdle n) s = .next u ∧
      u.get (U_STAT.IDLE n) = 1 ∧ u.uart = s.uart ∧ (∀ a, a ≠ U_STAT.adr n → u.rd a = s.rd a) ∧ u.mem = s.mem) ∧
    Obligations.writes s ag (U_CTRL.adr n) (exec (.uartDisable ag n rx tx) s) (fun u => others u ∧
      u.on (U_CTRL.RXEN n) = (s.on (U_CTRL.RXEN n) && !rx) ∧ u.on (U_CTRL.TXEN n) = (s.on (U_CTRL.TXEN n) && !tx) ∧
      (u.uart[n]).rx = u0.rx ∧ (u.uart[n]).tx = u0.tx)

/-- R585 to R597: the touch controller. A controller without clock or enable does not scan; a calibration scan clears
CAL; a key whose count exceeds its base by the threshold is pressed and reported. Requests for recalibration add up, a
read takes the oldest report, the noise tasks set and clear the charger-noise latch.

R600 to R608: the display. An update of the enabled display waits for the boundary of a frame pair, a second one for
the same region supersedes it; the boundary shows what waits, takes the band and the map that were chosen, and
lets a disabled display end. A temperature chooses a band; a map is loaded from the display-map region of MRAM.

Rests on choices of the model: log entries 61, 62. -/
def Obligations.TouchAndDisplay : Prop :=
  (∀ (s : State) (ag : Agent) (raws : List Nat) (hi : Bool) (keys : Word),
    let t := s.tch
    let scans := s.tchClock = true ∧ s.on TCH_CTRL.EN = true
    let calm := s.tchNoise = false ∧ s.on TCH_CTRL.MODE = false ∧ s.on TCH_CTRL.WETEN = false ∧
      s.on TCH_STAT.WET = false ∧ s.on TCH_STAT.CAL = false ∧ t.recal = 0 ∧ s.get TCH_CAL.DEB ≤ 1 ∧
      s.on APM_CLKSTAT.BRCRUN = true ∧ t.nextScan ≤ s.cal.ticks
    let noise (v : Nat) (u : State) : Prop := u.get TCH_STAT.CNTASK = v ∧ u.tch = t ∧ u.mem = s.mem
    let lost (k : Nat) (u : State) : Prop := u.bit (EVF_TLOST.LOST (k / 32)) (k % 32) = true ∧ u.tch = t ∧ u.mem = s.mem
    (¬ scans → exec (.touchScan raws) s = .next s) ∧
    (scans → t.nextScan ≤ s.cal.ticks → s.on APM_CLKSTAT.BRCRUN = true → ∃ u, exec (.touchScan raws) s = .next u ∧
      u.tch.lastScan = s.cal.ticks ∧ u.tch.nextScan = s.cal.ticks + u.tchPeriod ∧ u.mem = s.mem ∧
      (s.on TCH_STAT.CAL = true → u.get TCH_STAT.CAL = 0)) ∧
    (∀ (k : Fin 64) (raw : Nat), scans → calm → s.tchKeys = [k] → raws = [raw] → raw < 65536 →
      s.tchPressed k = false → s.get (TCH_KEY.BASE k) < raw → s.get (TCH_KEY.BASE k) + s.get TCH_THR.TTH ≤ raw →
      t.reports.length < 8 → ∃ u, exec (.touchScan raws) s = .next u ∧ u.tchPressed k = true ∧ u.get (TCH_KEY.RAW k) = raw ∧
        u.get (TCH_KEY.BASE k) = s.get (TCH_KEY.BASE k) ∧ u.tch.reports = t.reports ++ [{ key := k, kind := 0 }]) ∧
    Obligations.writes s ag (if hi then TCH_RECAL_HI.adr else TCH_RECAL_LO.adr) (exec (.touchRecal ag hi keys) s)
      (fun u => u.reg = s.reg ∧ u.mem = s.mem ∧ u.tch = { t with recal := t.recal |||
        (if hi then keys.setWidth 64 <<< 32 else keys.setWidth 64) }) ∧
    (t.reports = [] → Obligations.reads s ag TCH_REPORT.adr (exec (.touchReportRead ag) s) 0 (fun u => u.tch = t ∧
      u.reg = s.reg ∧ u.mem = s.mem)) ∧
    (∀ x q, t.reports = x :: q → x.key < 64 → x.kind < 8 → Obligations.reads s ag TCH_REPORT.adr
      (exec (.touchReportRead ag) s) (BitVec.ofNat 32 (2 ^ 31 + x.kind * 256 + x.key)) (fun u =>
        u.tch = { t with reports := q } ∧ u.reg = s.reg ∧ u.mem = s.mem)) ∧
    (s.arrivalsOf 0xC8 = [] → exec .touchEnterNoiseTask s = .next s) ∧
    (s.arrivalsOf 0xC9 = [] → exec .touchLeaveNoiseTask s = .next s) ∧
    (∀ a l, s.arrivalsOf 0xC8 = a :: l → ∃ u, exec .touchEnterNoiseTask s = .next u ∧
      (s.tchClock = true → noise 1 u) ∧ (s.tchClock = false → lost 0xC8 u)) ∧
    (∀ a l, s.arrivalsOf 0xC9 = a :: l → s.arrivalsOf 0xC8 = [] → ∃ u, exec .touchLeaveNoiseTask s = .next u ∧
      (s.tchClock = true → noise 0 u) ∧ (s.tchClock = false → lost 0xC9 u)) ∧
    Obligations.writes s ag TCH_CTRL.adr (exec (.touchDisable ag) s) (fun u => u.get TCH_CTRL.EN = 0 ∧ u.tch = t ∧
      (∀ a, a ≠ TCH_CTRL.adr → u.rd a = s.rd a) ∧ u.mem = s.mem)) ∧
  (∀ (s : State) (ag : Agent) (mask : BitVec 8) (temp : Int) (val : Word),
    let l := s.lcd
    let mux := s.on LCD_CTRL.MUX
    let off := fieldOf val 17 0
    let bad := s.on LCD_STAT.TRIMBUSY = true ∨ 0x40000 < off + 384
    let others (u : State) : Prop := (∀ a, a ≠ LCD_STAT.adr → u.rd a = s.rd a) ∧ u.mem = s.mem
    Obligations.writes s ag LCD_UPD.adr (exec (.lcdUpd ag mask) s) (fun u => others u ∧
      (s.on LCD_CTRL.EN = true → u.lcd.shown = l.shown ∧ ∀ r, r < 8 →
        u.bit LCD_STAT.PEND r = (s.bit LCD_STAT.PEND r || mask.getLsbD r) ∧
        u.bit LCD_STAT.SUPERSEDED r = (s.bit LCD_STAT.SUPERSEDED r || (s.bit LCD_STAT.PEND r && mask.getLsbD r))) ∧
      (s.on LCD_CTRL.EN = false → u.lcd.pending = l.pending ∧ u.rd LCD_STAT.adr = s.rd LCD_STAT.adr ∧
        (mask = 0 → u.lcd = l))) ∧
    (l.driving = false → exec .framePairBoundary s = .next s) ∧
    (l.driving = true → ∃ u, exec .framePairBoundary s = .next u ∧ u.get LCD_STAT.PEND = 0 ∧
      u.lcd.shown = (bitsSet 8 (s.get LCD_STAT.PEND)).foldl (fun d r => copyRegion mux r l.pending d) l.shown ∧
      u.lcd.band = none ∧ u.lcd.loaded = none ∧ u.lcd.trim = l.loaded.getD l.trim ∧ u.lcd.load = l.load ∧
      u.get LCD_STAT.BAND = l.band.getD (s.get LCD_STAT.BAND) % 16 ∧ u.lcd.driving = s.lcdActive ∧
      (s.lcdActive = false → u.get LCD_STAT.PUMPOK = 0) ∧ u.mem = s.mem) ∧
    (s.lcdActive = false → exec (.lcdTempSample temp) s = .next s) ∧
    (s.lcdActive = true →
      let t := clampInt (-128) 127 temp
      let b := s.bandFor t
      let c := s.bandFor (t + 2)
      let cur := s.get LCD_STAT.BAND
      ∃ u, exec (.lcdTempSample temp) s = .next u ∧ u.getInt LCD_TEMP.TEMP = t ∧ u.mem = s.mem ∧
        (∀ a, a ≠ LCD_TEMP.adr → u.rd a = s.rd a) ∧ u.lcd = { l with band := some (if cur < b then b
          else if b < cur ∧ c < cur then c else cur) }) ∧
    Obligations.writes s ag LCD_TRIM.adr (exec (.lcdTrimLoad ag val) s) (fun u => u.mem = s.mem ∧
      (bad → u.get LCD_STAT.TRIMERR = 1 ∧ u.lcd = l) ∧
      (¬ bad → u.get LCD_STAT.TRIMBUSY = 1 ∧ u.lcd = { l with load := some off })) ∧
    (l.load = none → exec .lcdTrimLoadDone s = .next s) ∧
    (∀ o, l.load = some o → ∃ u, exec .lcdTrimLoadDone s = .next u ∧ u.get LCD_STAT.TRIMBUSY = 0 ∧
      u.lcd.load = none ∧ u.lcd.trim = l.trim ∧ u.mem = s.mem ∧ (s.upset = [] → others u) ∧
      (s.spoiltAny (0x11B00000 + o) 384 = true → u.get LCD_STAT.TRIMERR = 1 ∧ u.lcd.loaded = l.loaded) ∧
      (s.spoiltAny (0x11B00000 + o) 384 = false → ∃ m, u.lcd.loaded = some m ∧ ∀ i, i < 384 →
        SMap.get (fun _ => 63#8) m i = s.byte (0x11B00000 + o + i) &&& 63#8)) ∧
    (l.driving = false → exec .lcdPumpSettled s = .next s) ∧
    (l.driving = true → ∃ u, exec .lcdPumpSettled s = .next u ∧ u.get LCD_STAT.PUMPOK = 1 ∧ others u ∧ u.lcd = l) ∧
    Obligations.writes s ag LCD_CTRL.adr (exec (.lcdDisable ag) s) (fun u => u.get LCD_CTRL.EN = 0 ∧ u.lcd = l ∧
      (∀ a, a ≠ LCD_CTRL.adr → u.rd a = s.rd a) ∧ u.mem = s.mem))

/-! ### Provisioning, debug and JTAG -/

/-- R389 to R391: provisioning, debug and JTAG. An item that is complete on MBX14 is answered with its status and stored
when that is 0; the unlock word alone, in an authenticated put of a session with LIFE that is open, opens debug;
a debug transaction is made and answered once all its words have come. JTAG gives what the state permits, BYPASS
otherwise.

Rests on choices of the model: log entries 58, 59. -/
def Obligations.ProvisioningAndDebug : Prop :=
  ∀ (s : State) (acc : RegAccess),
    let q14 := (s.chan[14]).dev
    let q13 := (s.chan[13]).dev
    let room := (s.chan[14]).host.length < 8
    let opens (w : Word) (p : PutInfo) : Prop := w = 0x44424755 ∧ p.auth = true ∧ p.life = true ∧ p.count = 1 ∧
      (s.session p.tag).isSome = true
    let full := s.lcs ≠ .deployed ∧ s.dbgOpen = true
    let tap (op : JtagOp) (i : TapInstr) (a : Option Word) : Prop :=
      exec (.jtagAccess op) s = .next { s with tap := i, answer := a }
    ((s.firmwareUp = false ∨ s.prov ++ q14 = []) → exec .provisioningItem s = .next s) ∧
    (∀ h l, s.firmwareUp = true → s.prov ++ q14 = h :: l → l.length < fieldOf h 15 0 →
      ∃ u, exec .provisioningItem s = .next u ∧ u.prov = h :: l ∧ (u.chan[14]).dev = [] ∧ u.sec = s.sec ∧ u.reg = s.reg) ∧
    (∀ h l, s.firmwareUp = true → s.prov ++ q14 = h :: l → fieldOf h 15 0 ≤ l.length → room →
      let st := s.itemStatus (fieldOf h 31 16) (fieldOf h 15 0)
      ∃ u, exec .provisioningItem s = .next u ∧ u.prov = [] ∧ (u.chan[14]).dev = l.drop (fieldOf h 15 0) ∧
        (u.chan[14]).host = (s.chan[14]).host ++ [BitVec.ofNat 32 st] ∧ u.mem = s.mem ∧
        u.sec = (if st = 0 then s.sec.store (fieldOf h 31 16) (l.take (fieldOf h 15 0)) else s.sec)) ∧
    ((s.firmwareUp = false ∨ s.dbgChan = true ∨ q13.length ≠ 1 ∨ s.puts[0] = none) →
      exec .debugUnlock s = .next s) ∧
    (∀ w p, s.firmwareUp = true → s.dbgChan = false → q13 = [w] → s.puts[0] = some p →
      (opens w p → ∃ u, exec .debugUnlock s = .next u ∧ u.openBy = some p.tag ∧ (u.chan[13]).dev = [] ∧
        u.reg = s.reg ∧ u.mem = s.mem) ∧
      (¬ opens w p → exec .debugUnlock s = .next s)) ∧
    ((s.mbxOpen = false ∨ s.dbgChan = false ∨ q13.length < 2) → exec .debugTransaction s = .next s) ∧
    (∀ w0 w1, s.mbxOpen = true → s.dbgChan = true → q13 = [w0, w1] → w0.getLsbD 31 = true →
      exec .debugTransaction s = .next s) ∧
    (∀ w0 w1 l, s.mbxOpen = true → s.dbgChan = true → q13 = w0 :: w1 :: l → (s.chan[13]).host.length < 8 →
      let a := fieldOf w0 7 0 * 2 ^ 32 + w1.toNat
      let out (u : State) (l : List Word) (w : Word) : Prop := (u.chan[13]).dev = l ∧
        (u.chan[13]).host = (s.chan[13]).host ++ [w]
      (w0.getLsbD 31 = false → isRegAddr a = true →
        exec .debugTransaction s = .next ((s.setQueue 13 false l).debugAnswer a none)) ∧
      (w0.getLsbD 31 = false → s.debugMem a false = true → s.spoiltAny a 4 = false →
        ∃ u, exec .debugTransaction s = .next u ∧ out u l (BitVec.ofNat 32 (s.memNum a 4)) ∧ u.mem = s.mem) ∧
      (w0.getLsbD 31 = false → isRegAddr a = false → (s.debugMem a false = false ∨ s.spoiltAny a 4 = true) →
        ∃ u, exec .debugTransaction s = .next u ∧ u.get SEC_DBG.BERR = 1 ∧ out u l 0xFFFFFFFF ∧ u.mem = s.mem) ∧
      (∀ w2 m, w0.getLsbD 31 = true → l = w2 :: m →
        (isRegAddr a = true →
          exec .debugTransaction s = .next ((s.setQueue 13 false m).debugAnswer a (some w2))) ∧
        (s.debugMem a true = true → ∃ u, exec .debugTransaction s = .next u ∧ out u m 0 ∧ u.le a 4 = w2.toNat ∧
          (∀ x, (x < a ∨ a + 4 ≤ x) → u.byte x = s.byte x)) ∧
        (isRegAddr a = false → s.debugMem a true = false → ∃ u, exec .debugTransaction s = .next u ∧
          u.get SEC_DBG.BERR = 1 ∧ out u m 0xFFFFFFFF ∧ u.mem = s.mem))) ∧
    exec (.jtagAccess .idcode) s = .next { s with tap := .idcode, answer := some Config.idcode } ∧
    exec (.jtagAccess .bypass) s = .next { s with tap := .bypass, answer := none } ∧
    exec (.jtagAccess .sample) s = .next { s with
      tap := if full ∨ s.lcs = .deployed then .sample else .bypass, answer := none } ∧
    (¬ full → exec (.jtagAccess (.access acc)) s = .next { s with tap := .bypass, answer := none }) ∧
    (full →
      let a := acc.adr.toNat
      let gives (v : State) (w : Option Word) : Prop :=
        exec (.jtagAccess (.access acc)) s = .next { v with tap := .access, answer := w }
      (isRegAddr a = true → acc.write = none → gives (s.busRead .debug a).2 (s.busRead .debug a).1) ∧
      (∀ w, isRegAddr a = true → acc.write = some w →
        gives (s.busWrite .debug a w).2 (if (s.busWrite .debug a w).1 then some 0 else none)) ∧
      (acc.write = none → s.debugMem a false = true → s.spoiltAny a 4 = false →
        gives (s.eccReads a 4) (some (BitVec.ofNat 32 (s.memNum a 4)))) ∧
      (∀ w, acc.write = some w → s.debugMem a true = true → gives (s.putLe a 4 w.toNat) (some 0)) ∧
      (isRegAddr a = false → s.debugMem a acc.write.isSome = false → gives s none))

/-! ### Host commands -/

/-- The command of the table that a request with a host command is (R72). -/
def Obligations.asInstr (rq : Req) : HostCmd → Instr
  | .identify => .identify rq
  | .windowRead off cnt => .windowRead rq off cnt
  | .windowWrite off val => .windowWrite rq off val
  | .sessionOpen rights nonce => .sessionOpen rq rights nonce
  | .sessionClose => .sessionClose rq
  | .stageWrite item words => .stageWrite rq item words
  | .stageRead item n bank => .stageRead rq item n bank
  | .commit epoch bound flags tmo arg => .commit rq epoch bound flags tmo arg
  | .abort => .abort rq
  | .queryEpoch => .queryEpoch rq
  | .arm mask => .arm rq mask
  | .disarm mask => .disarm rq mask
  | .setReference sl idx val => .setReference rq sl idx val
  | .tripClear mask => .tripClear rq mask
  | .captureStart mask kb => .captureStart rq mask kb
  | .captureTrigger => .captureTrigger rq
  | .captureRead off len => .captureRead rq off len
  | .captureFreeze mode t => .captureFreeze rq mode t
  | .ledgerRead first cnt => .ledgerRead rq first cnt
  | .ledgerAck idx head r t => .ledgerAck rq idx head r t
  | .ledgerStatus => .ledgerStatus rq
  | .timeSet cal => .timeSet rq cal
  | .timeQuery => .timeQuery rq
  | .imageWrite slot flags off data => .imageWrite rq slot flags off data
  | .imageActivate slot => .imageActivate rq slot
  | .imageStatus => .imageStatus rq
  | .modeRequest mode => .modeRequest rq mode
  | .vote dom val => .vote rq dom val
  | .mbxPut ch words => .mbxPut rq ch words
  | .mbxGet ch n => .mbxGet rq ch n
  | .enumerate adr => .enumerate rq adr
  | .ringStatus => .ringStatus rq
  | .faultInject port kind n etype first bits => .faultInject rq port kind n etype first bits
  | .lcAdvance target => .lcAdvance rq target
  | .returnRequest nonce r t => .returnRequest rq nonce r t
  | .replaceHandover old idx head r t => .replaceHandover rq old idx head r t

/-- R43, R47, R48, R67, R72: a host command laid out as its opcode and parameters is read back as itself, whatever its
operands, and a request laid out as a frame is read back as itself.

Rests on choices of the model: log entry 41. -/
def Obligations.HostCommandRoundTrip : Prop :=
  ∀ (rq : Req) (c : HostCmd) (dst : BitVec 48) (etype : Nat) (tail : List Byte),
    (Obligations.asInstr rq c).wf = true → etype < 65536 → etype ≠ 0x8100 →
    parseHost (hostOp c) (hostParams c) = .ok c ∧
    parseReq rq.port (etherFrame dst rq.mac rq.vlan etype (requestBody rq c ++ tail)) = rq ∧
    ((frameContent (etherFrame dst rq.mac rq.vlan etype (requestBody rq c ++ tail))).drop 16).take
      (hostParams c).length = hostParams c

/-- The request is for this device alone, and comes in on a port that is up (R42, R296). -/
def Obligations.forUs (s : State) (rq : Req) : Prop :=
  s.portUp rq.port = true ∧ rq.dst.toNat < 64 ∧ s.addr = some rq.dst.toNat ∧
    (s.on RING_CFG.ROOT = false ∨ rq.port ≠ .pa)

/-- R51 to R59, R66, R68, R69, R500: how the link responder takes a request. On a port that is down nothing arrives. A request
that asks again for a kept reply gets it; one that fails check 5, 3 or 4 is refused with that check's status; any other
command frame takes a credit and is judged by checks 8 to 12, then refused or carried out, a mode request that the mode
table refuses with REQREF set; a window frame is answered at once.

Rests on choices of the model: log entries 14, 34, 35, 80. -/
def Obligations.HostRequests : Prop :=
  ∀ (s : State) (rq : Req) (c : HostCmd), (Obligations.asInstr rq c).wf = true →
    let i := s.incoming rq c
    let w := s.waitingOf i
    let used : State := if rq.auth then s.useSession rq.tag rq.seq else s
    let u : State := { used with credits := s.credits - 1 }
    let st := u.hostCheck w (hostParams c) c
    let told := if st = 0x0201 then u.refusedMode (hostOp c) (hostParams c) else u
    let refused (code : Nat) : Prop :=
      exec (Obligations.asInstr rq c) s = .next (({ s with free := s.free + 1, nocred := if code = 0x0301 then min 255 (s.nocred + 1) else s.nocred }
        |>.answerNow w code []).refusedCommit (hostOp c) (hostParams c))
    let window := hostOp c = 1 ∨ hostOp c = 2
    let runs := s.fwst = 2 ∨ s.fwst = 3
    (s.portUp rq.port = false → exec (Obligations.asInstr rq c) s = .next s) ∧
    (Obligations.forUs s rq →
      (∀ k, s.keptReply i = some k → exec (Obligations.asInstr rq c) s = .next (s.transmit k)) ∧
      (s.keptReply i = none →
        (window → s.authOk i = false → refused 0x0202) ∧
        (¬ window → s.fwst < 2 → refused 0x0300) ∧ (¬ window → s.fwst = 4 → refused 0x0F00) ∧
        (¬ window → runs → s.credits = 0 → refused 0x0301) ∧
        (¬ window → runs → s.credits ≠ 0 → s.authOk i = false → refused 0x0202) ∧
        (¬ window → runs → s.credits ≠ 0 → s.authOk i = true →
          (st ≠ 0 → exec (Obligations.asInstr rq c) s =
            .next (((told.finish w st []).refusedCommit (hostOp c) (hostParams c)).wornOut rq.tag)) ∧
          (st = 0 → exec (Obligations.asInstr rq c) s = .next ((u.carryOut w (hostParams c) c).wornOut rq.tag))) ∧
        (¬ window → runs → s.credits ≠ 0 → s.authOk i = true → st = 0x0201 → s.recovering = false →
          ∀ m, c = .modeRequest m → (u.refusedMode (hostOp c) (hostParams c)).get APM_MODE.REQREF = 1) ∧
        (∀ off cnt, c = .windowRead off cnt → s.authOk i = true → rq.ackReq = false → rq.epoch = 0 →
          off.toNat % 4 = 0 → 1 ≤ cnt.toNat → cnt.toNat ≤ 12 → off.toNat + 4 * cnt.toNat ≤ 0x30 →
          exec (.windowRead rq off cnt) s = .next ((used.answerNow w 0 (wordBytes ((List.range cnt.toNat).map (fun k =>
            used.window (off.toNat / 4 + k))))).wornOut rq.tag)) ∧
        (∀ val, c = .windowWrite 0x2C val → s.authOk i = true → rq.ackReq = false → rq.epoch = 0 →
          rq.express = false → s.lcs = .maker →
          exec (.windowWrite rq 0x2C val) s = .next ({ used.answerNow w 0 [] with scratch := val }.wornOut rq.tag))))

/-- A host command for this device that passes the checks of the link responder and of firmware, without a wish for an
ACCEPTED reply, leads to a state with `P`, which names the command as it waits, the state in which it is carried out, and the state
after it. -/
def Obligations.hosted (s : State) (rq : Req) (c : HostCmd) (P : Waiting → State → State → Prop) : Prop :=
  let i := s.incoming rq c
  let w := s.waitingOf i
  let u : State := { (if rq.auth then s.useSession rq.tag rq.seq else s) with credits := s.credits - 1 }
  (Obligations.asInstr rq c).wf = true → Obligations.forUs s rq → s.judge i = .command →
  u.hostCheck w (hostParams c) c = 0 → rq.ackReq = false → (∀ x ∈ s.sessions, x.count < 65534) →
  ∃ t, exec (Obligations.asInstr rq c) s = .next t ∧ P w u t

/-- A command whose effect is `v`, and which is answered with status 0 and some parameters. -/
def Obligations.answers (v : State) (params : List Byte) (w : Waiting) (t : State) : Prop := t = v.finish w 0 params

/-- R57, R60, R72, R80, R82 to R85, R88, R91, R94, R378, R379, R381: what the commands of identity, staging, capture, ledger
reading and images do once they have passed their checks.

Rests on choices of the model: log entries 17, 36, 39, 44. -/
def Obligations.HostReplies : Prop :=
  ∀ (s : State) (rq : Req),
    let runs := Obligations.hosted s rq
    let ok := Obligations.answers
    runs .identify (fun w u t => ok u (beBytes 4 u.winId.toNat ++ beBytes 4 u.winRev.toNat ++ beBytes 6 u.mac.toNat ++
      zeros 2 ++ identityHash) w t) ∧
    (∀ rights nonce, runs (.sessionOpen rights nonce) (fun w u t =>
      (4 ≤ u.sessions.length → t = u.finish w 0x0300 []) ∧
      (∀ root, u.sessions.length < 4 → u.sessionRoot = some root → ∃ x, t.sessions = u.sessions ++ [x] ∧
        x.rights = rights &&& rightsMask u.lcs ∧ x.tag ≠ 0 ∧ (∀ y ∈ u.sessions, y.tag ≠ x.tag) ∧ x.count = 0 ∧
        x.last = none ∧ x.key = sessionKey root nonce (Config.nonce u.draws) x.rights x.tag ∧
        t.replies.length = u.replies.length + 1 ∧ t.reg = u.reg))) ∧
    runs .sessionClose (fun w u t => ok (u.closeSession rq.tag) [] w t ∧ t.session rq.tag = none) ∧
    (∀ item words, runs (.stageWrite item words) (fun w u t =>
      (u.commit.isSome = true → t = u.finish w 0x0300 []) ∧
      (u.commit = none → (u.stageWords item.toNat words).bank.length ≤ 65536 →
        ok (u.stageWords item.toNat words) [] w t ∧ t.reg = u.reg ∧ t.mem = u.mem))) ∧
    (∀ item n bank, runs (.stageRead item n bank) (fun w u t => ok u (wordBytes ((List.range n.toNat).map (fun k =>
      u.stageWord (bank == 1) (item.toNat + 4 * k)))) w t)) ∧
    (∀ epoch tmo, runs (.commit epoch 0 0 tmo 0) (fun w u t =>
      (u.commit = none → u.bankCold = true → t = u.finish w 0x0302 []) ∧
      (u.commit = none → u.bankCold = false → t.waiting = u.waiting ++ [w] ∧ t.reg = u.reg ∧ ∃ x, t.commit = some x ∧
        x.epoch = epoch ∧ x.switchAt = some (u.now + 1) ∧ x.limit = u.now + usLc (1000 * tmo.toNat) ∧
        x.switched = false))) ∧
    runs .abort (fun w u t => t.bank = [] ∧
      (u.switchDue.cancelable = none → ok { u.switchDue with bank := [] } (zeros 4) w t) ∧
      (∀ x, u.switchDue.cancelable = some x → t.commit = none ∧ t.epoch = u.epoch)) ∧
    runs .queryEpoch (fun w u t => ok u (beBytes 4 u.winEpoch.toNat ++ beBytes 4 u.bank.length) w t) ∧
    (∀ mask kb v, runs (.captureStart mask kb) (fun w u t => u.grnStart mask.toNat kb.toNat = (.ok, v) →
      ok v [] w t)) ∧
    runs .captureTrigger (fun w u t => ok u.grnTrigger (beBytes 8 u.ptp) w t) ∧
    (∀ off len, runs (.captureRead off len) (fun w u t => ok u (u.grnRead off.toNat len.toNat) w t)) ∧
    (∀ mode time, runs (.captureFreeze mode time) (fun w u t =>
      (mode = 0 → ok (u.grnFreeze 2) (beBytes 8 u.ptp) w t) ∧
      (mode ≠ 0 → u.grnOpen = true → t.waiting = u.waiting ++ [w] ∧ t.grn.armed = true ∧
        t.rd GRN_FRZTIME_LO.adr = BitVec.ofNat 32 time.toNat))) ∧
    (∀ first cnt, runs (.ledgerRead first cnt) (fun w u t =>
      let slot (k : Nat) : List Byte :=
        if u.slotSpoilt (first.toNat + k) then List.replicate 64 0xFF#8 else u.bytes (slotAddr (first.toNat + k)) 64
      ok (u.slotReads (slotRange first.toNat cnt.toNat)) ((List.range cnt.toNat).flatMap slot) w t ∧
        (u.upset ≠ [] → (∃ k, k < cnt.toNat ∧ u.slotSpoilt (first.toNat + k) = true) → t.get LGR_STAT.ECC = 1))) ∧
    (∀ idx head r g, runs (.ledgerAck idx head r g) (fun w u t =>
      (u.ledgerSigned (beBytes 4 idx.toNat ++ beBytes 16 head.toNat) r g = true → ok (u.ledgerAck idx.toNat) [] w t ∧
        t.rd LGR_ACKED.adr = idx) ∧
      (u.ledgerSigned (beBytes 4 idx.toNat ++ beBytes 16 head.toNat) r g = false → t = u.finish w 0x0202 []))) ∧
    runs .ledgerStatus (fun w u t => ((u.lcs = .maker ∨ u.lcs = .provisioned) → ok u (zeros 32) w t) ∧
      (u.lcs = .deployed → ok u (beBytes 4 (u.get LGR_NEWEST.INDEX) ++ beBytes 4 (u.get LGR_OLDUNACK.INDEX) ++
        beBytes 4 (u.get LGR_ACKED.INDEX) ++ beBytes 4 (bitIf u.lgr.condense 0 + bitIf (u.on LGR_STAT.SEALPEND) 1) ++
        beBytes 16 u.lgr.head.toNat) w t)) ∧
    (∀ (slot : Fin 2) off data, runs (.imageWrite (BitVec.ofNat 8 slot) 1 off data) (fun w u t =>
      (u.img[slot]).state ≠ 1 → (t.img[slot]).state = 1 ∧ (t.img[slot]).owner = w.owner ∧ t.reg = u.reg ∧
        t.bytes (slotBase slot + off.toNat) data.length = data)) ∧
    (∀ slot : Fin 2, runs (.imageActivate (BitVec.ofNat 8 slot)) (fun w u t =>
      ((u.img[slot]).state = 3 → u.recovering = false → ok (u.putLe 0x11B40000 8 slot) [] w t) ∧
      ((u.img[slot]).state = 1 → t = u.finish w 0x0300 []))) ∧
    runs .imageStatus (fun w u t => ok u ([0, 1].flatMap (fun (k : Fin 2) =>
      [BitVec.ofNat 8 (u.img[k]).state, if u.preferred = k then 1#8 else 0#8] ++ zeros 2 ++
        beBytes 4 (u.imgVersion k) ++ beBytes 4 (u.imgLength k) ++ zeros 4)) w t)

/-- R73, R74, R90, R244, R289, R302, R317, R326, R387, R392 to R394, R500, R507, R561: what the commands of drives, time,
modes, mailboxes, the ring and the life-cycle do once they have passed their checks.

Rests on choices of the model: log entries 17, 37, 38, 39, 45. -/
def Obligations.HostActions : Prop :=
  ∀ (s : State) (rq : Req),
    let runs := Obligations.hosted s rq
    let ok := Obligations.answers
    (∀ mask, runs (.arm mask) (fun w u t => (u.armCold mask.toNat = true → t = u.finish w 0x0302 []) ∧
      (u.armCold mask.toNat = false →
        let v := (u.armReq mask.toNat).reach (u.now + 1)
        ok v (beBytes 4 v.armedMask) w t ∧ v.now = u.now + 1))) ∧
    (∀ mask, runs (.disarm mask) (fun w u t =>
      ok (u.disarmReq mask.toNat) (beBytes 4 (u.disarmReq mask.toNat).armedMask) w t ∧
        ∀ p : PairId, mask.getLsbD p = true → t.pairState p ≠ pRun)) ∧
    (∀ (n : SliceId) idx val, runs (.setReference (BitVec.ofNat 8 n) idx val) (fun w u t => u.commit = none →
      ok (u.refWrite n idx.toNat val (refRank (.core .mgt0))) [] w t)) ∧
    (∀ mask, runs (.tripClear mask) (fun _ u t =>
      t.get GOU_RTRIP.RX = (if u.clearable GOU_RTRIP.RX then 0 else u.get GOU_RTRIP.RX) ∧ t.pair = u.pair ∧
      t.replies.length = u.replies.length + 1)) ∧
    (∀ cal, runs (.timeSet cal) (fun w u t => u.on APM_CLKSTAT.BRCRUN = true →
      ((u.timeSet cal).1 = true → ok (u.timeSet cal).2 [] w t) ∧
      ((u.timeSet cal).1 = false → t = (u.timeSet cal).2.finish w 0x0102 []))) ∧
    runs .timeQuery (fun w u t => ∃ l, ok u l w t ∧ l.length = 24 ∧
      l.drop 12 = beBytes 8 u.ptp ++ beBytes 4 (u.rd RING_PTPOFF.adr).toNat) ∧
    runs (.modeRequest (BitVec.ofNat 8 mYard)) (fun w u t => u.mode = mField → u.anyArmed = false →
      t.mode = mYard ∧ t.replies.length = u.replies.length + 1) ∧
    runs (.modeRequest (BitVec.ofNat 8 mField)) (fun w u t => (u.mode = mField → ok u [] w t) ∧
      (u.mode = mYard → u.on RING_STAT.VERHOLD = true → t = (u.raise APM_MODE.REQREF).finish w 0x0103 [])) ∧
    (∀ (d : Fin 3) (cast : Bool), runs (.vote (BitVec.ofNat 8 d) (if cast then 1 else 0)) (fun w u t =>
      u.on APM_CLKSTAT.BRCRUN = true →
        let v := u.set (APM_VOTE.HOST d) (if cast then 1 else 0)
        t.get (APM_VOTE.HOST d) = (if cast then 1 else 0) ∧
          t = ((v.finish w 0 (beBytes 4 (v.rd (APM_VOTE.adr d)).toNat)).flush).domainVotes)) ∧
    (∀ (ch : ChanId) words, runs (.mbxPut (BitVec.ofNat 8 ch) words) (fun w u t =>
      (∃ v b, ok v [BitVec.ofNat 8 words.length, b] w t) ∧
      ((u.chan[ch]).dev.length + words.length ≤ 8 → (t.chan[ch]).dev = (u.chan[ch]).dev ++ words ∧
        (t.chan[ch]).host = (u.chan[ch]).host))) ∧
    (∀ (ch : ChanId) n, runs (.mbxGet (BitVec.ofNat 8 ch) n) (fun w u t =>
      (t.chan[ch]).host = (u.chan[ch]).host.drop n.toNat ∧ (t.chan[ch]).dev = (u.chan[ch]).dev ∧
        t.get (MBX_STAT.HCOLL ch) = 0 ∧ t.mem = u.mem)) ∧
    (∀ adr, s.addr = none → s.portUp rq.port = true → rq.dst = 0xFF → (s.on RING_CFG.ROOT = false ∨ rq.port ≠ .pa) →
      let i := s.incoming rq (.enumerate adr)
      let w := s.waitingOf i
      let u : State := { (if rq.auth then s.useSession rq.tag rq.seq else s) with credits := s.credits - 1 }
      s.judge i = .command → u.hostCheck w (hostParams (.enumerate adr)) (.enumerate adr) = 0 → rq.ackReq = false →
      ∃ t, exec (.enumerate rq adr) s = .next t ∧ t.addr = some adr.toNat ∧ t.upstream = portIx rq.port ∧
        t.replies.length = s.replies.length + 1 ∧ t.mem = s.mem) ∧
    runs .ringStatus (fun w u t => ∃ l, ok u l w t ∧ l.length = 16 ∧
      l.take 3 = [BitVec.ofNat 8 (u.addr.getD 0), BitVec.ofNat 8 u.upstream, BitVec.ofNat 8 (bitIf u.ringClosed 0 +
        bitIf u.shareStale 1 + bitIf (u.on RING_STAT.VERHOLD) 2)]) ∧
    (∀ (p : Fin 2) kind n et first bits, runs (.faultInject (BitVec.ofNat 8 p) kind n et first bits) (fun _ u t =>
      t.get (RING_INJ.KIND p) = (if kind = 0 then 0 else kind.toNat) ∧
      t.get (RING_INJ.ACTIVE p) = (if kind = 0 then 0 else 1) ∧ t.mem = u.mem)) ∧
    runs (.lcAdvance 1) (fun _ _ t => t.lcs = .provisioned ∧ t.sessions = []) ∧
    runs (.lcAdvance 2) (fun _ u t => t.lcs = .deployed ∧ t.sessions = [] ∧ t.lgr.next = 3 ∧
      (u.ao.phase ≠ .off → u.on HRV_STAT.SEALING = false → t.lgr.seals = [1])) ∧
    (∀ nonce r g, runs (.returnRequest nonce r g) (fun w u t =>
      (ecdsaVerify Config.makerReturnKey (beBytes 16 nonce.toNat) r.toNat g.toNat = false →
        t = u.finish w 0x0202 []) ∧
      (ecdsaVerify Config.makerReturnKey (beBytes 16 nonce.toNat) r.toNat g.toNat = true → t.lcs = .returned ∧
        t.sessions = [] ∧ t.sec.oemSession = none ∧ t.sec.oemImage = none ∧ t.sec.oemLedger = none ∧
        t.sec.identity = false ∧ t.get APM_RSTCAUSE.RETURN = 1))) ∧
    (∀ old idx head r g, runs (.replaceHandover old idx head r g) (fun w u t =>
      let good := u.ledgerSigned ([old, 0#8, 0#8, 0#8] ++ beBytes 4 idx.toNat ++ beBytes 16 head.toNat) r g
      (good = false → t = u.finish w 0x0202 []) ∧
      (good = true → u.lgrTakes = true → u.lgr.queue.length < 16 → u.on LGR_STAT.FULL = false →
        u.on HRV_STAT.SEALING = false → t.waiting = u.waiting ++ [w] ∧ 5 ∈ t.lgr.seals ∧
        t.lgr.queue.length = u.lgr.queue.length + 1 ∧ ∃ e ∈ t.lgr.queue, e.type = 0x29)))

/-! ### Link and ring -/

/-- R39, R42, R54 to R56, R60, R299, R327: frames and replies. A frame of another EtherType goes on by the other port, where
it waits at level 6 behind what is more urgent; a frame on a port that is down, or whose length no port takes, and the replies of the
peer-to-peer delay mechanism go nowhere. The oldest final reply becomes ready to leave, its credit returns and it is kept. A
session that times out is closed; a held frame is released after 100 µs.

Rests on choices of the model: log entries 9, 14, 41, 79, 80. -/
def Obligations.FramesAndReplies : Prop :=
  ∀ (s : State) (p : PortId) (l : List Byte) (fcs : Bool) (tag : Word),
    let up := s.domUp .link
    let q := portIx (otherPort p)
    let passes := s.portUp p = true ∧ 14 ≤ l.length ∧ l.length ≤ 9212 ∧ stackedTags l = false ∧ frameEtype l ≠ 0x8808
    let other := frameEtype l ≠ 0x88F7 ∧ frameEtype l ≠ s.get ETH_ETYPE.VALUE
    let out : OutFrame := { port := otherPort p, bytes := l, express := false, fcsOk := fcs, rsErr := 0, rsFirst := 0 }
    (¬ passes → exec (.frameReceive p l fcs) s = .next s) ∧
    (passes → other → s.portUp (otherPort p) = false → exec (.frameReceive p l fcs) s = .next s) ∧
    (passes → other → s.portUp (otherPort p) = true → ∃ u, exec (.frameReceive p l fcs) s = .next u ∧
      (u.tx[q]).queue = (s.tx[q]).queue ++ [{ level := 6, ready := s.now, fwd := true, frame := out }] ∧
      u.tx[portIx p] = s.tx[portIx p] ∧ u.sent = s.sent ∧ u.mem = s.mem ∧ (fcs = true → u.reg = s.reg)) ∧
    (passes → frameEtype l = 0x88F7 → (pByte (frameContent l) 0).toNat % 16 ∈ [3, 10] →
      exec (.frameReceive p l fcs) s = .next s) ∧
    ((s.replies = [] ∨ up = false) → exec .finalReply s = .next s) ∧
    (∀ r m, up = true → s.replies = r :: m → ∃ u, exec .finalReply s = .next u ∧ u.replies = m ∧
      u.credits = min 16 (s.credits + 1) ∧ (u.kept.getLast?).map (·.reply) = some r ∧
      u.kept.length = min 16 (s.kept.length + 1) ∧ u.mem = s.mem ∧ u.reg = s.reg ∧
      let k := portIx (s.replyPort r.cmd.rq)
      ((s.port[k]).up = true → ∃ i, (u.tx[k]).queue = (s.tx[k]).queue ++ [i] ∧ i.fwd = false ∧ i.ready = s.now ∧
        i.level = (if isWindow r.cmd.op || r.cmd.rq.express then 5 else 8))) ∧
    (s.session tag = none → exec (.sessionTimeout tag) s = .next s) ∧
    (∀ y, s.session tag = some y → ∃ u, exec (.sessionTimeout tag) s = .next u ∧
      u.session tag = none ∧ ∀ z ∈ u.sessions, z.tag ≠ tag) ∧
    ((s.inj[portIx p]).held = none → exec (.injectionReorderTimeout p) s = .next s) ∧
    (∀ f k c, (s.inj[portIx p]).held = some (f, k, c) →
      let v := s.reach (c + usLc 100)
      ∃ u, exec (.injectionReorderTimeout p) s = .next u ∧ (u.inj[portIx p]).held = none ∧ u.now = v.now ∧
        u.reg = v.reg ∧ ((v.inj[portIx p]).held = none → u = v) ∧
        ∀ g, (v.inj[portIx p]).held = some g → u.sent = v.sent ++ [g.1])

/-- R295, R308 to R311, R313, R314, R316, R325: device frames. Heartbeats, angle shares and ring trips are taken in
where the link domain is up; the device sends its own at their times, and a ring trip is repeated 1 µs and 2 µs after the
latch.

Rests on choices of the model: log entries 9, 14, 18, 42, 74. -/
def Obligations.DeviceFrames : Prop :=
  ∀ (s : State) (sender : Byte) (mac : BitVec 48) (hb : Heartbeat) (dev : Fin 64) (sh : AngleShare) (rt : RingTrip),
    let up := s.domUp .link
    let acts := up = true ∧ s.addr ≠ none
    let mine (n : TrackId) : Prop := s.trkEn n = true ∧ s.trkType n = 6 ∧ s.get (TRK_SRCA.RDEV n) = sender.toNat
    (up = false → exec (.heartbeatReceive sender mac hb) s = .next s) ∧
    (up = true → s.addr = some sender.toNat → (mac = s.mac → exec (.heartbeatReceive sender mac hb) s = .next s) ∧
      (mac ≠ s.mac → ∃ u, exec (.heartbeatReceive sender mac hb) s = .next u ∧ u.get RING_STAT.DUPADDR = 1 ∧
        u.hbs = s.hbs)) ∧
    (up = true → s.addr ≠ some sender.toNat → sender.toNat < 64 → ∃ u,
      exec (.heartbeatReceive sender mac hb) s = .next u ∧
      u.hbs = s.hbs.filter (fun h => h.sender != sender.toNat) ++
        [{ sender := sender.toNat, mac := mac, hb := hb, cycle := s.now }] ∧
      (s.split = none → u.reg = s.reg ∧ u.mem = s.mem)) ∧
    (¬ acts → exec .heartbeatSend s = .next s ∧ exec .angleShareSend s = .next s) ∧
    (acts →
      let v := s.reach (s.cycleOfPtp (s.nextPtp 100000 (1500 * s.addr.getD 0)))
      ∃ u, exec .heartbeatSend s = .next u ∧ u.now = v.now ∧ u.reg = v.reg ∧ (v.addr ≠ none →
        u.devSeq[0] = v.devSeq[0] + 1 ∧ ∀ q : Fin 2, v.domUp .link = true → (v.port[q]).up = true →
          ∃ i, (u.tx[q]).queue = (v.tx[q]).queue ++ [i] ∧ i.level = 7 ∧ i.fwd = false)) ∧
    (acts →
      let v := s.reach (s.cycleOfPtp (s.nextPtp 1000 0))
      let shares := v.fastUp = true ∧ v.sharedTracks ≠ [] ∧ v.on RING_STAT.VERHOLD = false ∧
        v.on RING_STAT.DUPADDR = false
      (¬ shares → exec .angleShareSend s = .next v) ∧
      (shares → v.addr ≠ none → ∃ u, exec .angleShareSend s = .next u ∧ u.now = v.now ∧ u.reg = v.reg ∧
        u.devSeq[1] = v.devSeq[1] + 1)) ∧
    ((∀ h ∈ s.hbs, h.sender ≠ dev.val) → exec (.heartbeatMemberSilent dev) s = .next s) ∧
    (∀ h, s.hbs = [h] → h.sender = dev.val → s.addr ≠ some dev.val → ∃ u, exec (.heartbeatMemberSilent dev) s = .next u ∧
      u.get RING_STAT.MEMBLOST = 1 ∧ u.now = (s.reach (h.cycle + usLc 300)).now) ∧
    ((up = false ∨ s.takes blkTRK = false ∨ ∀ n, ¬ mine n) → exec (.angleShareReceive sender sh) s = .next s) ∧
    (∀ (n : TrackId) r, up = true → s.takes blkTRK = true → mine n → (∀ j : TrackId, n ≠ j → s.trkEn j = false) →
      sh.records = [r] → r.track.toNat = s.get (TRK_SRCA.RTRK n) →
      ((s.ptpOff = true ∨ r.flags.getLsbD 1 = true) →
        exec (.angleShareReceive sender sh) s = .next (s.lossCondition n)) ∧
      (s.ptpOff = false → r.flags.getLsbD 1 = false → s.shareFresh n sh.time.toNat = false →
        exec (.angleShareReceive sender sh) s = .next s) ∧
      (s.ptpOff = false → r.flags.getLsbD 1 = false → s.shareFresh n sh.time.toNat = true → ∃ u,
        exec (.angleShareReceive sender sh) s = .next u ∧ u.reg = s.reg ∧ u.mem = s.mem ∧
        (∀ j : TrackId, n ≠ j → u.trk[j] = s.trk[j]) ∧ (u.trk[n]).shareTime = sh.time.toNat ∧
        (u.trk[n]).shareAt = s.now ∧ (u.trk[n]).shares = (s.trk[n]).shares ++
          [{ ang := r.angle, vel := r.vel, time := sh.time.toNat, due := s.now + 3 }])) ∧
    (s.tripTx = [] → exec .ringTripRepeat s = .next s) ∧
    (∀ y, firstRepeat s.tripTx = some y →
      let v := s.reach (y.cycle + usLc y.rep)
      ∃ u, exec .ringTripRepeat s = .next u ∧ u.now = v.now ∧ u.reg = v.reg ∧
        u.tripTx = v.tripTx.erase y ++ (if y.rep < 2 then [{ y with rep := y.rep + 1 }] else [])) ∧
    ((up = false ∨ s.get RING_CFG.TRIPACC &&& rt.groups.toNat = 0 ∨ (sender.toNat, rt.time.toNat) ∈ s.tripSeen) →
      exec (.ringTripReceive sender rt) s = .next s) ∧
    (up = true → s.get RING_CFG.TRIPACC &&& rt.groups.toNat ≠ 0 → (sender.toNat, rt.time.toNat) ∉ s.tripSeen →
      ∃ u, exec (.ringTripReceive sender rt) s = .next u ∧ (sender.toNat, rt.time.toNat) ∈ u.tripSeen ∧
        u.reg = s.reg ∧ u.mem = s.mem ∧
        (s.fastUp = true → u.dues = s.dues ++ [{ cycle := s.now + 2, act := .ringRx true }]) ∧
        (s.fastUp = false → u.dues = s.dues)) ∧
    (s.dueAct (.ringRx true)).get GOU_RTRIP.RX = 1

/-- R40, R44, R46, R304 to R307, R515, R518: the ports and time. A Sync is used where the port is up; the root sends its
own at multiples of 2^-7 s. A released port that trains comes up with its settings, goes down, and verifies preemption where
the setting asks for it.

Rests on choices of the model: log entries 16, 18, 41, 43. -/
def Obligations.PortsAndTime : Prop :=
  ∀ (s : State) (p : PortId) (gm : BitVec 64) (o : Int),
    let up := s.domUp .link
    let x := s.port[portIx p]
    let q := portIx (otherPort p)
    let otherPorts (u : State) : Prop := u.port[q] = s.port[q] ∧ u.mem = s.mem
    (s.portUp p = false → exec (.ptpSyncReceive p gm o) s = .next s) ∧
    (s.portUp p = true → ∃ u, exec (.ptpSyncReceive p gm o) s = .next u ∧ (u.port[portIx p]).gm = gm ∧
      (u.port[portIx p]).hears = true ∧ otherPorts u ∧
      ((portIx p ≠ s.upstream ∨ s.on RING_CFG.ROOT = true) → u.ptpAdj = s.ptpAdj ∧ u.reg = s.reg) ∧
      (portIx p = s.upstream → s.on RING_CFG.ROOT = false → u.ptpAdj = s.ptpAdj - 20 * o ∧
        u.rd RING_PTPOFF.adr = offsetWord o ∧ (50 < o.natAbs → u.ptpOff = true ∧ u.ptpGood = 0) ∧
        (o.natAbs ≤ 50 → u.ptpGood = s.ptpGood + 1 ∧ u.ptpOff = (s.ptpOff && decide (s.ptpGood + 1 < 16))))) ∧
    ((up = false ∨ s.on RING_CFG.ROOT = false) → exec .ptpSyncSend s = .next s) ∧
    (up = true → s.on RING_CFG.ROOT = true →
      let v := s.reach (s.cycleOfPtp (s.nextPtp 7812500 0))
      ∃ u, exec .ptpSyncSend s = .next u ∧ u.now = v.now ∧ u.reg = v.reg ∧ ∀ k : Fin 2, v.domUp .link = true →
        (v.port[k]).up = true → (v.tx[k]).queue.length < (u.tx[k]).queue.length) ∧
    ((up = false ∨ s.on RING_CFG.ROOT = true ∨ ((s.port[s.upstream]).up = true ∧ (s.port[s.upstream]).hears = true)) →
      exec .upstreamSwitch s = .next s) ∧
    (up = true → s.on RING_CFG.ROOT = false → (s.port[s.upstream]).hears = false →
      (s.port[1 - s.upstream]).hears = true → ∃ u, exec .upstreamSwitch s = .next u ∧ u.upstream = 1 - s.upstream ∧
        u.get RING_STAT.UPSW = 1 ∧ u.port = s.port ∧ u.mem = s.mem) ∧
    ((up = false ∨ s.linkFree = false ∨ x.training = false) → exec (.linkTrained p) s = .next s) ∧
    (up = true → s.linkFree = true → x.training = true → ∃ u, exec (.linkTrained p) s = .next u ∧ otherPorts u ∧
      u.port[portIx p] = { x with
        up := true, training := false, fec := 0, clock := true, cfg := s.rd (ETH_PORT_CTRL.adr (portIx p)) } ∧
      (s.fastUp = true → u.on (readyFlag (portIx p)) = true)) ∧
    ((up = false ∨ x.up = false) → exec (.linkDown p) s = .next s) ∧
    (up = true → x.up = true → ∃ u, exec (.linkDown p) s = .next u ∧ otherPorts u ∧
      u.port[portIx p] = { x with up := false, training := true, preempt := false, hears := false, clock := false } ∧
      (s.fastUp = true → u.on (readyFlag (portIx p)) = false)) ∧
    (∃ u, exec (.stopsHearingGrandmaster p) s = .next u ∧ u.port[portIx p] = { x with hears := false } ∧ otherPorts u ∧
      u.reg = s.reg) ∧
    ((up = false ∨ x.up = false ∨ x.cfg.getLsbD 0 = false) → exec (.preemptionVerified p) s = .next s) ∧
    (up = true → x.up = true → x.cfg.getLsbD 0 = true → ∃ u, exec (.preemptionVerified p) s = .next u ∧
      u.port[portIx p] = { x with preempt := true } ∧ otherPorts u ∧ u.reg = s.reg)

/-- R319, R320: the votes of a two-phase commit. A participant votes ready once it has validated and again at T − 20 µs, or
abort when it is not ready then; votes of others are recorded when they are for this commit and in time; at T − 4 µs
the commit is to switch when every participant is ready, and is aborted otherwise.

Rests on choices of the model: log entries 18, 36, 43. -/
def Obligations.CommitVotes : Prop :=
  ∀ (s : State) (sender : Byte) (epoch : BitVec 16) (t : BitVec 64),
    let two (c : CommitSt) : Prop := s.commit = some c ∧ c.flags.testBit 1 = true ∧ c.switched = false ∧
      c.switchAt = none
    let inTime (c : CommitSt) : Prop := c.epoch = epoch ∧ c.arg = t.toNat ∧ s.now ≤ s.cycleOfPtp (t.toNat - 4000)
    let up := s.domUp .link
    let before (c : CommitSt) (ns : Nat) : State := s.reach (s.cycleOfPtp (c.arg - ns))
    ((s.commit = none ∨ up = false) → exec (.commitReadyReceive sender epoch t) s = .next s ∧
      exec (.commitAbortReceive sender epoch t) s = .next s) ∧
    (s.commit = none → exec .commitReadySend s = .next s ∧ exec .commitAbortSend s = .next s ∧
      exec .twoPhaseDecision s = .next s) ∧
    (∀ c, two c → c.aborted = true → exec .commitReadySend s = .next s ∧ exec .commitAbortSend s = .next s) ∧
    (∀ c, two c → c.aborted = false → s.addr ≠ none →
      (c.readySent = 0 → s.now ≤ s.cycleOfPtp (c.arg - 20000) → ∃ u, exec .commitReadySend s = .next u ∧
        u.commit = some { c with readySent := 1 } ∧ u.devSeq[3] = s.devSeq[3] + 1 ∧ u.now = s.now ∧ u.reg = s.reg) ∧
      (c.readySent = 1 → ∃ u, exec .commitReadySend s = .next u ∧ u.commit = some { c with readySent := 2 } ∧
        u.now = (before c 20000).now ∧ ((before c 20000).addr ≠ none → u.devSeq[3] = (before c 20000).devSeq[3] + 1)) ∧
      (2 ≤ c.readySent → exec .commitReadySend s = .next s)) ∧
    (∀ c, two c → c.aborted = false →
      (c.readySent = 0 → ∃ u, exec .commitAbortSend s = .next u ∧ u.commit = some { c with aborted := true } ∧
        u.now = (before c 20000).now ∧ ((before c 20000).addr ≠ none → u.devSeq[4] = (before c 20000).devSeq[4] + 1)) ∧
      (0 < c.readySent → exec .commitAbortSend s = .next s)) ∧
    (∀ c, two c → up = true →
      (¬ inTime c → exec (.commitReadyReceive sender epoch t) s = .next s ∧
        exec (.commitAbortReceive sender epoch t) s = .next s) ∧
      (inTime c → (sender.toNat ∈ c.parts → sender.toNat ∉ c.ready → exec (.commitReadyReceive sender epoch t) s =
          .next { s with commit := some { c with ready := c.ready ++ [sender.toNat] } }) ∧
        ((sender.toNat ∉ c.parts ∨ sender.toNat ∈ c.ready) → exec (.commitReadyReceive sender epoch t) s = .next s) ∧
        exec (.commitAbortReceive sender epoch t) s = .next { s with commit := some { c with aborted := true } })) ∧
    (∀ c, two c →
      let v := before c 4000
      let all := c.aborted = false ∧ 0 < c.readySent ∧ ∀ d ∈ c.parts, d ∈ c.ready
      (all → exec .twoPhaseDecision s = .next { v with
        commit := some { c with switchAt := some (max (v.now + 1) (v.cycleOfPtp c.arg)) } }) ∧
      (¬ all → ∃ u, exec .twoPhaseDecision s = .next u ∧ u.commit = none ∧ u.reg = v.reg ∧ u.mem = v.mem ∧
        ∀ w ∈ u.waiting, w.op ≠ 0x0102))

/-- R82, R85 to R89: the switch of a commit. In its switch cycle the epoch of the commit becomes active, the pending bank
empties, and the command is answered, or the configuration persisted first; a commit without a switch in time is answered
with TIMEOUT, and leaves epoch and bank.

Rests on choices of the model: log entries 18, 36, 43, 81. -/
def Obligations.CommitPhases : Prop :=
  ∀ (s : State),
    let answered (u : State) : Prop := u.commit = none ∧ ∀ w ∈ u.waiting, w.op ≠ 0x0102
    let switches (c : CommitSt) (u : State) : Prop := u.epoch = c.epoch ∧ u.bank = [] ∧ u.now = s.now ∧
      (c.flags.testBit 0 = true → u.commit = some { c with switched := true, switchAt := some s.now }) ∧
      (c.flags.testBit 0 = false → answered u)
    (s.commit = none → exec .commitSwitch s = .next s ∧ exec .commitTimeout s = .next s ∧
      exec .commitPersistDone s = .next s) ∧
    (∀ c, s.commit = some c →
      (c.switched = true → exec .commitSwitch s = .next s ∧ exec .commitTimeout s = .next s) ∧
      (s.switchCycle c = none → exec .commitSwitch s = .next s) ∧
      (∀ k, s.switchCycle c = some k →
        (c.limit < k → exec .commitSwitch s = .next s) ∧
        (k ≤ c.limit → exec .commitTimeout s = .next s) ∧
        (c.switched = false → k ≤ c.limit → c.bound = 1 → exec .commitSwitch s = .next (s.reach (k + 1))) ∧
        (c.switched = false → k ≤ c.limit → c.bound ≠ 1 → exec .commitSwitch s = .next (s.reach k).switchDue)) ∧
      (c.switched = false → s.now ≤ c.limit → s.boundaryHere c = true → switches c s.switchDue) ∧
      (c.switched = false → c.bound = 0 → c.switchAt = some s.now → s.now ≤ c.limit →
        ∃ u, exec .commitSwitch s = .next u ∧ switches c u) ∧
      (c.switched = false → (∀ k, s.switchCycle c = some k → c.limit < k) →
        let v := s.reach c.limit
        ∃ u, exec .commitTimeout s = .next u ∧ u.now = v.now ∧ u.epoch = v.epoch ∧ u.bank = v.bank ∧ u.reg = v.reg ∧
          (v.commit = some c → answered u)) ∧
      (c.switched = false → exec .commitPersistDone s = .next s) ∧
      (c.switched = true → ∃ u, exec .commitPersistDone s = .next u ∧ answered u ∧ u.epoch = s.epoch ∧
        u.reg = s.reg ∧ u.bank = s.bank))

/-! ### Reset and what every step keeps -/

/-- A core as a reset leaves it: in Start-up at offset 0 of `c0`, with general registers of zero, the three root
capabilities of R469, and every seal-type mask of all ones. -/
def Obligations.fresh (k : CoreSt) : Prop :=
  let root (c : Cap) (limit perm : Nat) : Prop :=
    c.tag = true ∧ c.base = 0 ∧ c.limit = limit ∧ c.perm = perm ∧ c.sl = 0
  (∀ r : Reg, k.regs[r] = 0) ∧ k.svc = 0 ∧ k.pc = 0 ∧ root k.caps[0] 0x1FFFF 0x744 ∧
    root k.caps[1] 0xFFFFFFFFFF 0x0FB ∧ root k.caps[2] 0xFFFFFFFFFF 0x745 ∧
    (∀ n : CapIx, 3 ≤ n.val → (k.caps[n]).bits = 0 ∧ (k.caps[n]).tag = false) ∧
    (∀ j : Fin 8, k.sealmask[j] = 0xFFFFFFFF) ∧ k.slot = none ∧ k.long = none

/-- R398, R469: the cores after a reset of their domain: 0 to 3 whenever the fast domain goes to H5, also by a request
for its reset, 4 at each restart of the always-on domain, and all of them after `PORESET`, unless a final sequence makes
the always-on restart wait (R614); a control pair that its register holds starts so when it is released. -/
def Obligations.CoresAfterReset : Prop :=
  ∀ (s : State) (ag : Agent) (full : Bool) (i : Fin 5) (n : Fin 2),
    let fresh (u : State) : Prop := Obligations.fresh u.core[i]
    let pair : Fin 5 := if n = 0 then 0 else 1
    (i ≠ 4 → fresh (s.arriveAt 0 5) ∧ fresh s.fastReset) ∧
    (i = 4 → fresh (s.resetAo full)) ∧
    (i ≠ 4 → partyOf ag = .aoc ∨ (partyOf ag).isMgt = true → Obligations.writes s ag APM_RSTREQ.adr
      (exec (.apmRstreqFast ag) s) fresh) ∧
    (i = 4 → s.on HRV_STAT.SEALING = false → partyOf ag = .aoc ∨ (partyOf ag).isMgt = true →
      Obligations.writes s ag APM_RSTREQ.adr (exec (.apmRstreqAo ag) s) fresh) ∧
    (s.ao.phase ≠ .off → s.on HRV_STAT.SEALING = false ∨ i ≠ 4 → ∃ u, exec .poreset s = .next u ∧ fresh u) ∧
    Obligations.writes s ag (CPM_PAIR_RST.adr n) (exec (.cpmPairHold ag n true) s)
      (fun u => Obligations.fresh u.core[pair])

/-- The state after reset: nothing waits, memory has its canonical form, every core is as a reset leaves it, every
domain is at H5 and all gate pairs are off.

Rests on choices of the model: log entries 1, 4, 5. -/
def Obligations.ResetState : Prop :=
  State.reset.pending = [] ∧ Memory.wf State.reset = true ∧ (∀ i : Fin 5, Obligations.fresh State.reset.core[i]) ∧
    (∀ d : Fin 3, (State.reset.dom[d]).level = 5) ∧ (∀ p : Fin 32, State.reset.pairState p = pOff) ∧
    State.reset.get CPM_BOOT.FWST = 1 ∧ State.reset.sessions = [] ∧ State.reset.addr = none

/-- The memory keeps its canonical form: in every state whose memory lists its bytes in strictly rising order of
address, and none that reads as an unlisted byte does, each step leaves such a memory (log 3 says what an unlisted byte
reads as).

Rests on choices of the model: log entry 3. -/
def Obligations.MemoryForm : Prop :=
  ∀ s t : State, Memory.wf s = true → Machine.step s = .next t → Memory.wf t = true
end

