-- ==== Sys2Proof/Laws/Bytes.lean ====
section
/-!
SUPPORT. Laws/Bytes.lean: numbers and their bytes, most significant first (R11), and the length of a digest.
-/
namespace Sys2Proof.Machine

@[simp] theorem beBytes_length (n x : Nat) : (beBytes n x).length = n := by
  induction n with
  | zero => rfl
  | succ n ih => simp [beBytes, ih]

/-- Only the lowest `n` bytes of a number show in `n` bytes. -/
theorem beBytes_low (n k : Nat) (h : n ≤ k) (c x : Nat) : beBytes n (c * 2 ^ (8 * k) + x) = beBytes n x := by
  induction n with
  | zero => rfl
  | succ n ih =>
    obtain ⟨j, rfl⟩ := Nat.exists_eq_add_of_le h
    simp only [beBytes, ih (by omega)]
    congr 1
    apply BitVec.eq_of_toNat_eq
    have e : c * 2 ^ (8 * (n + 1 + j)) + x = c * 2 ^ (8 * j) * 256 * 2 ^ (8 * n) + x := by
      congr 1
      rw [Nat.mul_assoc, Nat.mul_assoc]
      congr 1
      rw [show (256 : Nat) = 2 ^ 8 from rfl, ← Nat.pow_add, ← Nat.pow_add]
      congr 1; omega
    simp only [BitVec.toNat_ofNat]
    rw [e, Nat.add_comm, Nat.add_mul_div_right _ _ (Nat.two_pow_pos _), Nat.add_mul_mod_self_right]

theorem ofBeBytes_foldl (l : List Byte) (a : Nat) :
    l.foldl (fun a b => a * 256 + b.toNat) a = a * 2 ^ (8 * l.length) + ofBeBytes l := by
  induction l generalizing a with
  | nil => simp [ofBeBytes]
  | cons b l ih =>
    simp only [ofBeBytes, List.foldl_cons, List.length_cons, Nat.zero_mul, Nat.zero_add] at *
    rw [ih, ih b.toNat, Nat.add_mul, Nat.add_assoc, Nat.mul_assoc]
    congr 2
    rw [show (256 : Nat) = 2 ^ 8 from rfl, ← Nat.pow_add]
    congr 1; omega

theorem ofBeBytes_cons (b : Byte) (l : List Byte) :
    ofBeBytes (b :: l) = b.toNat * 2 ^ (8 * l.length) + ofBeBytes l := by
  simpa [ofBeBytes] using ofBeBytes_foldl l b.toNat

theorem ofBeBytes_lt (l : List Byte) : ofBeBytes l < 2 ^ (8 * l.length) := by
  induction l with
  | nil => simp [ofBeBytes]
  | cons b l ih =>
    rw [ofBeBytes_cons, List.length_cons, Nat.mul_add, Nat.mul_one, Nat.pow_add]
    have := b.isLt
    nlinarith [Nat.mul_le_mul_right (2 ^ (8 * l.length)) (Nat.le_of_lt_succ this)]

/-- Bytes are read back from the number that they spell. -/
theorem beBytes_ofBeBytes (l : List Byte) : beBytes l.length (ofBeBytes l) = l := by
  induction l with
  | nil => rfl
  | cons b l ih =>
    rw [ofBeBytes_cons, List.length_cons]
    simp only [beBytes, beBytes_low l.length l.length le_rfl, ih]
    congr 1
    rw [Nat.mul_comm, Nat.mul_add_div (Nat.two_pow_pos _), Nat.div_eq_of_lt (ofBeBytes_lt l)]
    simp

/-- A number is read back from its bytes, where they have room for it. -/
theorem ofBeBytes_beBytes (n x : Nat) (h : x < 2 ^ (8 * n)) : ofBeBytes (beBytes n x) = x := by
  induction n generalizing x with
  | zero => simp at h; simp [beBytes, ofBeBytes, h]
  | succ n ih =>
    have hd := Nat.div_add_mod x (2 ^ (8 * n))
    have hlt : x / 2 ^ (8 * n) < 256 := by
      rw [Nat.div_lt_iff_lt_mul (Nat.two_pow_pos _)]
      rw [Nat.mul_add, Nat.pow_add] at h; simpa [Nat.mul_comm] using h
    have hb : beBytes n x = beBytes n (x % 2 ^ (8 * n)) := by
      conv_lhs => rw [← hd, Nat.mul_comm]
      exact beBytes_low n n le_rfl _ _
    simp only [beBytes, ofBeBytes_cons, beBytes_length]
    rw [hb, ih _ (Nat.mod_lt _ (Nat.two_pow_pos _)), BitVec.toNat_ofNat, Nat.mod_eq_of_lt (by simpa using hlt)]
    rw [Nat.mul_comm]; exact hd

/-! ### SHA-256 -/

theorem shaRound_length (h : List Word) (k : Word × Word) : (shaRound h k).length = h.length := by
  unfold shaRound; split <;> simp

theorem shaRounds_length (l : List (Word × Word)) (h : List Word) : (l.foldl shaRound h).length = h.length := by
  induction l generalizing h with
  | nil => rfl
  | cons k l ih => simp [ih, shaRound_length]

theorem shaBlocks_length (n : Nat) (h : List Word) (l : List Byte) : (shaBlocks n h l).length = h.length := by
  induction n generalizing h l with
  | zero => rfl
  | succ n ih => simp [shaBlocks, ih, shaBlock, shaRounds_length]

/-- A digest has 32 bytes. -/
theorem sha256_length (m : List Byte) : (sha256 m).length = 32 := by
  have h : ∀ l : List Word, (l.flatMap (fun w => beBytes 4 w.toNat)).length = 4 * l.length := by
    intro l; induction l with
    | nil => rfl
    | cons w l ih => simp [ih]; omega
  simp only [sha256, h, shaBlocks_length]
  simp [shaInit, primes64]

end Sys2Proof.Machine
end

