-- ==== Sys2Proof/Laws/Memory.lean ====
section
/-!
SUPPORT. Laws/Memory.lean: what a write of a sparse map or of memory reads as afterwards, and that every memory
operation keeps the canonical form.
-/
namespace Sys2Proof

/-! ### Sparse maps -/

theorem SMap.get_keep {β : Type} (d : Nat → β) (p : Nat → Bool) (m : SMap β) (a : Nat) :
    SMap.get d (SMap.keep p m) a = if p a then SMap.get d m a else d a := by
  induction m with
  | nil => simp [SMap.keep, SMap.get]
  | cons kv m ih =>
    obtain ⟨k, v⟩ := kv
    unfold SMap.keep at ih ⊢
    by_cases h : p k
    · by_cases e : a = k
      · subst e; simp [SMap.get, h]
      · simp [SMap.get, h, e, ih]
    · by_cases e : a = k
      · subst e; simpa [h] using ih
      · simp [SMap.get, h, e, ih]

theorem SMap.get_put {β : Type} (d : Nat → β) (m : SMap β) (a : Nat) (x : β) (b : Nat)
    (h : ∀ kv ∈ m, kv.1 ≠ a) : SMap.get d (SMap.put m a x) b = if b = a then x else SMap.get d m b := by
  induction m with
  | nil => simp [SMap.put, SMap.get]
  | cons kv m ih =>
    obtain ⟨k, v⟩ := kv
    have hk : k ≠ a := h (k, v) (by simp)
    have ih' := ih (fun kv hm => h kv (by simp [hm]))
    unfold SMap.put
    split
    · simp [SMap.get]
    · by_cases e : b = k
      · subst e; simp [SMap.get, hk]
      · simp [SMap.get, e, ih']

/-- A read after a write of one key: the written value there, every other key as before. -/
theorem SMap.get_set {β : Type} [DecidableEq β] (d : Nat → β) (m : SMap β) (a : Nat) (x : β) (b : Nat) :
    SMap.get d (SMap.set d m a x) b = if b = a then x else SMap.get d m b := by
  have hk : SMap.get d (SMap.keep (fun k => decide (k ≠ a)) m) b = if b = a then d b else SMap.get d m b := by
    rw [SMap.get_keep]; by_cases e : b = a <;> simp [e]
  unfold SMap.set
  split
  · rename_i h
    rw [hk]
    by_cases e : b = a
    · subst e; simp [h]
    · simp [e]
  · rw [SMap.get_put, hk]
    · by_cases e : b = a <;> simp [e]
    · intro kv hm
      simp only [SMap.keep, List.mem_filter, decide_eq_true_eq] at hm
      exact hm.2

theorem SMap.above_some {β : Type} {l k : Nat} {m : SMap β} (hlk : l < k) (h : SMap.above (some k) m = true) :
    SMap.above (some l) m = true := by
  cases m with
  | nil => rfl
  | cons kv m =>
    simp only [SMap.above, decide_eq_true_eq] at h ⊢
    omega

theorem SMap.wf_cons {β : Type} [DecidableEq β] (d : Nat → β) (k : Nat) (v : β) (m : SMap β) :
    SMap.wf d ((k, v) :: m) = true ↔ v ≠ d k ∧ SMap.above (some k) m = true ∧ SMap.wf d m = true := by
  simp [SMap.wf, and_assoc]

/-- Keys of a canonical map above a bound are all above it. -/
theorem SMap.mem_above {β : Type} [DecidableEq β] (d : Nat → β) (l : Nat) (m : SMap β) (hw : SMap.wf d m = true)
    (ha : SMap.above (some l) m = true) : ∀ kv ∈ m, l < kv.1 := by
  induction m generalizing l with
  | nil => intro kv h; cases h
  | cons x m ih =>
    obtain ⟨k, v⟩ := x
    rw [SMap.wf_cons] at hw
    simp only [SMap.above, decide_eq_true_eq] at ha
    intro kv h
    rcases List.mem_cons.1 h with h | h
    · subst h; exact ha
    · exact Nat.lt_trans ha (ih k hw.2.2 hw.2.1 kv h)

theorem SMap.above_of {β : Type} (l : Nat) (m : SMap β) (h : ∀ kv ∈ m, l < kv.1) : SMap.above (some l) m = true := by
  cases m with
  | nil => rfl
  | cons kv m => simpa [SMap.above] using h kv (by simp)

/-- Dropping keys keeps the canonical form. -/
theorem SMap.wf_keep {β : Type} [DecidableEq β] (d : Nat → β) (p : Nat → Bool) (m : SMap β)
    (h : SMap.wf d m = true) : SMap.wf d (SMap.keep p m) = true := by
  induction m with
  | nil => rfl
  | cons kv m ih =>
    obtain ⟨k, v⟩ := kv
    rw [SMap.wf_cons] at h
    have hm := SMap.mem_above d k m h.2.2 h.2.1
    unfold SMap.keep at ih ⊢
    by_cases hp : p k
    · simp only [List.filter_cons, hp, if_true]
      rw [SMap.wf_cons]
      exact ⟨h.1, SMap.above_of _ _ (fun kv hk => hm kv (List.mem_filter.1 hk).1), ih h.2.2⟩
    · simp only [List.filter_cons, hp]
      exact ih h.2.2

theorem SMap.mem_put {β : Type} (m : SMap β) (a : Nat) (x : β) (kv : Nat × β) (h : kv ∈ SMap.put m a x) :
    kv = (a, x) ∨ kv ∈ m := by
  induction m with
  | nil => simpa [SMap.put] using h
  | cons y m ih =>
    obtain ⟨k, v⟩ := y
    unfold SMap.put at h
    split at h
    · rcases List.mem_cons.1 h with h | h
      · exact .inl h
      · exact .inr h
    · rcases List.mem_cons.1 h with h | h
      · exact .inr (by simp [h])
      · rcases ih h with h | h
        · exact .inl h
        · exact .inr (by simp [h])

theorem SMap.wf_put {β : Type} [DecidableEq β] (d : Nat → β) (m : SMap β) (a : Nat) (x : β) (hx : x ≠ d a)
    (hn : ∀ kv ∈ m, kv.1 ≠ a) (h : SMap.wf d m = true) : SMap.wf d (SMap.put m a x) = true := by
  induction m with
  | nil => simp [SMap.put, SMap.wf, SMap.above, hx]
  | cons kv m ih =>
    obtain ⟨k, v⟩ := kv
    have hw := (SMap.wf_cons d k v m).1 h
    have hk : k ≠ a := hn (k, v) (by simp)
    unfold SMap.put
    split
    · rename_i hlt
      rw [SMap.wf_cons]
      exact ⟨hx, by simpa [SMap.above] using hlt, h⟩
    · rename_i hge
      have hm := SMap.mem_above d k m hw.2.2 hw.2.1
      rw [SMap.wf_cons]
      refine ⟨hw.1, SMap.above_of _ _ ?_, ih (fun kv hm => hn kv (by simp [hm])) hw.2.2⟩
      intro kv hp
      rcases SMap.mem_put m a x kv hp with e | e
      · subst e; simp only; omega
      · exact hm kv e

/-- A write keeps the canonical form. -/
theorem SMap.wf_set {β : Type} [DecidableEq β] (d : Nat → β) (m : SMap β) (a : Nat) (x : β)
    (h : SMap.wf d m = true) : SMap.wf d (SMap.set d m a x) = true := by
  unfold SMap.set
  split
  · exact SMap.wf_keep d _ m h
  · rename_i hx
    refine SMap.wf_put d _ a x hx ?_ (SMap.wf_keep d _ m h)
    intro kv hm
    simp only [SMap.keep, List.mem_filter, decide_eq_true_eq] at hm
    exact hm.2

namespace Machine

/-! ### Memory -/

/-- A stored byte reads back, every other byte as before. -/
theorem State.byte_putByte (s : State) (a : Nat) (b : Byte) (x : Nat) :
    (s.putByte a b).byte x = if x = a then b else s.byte x := by
  unfold State.byte State.putByte
  exact SMap.get_set _ _ _ _ _

/-- Stored bytes read back, every other byte as before. -/
theorem State.byte_putBytes (s : State) (a : Nat) (l : List Byte) (x : Nat) :
    (s.putBytes a l).byte x = if h : a ≤ x ∧ x < a + l.length then l[x - a]'(by omega) else s.byte x := by
  induction l generalizing s a with
  | nil => simp [State.putBytes]
  | cons b l ih =>
    unfold State.putBytes
    rw [ih, State.byte_putByte]
    by_cases h1 : a + 1 ≤ x ∧ x < a + 1 + l.length
    · have h2 : a ≤ x ∧ x < a + (b :: l).length := by simp; omega
      rw [dif_pos h1, dif_pos h2]
      have : x - a = (x - (a + 1)) + 1 := by omega
      simp [this]
    · rw [dif_neg h1]
      by_cases e : x = a
      · subst e; simp
      · rw [if_neg e, dif_neg]
        simp only [List.length_cons]; omega

/-- A store clears the tags of the granules it writes in and keeps the others (R419). -/
theorem State.tags_putBytes (s : State) (a : Nat) (l : List Byte) (g : Nat) :
    g ∈ (s.putBytes a l).tags ↔ g ∈ s.tags ∧ ∀ j < l.length, g ≠ (a + j) / 16 := by
  induction l generalizing s a with
  | nil => simp [State.putBytes]
  | cons b l ih =>
    unfold State.putBytes
    rw [ih]
    have e : g ∈ (s.putByte a b).tags ↔ g ∈ s.tags ∧ g ≠ a / 16 := by
      simp [State.putByte]
    rw [e]
    constructor
    · rintro ⟨⟨h1, h2⟩, h3⟩
      refine ⟨h1, fun j hj => ?_⟩
      cases j with
      | zero => exact h2
      | succ j => have := h3 j (by simpa using hj); rwa [Nat.add_right_comm, Nat.add_assoc] at this
    · rintro ⟨h1, h2⟩
      refine ⟨⟨h1, h2 0 (by simp)⟩, fun j hj => ?_⟩
      have := h2 (j + 1) (by simpa using hj)
      rwa [Nat.add_right_comm, Nat.add_assoc]

theorem State.reg_putBytes (s : State) (a : Nat) (l : List Byte) : (s.putBytes a l).reg = s.reg := by
  induction l generalizing s a with
  | nil => rfl
  | cons b l ih => unfold State.putBytes; rw [ih]; rfl

theorem State.core_putBytes (s : State) (a : Nat) (l : List Byte) : (s.putBytes a l).core = s.core := by
  induction l generalizing s a with
  | nil => rfl
  | cons b l ih => unfold State.putBytes; rw [ih]; rfl

theorem leBytes_length (n v : Nat) : (leBytes n v).length = n := by
  induction n generalizing v with
  | zero => rfl
  | succ n ih => simp [leBytes, ih]

/-- Byte `j` of a little-endian number. -/
theorem leBytes_get (n v j : Nat) (h : j < (leBytes n v).length) :
    ((leBytes n v)[j]).toNat = v / 2 ^ (8 * j) % 256 := by
  induction n generalizing v j with
  | zero => simp [leBytes] at h
  | succ n ih =>
    cases j with
    | zero => simp [leBytes]
    | succ j =>
      simp only [leBytes, List.getElem_cons_succ]
      rw [ih, Nat.div_div_eq_div_mul]
      congr 2
      rw [show 8 * (j + 1) = 8 + 8 * j by omega, Nat.pow_add]

/-- The memory of the reset state is canonical. -/
theorem State.reset_wf : Memory.wf State.reset = true := rfl

theorem State.wf_putByte (s : State) (a : Nat) (b : Byte) (h : Memory.wf s = true) :
    Memory.wf (s.putByte a b) = true := SMap.wf_set _ _ _ _ h

theorem State.wf_putBytes (s : State) (a : Nat) (l : List Byte) (h : Memory.wf s = true) :
    Memory.wf (s.putBytes a l) = true := by
  induction l generalizing s a with
  | nil => exact h
  | cons b l ih => exact ih _ _ (State.wf_putByte s a b h)

theorem State.wf_putLe (s : State) (a n v : Nat) (h : Memory.wf s = true) : Memory.wf (s.putLe a n v) = true :=
  State.wf_putBytes _ _ _ h

theorem State.wf_clearMem (s : State) (lo hi : Nat) (h : Memory.wf s = true) :
    Memory.wf (s.clearMem lo hi) = true := by
  exact SMap.wf_keep (fun _ => 0#8) (fun a => decide (a < lo) || decide (hi ≤ a)) s.mem h

/-- A register word that was written reads back, every other word as before. -/
theorem State.rd_wr (s : State) (a : Nat) (w : Word) (x : Nat) :
    (s.wr a w).rd x = if x = a then w else s.rd x := by
  unfold State.rd State.wr
  exact SMap.get_set _ _ _ _ _

/-- Cleared register words read as their reset values. -/
theorem State.rd_clearRegs (s : State) (lo hi x : Nat) :
    (s.clearRegs lo hi).rd x = if lo ≤ x ∧ x < hi then resetWord x else s.rd x := by
  unfold State.rd State.clearRegs
  simp only [SMap.get_keep]
  by_cases h : lo ≤ x ∧ x < hi
  · have : ¬ (x < lo ∨ hi ≤ x) := by omega
    simp [h, this]
  · have : x < lo ∨ hi ≤ x := by omega
    simp [h, this]

/-- Cleared memory reads 0 (DESIGN CHOICE, log 3), every other byte as before. -/
theorem State.byte_clearMem (s : State) (lo hi x : Nat) :
    (s.clearMem lo hi).byte x = if lo ≤ x ∧ x < hi then 0#8 else s.byte x := by
  unfold State.byte State.clearMem
  simp only [SMap.get_keep]
  by_cases h : lo ≤ x ∧ x < hi
  · have : ¬ (x < lo ∨ hi ≤ x) := by omega
    simp [h, this]
  · have : x < lo ∨ hi ≤ x := by omega
    simp [h, this]

end Machine
end Sys2Proof
end

