-- ==== Sys2Proof/Laws/Core.lean ====
section
/-!
SUPPORT. Laws/Core.lean: what the registers of a core and the course of one instruction do.
-/
namespace Sys2Proof.Machine

/-! ### A core in the vector of cores -/

@[simp] theorem State.modCore_core_self (s : State) (i : Fin 5) (f : CoreSt → CoreSt) :
    (s.modCore i f).core[(i : Nat)] = f s.core[(i : Nat)] := by
  simp [State.modCore]

theorem State.modCore_core_other (s : State) (i j : Fin 5) (f : CoreSt → CoreSt) (h : i ≠ j) :
    (s.modCore i f).core[(j : Nat)] = s.core[(j : Nat)] := by
  have h' : (i : Nat) ≠ (j : Nat) := fun e => h (Fin.ext e)
  simp [State.modCore, h']

@[simp] theorem State.modCore_modCore (s : State) (i : Fin 5) (f g : CoreSt → CoreSt) :
    (s.modCore i f).modCore i g = s.modCore i (fun k => g (f k)) := by
  simp [State.modCore]

/-- A written general register reads as what was written, `g0` as zero; the others keep their values (R397). -/
theorem State.setGr_gr (s : State) (i : Fin 5) (r q : Reg) (w : Word) :
    (s.setGr i r w).gr i q = if q = 0 then 0 else if q = r then w else s.gr i q := by
  unfold State.setGr State.gr
  by_cases hr : r = 0
  · subst hr; by_cases hq : q = 0 <;> simp [hq]
  · by_cases hq : q = 0
    · simp [hq]
    · by_cases e : q = r
      · subst e; simp [hq]
      · have e' : (r : Nat) ≠ (q : Nat) := fun x => e (Fin.ext x.symm)
        simp [hq, hr, e, e']

/-- The checks of an access read nothing of a core but its capability registers. -/
@[simp] theorem State.modCore_reach6 (s : State) (i j : Fin 5) (f : CoreSt → CoreSt) (a sz : Nat) (wr : Bool) :
    (s.modCore i f).reach6 j a sz wr = s.reach6 j a sz wr := rfl

@[simp] theorem State.modCore_spoiltAny (s : State) (i : Fin 5) (f : CoreSt → CoreSt) (a n : Nat) :
    (s.modCore i f).spoiltAny a n = s.spoiltAny a n := rfl

theorem State.access_modCore (s : State) (i : Fin 5) (f : CoreSt → CoreSt) (n : Fin 8) (need offs sz : Nat)
    (wr : Bool) (h : (f s.core[(i : Nat)]).caps = (s.core[(i : Nat)]).caps) :
    (s.modCore i f).access i n need offs sz wr = s.access i n need offs sz wr := by
  simp [State.access, h]

/-- What the caches of a core hold does not hang on whether it waits. -/
theorem State.lineHeld_wake (s : State) (i : Fin 5) (a : Nat) :
    (s.modCore i (fun k => { k with waiting := false })).lineHeld i a = s.lineHeld i a := by
  simp [State.lineHeld]

/-- Fetch checks read nothing that `WFE` changes. -/
theorem State.fetchTrouble_wake (s : State) (i : Fin 5) :
    (s.modCore i (fun k => { k with waiting := false })).fetchTrouble i = s.fetchTrouble i := by
  simp only [State.fetchTrouble, Fin.getElem_fin, State.modCore_core_self]
  rw [State.access_modCore _ _ _ _ _ _ _ _ rfl]
  simp only [State.lineHeld_wake]

/-! ### Fetch and issue leave alone -/

/-- The registers of the error correction (R335), which every read of memory may change. -/
def eccRegs : List Nat :=
  [CPM_ECC_CE.adr, MEMC_ECC_CE.adr, CPM_ECC_STAT.adr, MEMC_ECC_STAT.adr, CPM_ECC_ADDR_LO.adr, MEMC_ECC_ADDR_LO.adr,
    CPM_ECC_ADDR_HI.adr, MEMC_ECC_ADDR_HI.adr]

/-- What fetch and issue of an instruction change: clocks, counters, caches, free values, the errors that a read corrects,
and the long operation that completes; `t` keeps of `s` what the instructions of the core see. -/
structure Steady (s t : State) (i : Fin 5) : Prop where
  locked : t.locked = s.locked
  flip : (t.core[(i : Nat)]).flip = (s.core[(i : Nat)]).flip
  slot : (t.core[(i : Nat)]).slot = (s.core[(i : Nat)]).slot
  pc : (t.core[(i : Nat)]).pc = (s.core[(i : Nat)]).pc
  caps : (t.core[(i : Nat)]).caps = (s.core[(i : Nat)]).caps
  mem : t.mem = s.mem
  tags : t.tags = s.tags
  reg : ∀ x : Nat, x ∉ eccRegs → t.rd x = s.rd x
  other : ∀ j : Fin 5, i ≠ j → t.core[(j : Nat)] = s.core[(j : Nat)]

theorem Steady.refl (s : State) (i : Fin 5) : Steady s s i := by constructor <;> intros <;> rfl

theorem Steady.trans {s t u : State} {i : Fin 5} (h : Steady s t i) (g : Steady t u i) : Steady s u i := by
  constructor
  · rw [g.locked, h.locked]
  · rw [g.flip, h.flip]
  · rw [g.slot, h.slot]
  · rw [g.pc, h.pc]
  · rw [g.caps, h.caps]
  · rw [g.mem, h.mem]
  · rw [g.tags, h.tags]
  · intro x hx; rw [g.reg x hx, h.reg x hx]
  · intro j hj; rw [g.other j hj, h.other j hj]

theorem Steady.modCore (s : State) (i : Fin 5) (f : CoreSt → CoreSt) (h1 : ∀ k, (f k).flip = k.flip)
    (h2 : ∀ k, (f k).slot = k.slot) (h3 : ∀ k, (f k).pc = k.pc) (h4 : ∀ k, (f k).caps = k.caps) :
    Steady s (s.modCore i f) i := by
  constructor
  · rfl
  · simp [h1]
  · simp [h2]
  · simp [h3]
  · simp [h4]
  · rfl
  · rfl
  · intro x _; rfl
  · intro j hj; exact State.modCore_core_other s i j f hj

theorem Steady.spend (s : State) (i : Fin 5) (n : Nat) : Steady s (s.spend i n) i :=
  Steady.modCore s i _ (fun _ => rfl) (fun _ => rfl) (fun _ => rfl) (fun _ => rfl)

theorem Steady.spendOpen (s : State) (i : Fin 5) (n : Nat) : Steady s (s.spendOpen i n) i := by
  have h : Steady s s.drawNat.2 i := by constructor <;> intros <;> rfl
  exact h.trans (Steady.spend _ _ _)

/-- A register write of the error correction. -/
theorem Steady.setEcc (s : State) (i : Fin 5) (f : Fld) (v : Nat) (h : f.adr ∈ eccRegs) : Steady s (s.set f v) i := by
  constructor <;> try (intros; rfl)
  intro x hx
  have e : x ≠ f.adr := fun h' => hx (h' ▸ h)
  exact (State.rd_wr s f.adr _ x).trans (if_neg e)

theorem Steady.raiseEcc (s : State) (i : Fin 5) (f : Fld) (h : f.adr ∈ eccRegs) : Steady s (s.raise f) i := by
  have g : Steady (s.set f 1) (s.raise f) i := by constructor <;> intros <;> rfl
  exact (Steady.setEcc s i f 1 h).trans g

/-- A read of memory changes only what the error correction records (R333, R335). -/
theorem Steady.eccRead (s : State) (i : Fin 5) (a : Nat) : Steady s (s.eccRead a) i := by
  unfold State.eccRead
  split
  · exact Steady.refl s i
  · dsimp only
    split
    · exact Steady.refl s i
    · split
      · refine Steady.trans (t := { s with upset := SMap.set (fun _ => 0) s.upset (eccWord a) 0 }) ?_
          (Steady.setEcc _ i _ _ ?_)
        · constructor <;> intros <;> rfl
        · split <;> decide
      · split
        · exact ((Steady.raiseEcc s i _ (by decide)).trans (Steady.setEcc _ i _ _ (by decide))).trans
            (Steady.setEcc _ i _ _ (by decide))
        · exact ((Steady.raiseEcc s i _ (by decide)).trans (Steady.setEcc _ i _ _ (by decide))).trans
            (Steady.setEcc _ i _ _ (by decide))

theorem Steady.eccReads (s : State) (i : Fin 5) (a n : Nat) : Steady s (s.eccReads a n) i := by
  unfold State.eccReads
  generalize s.upset.filter _ = l
  induction l generalizing s with
  | nil => exact Steady.refl s i
  | cons kv l ih => exact (Steady.eccRead s i kv.1).trans (ih _)

theorem CoreSt.allocate_keeps (k : CoreSt) (i : Fin 5) (n : Nat) :
    (k.allocate i n).flip = k.flip ∧ (k.allocate i n).slot = k.slot ∧ (k.allocate i n).pc = k.pc ∧
      (k.allocate i n).caps = k.caps := by
  unfold CoreSt.allocate
  split <;> exact ⟨rfl, rfl, rfl, rfl⟩

theorem Steady.fetch (s : State) (i : Fin 5) : Steady s (s.fetch i).2 i := by
  unfold State.fetch
  simp only
  split
  · exact Steady.eccReads s i _ _
  · split
    · exact Steady.spendOpen s i 0
    · split
      · exact Steady.refl s i
      · split
        · dsimp only
          exact Steady.modCore s i _ (fun _ => rfl) (fun _ => rfl) (fun _ => rfl) (fun _ => rfl)
        · exact ((Steady.eccReads s i _ _).trans (Steady.spendOpen _ i 1)).trans (Steady.modCore _ i _
            (fun k => (CoreSt.allocate_keeps k i _).1) (fun k => (CoreSt.allocate_keeps k i _).2.1)
            (fun k => (CoreSt.allocate_keeps k i _).2.2.1) (fun k => (CoreSt.allocate_keeps k i _).2.2.2))

theorem CoreSt.longWrite_keeps (k : CoreSt) :
    k.longWrite.flip = k.flip ∧ k.longWrite.slot = k.slot ∧ k.longWrite.pc = k.pc ∧ k.longWrite.caps = k.caps := by
  unfold CoreSt.longWrite
  split <;> exact ⟨rfl, rfl, rfl, rfl⟩

theorem Steady.longDone (s : State) (i : Fin 5) (h : (s.core[(i : Nat)]).flip = false) : Steady s (s.longDone i) i := by
  unfold State.longDone
  simp only [Fin.getElem_fin]
  split
  · exact Steady.refl s i
  · split
    · exact Steady.refl s i
    · simp only [h, Bool.false_and]
      exact Steady.modCore s i _ (fun k => k.longWrite_keeps.1) (fun k => k.longWrite_keeps.2.1)
        (fun k => k.longWrite_keeps.2.2.1) (fun k => k.longWrite_keeps.2.2.2)

theorem Steady.issue (s : State) (i : Fin 5) (op : Op) (h : (s.core[(i : Nat)]).flip = false) :
    Steady s (s.issue i op) i := by
  have key : ∀ f : CoreSt → CoreSt, (∀ k, (f k).flip = k.flip) → (∀ k, (f k).slot = k.slot) →
      (∀ k, (f k).pc = k.pc) → (∀ k, (f k).caps = k.caps) →
      Steady s (((s.modCore i f).longDone i).spend i 1) i := by
    intro f h1 h2 h3 h4
    refine ((Steady.modCore s i f h1 h2 h3 h4).trans (Steady.longDone _ _ ?_)).trans (Steady.spend _ _ _)
    rw [State.modCore_core_self, h1, h]
  unfold State.issue
  apply key <;> intro k <;> rfl

theorem Steady.issued (s : State) (c : CoreId) (op : Op) (h : (s.core[(coreIx c : Nat)]).flip = false) :
    Steady s (s.issued c op) (coreIx c) := by
  unfold State.issued
  have h0 : Steady s (s.modCore (coreIx c) (fun k => { k with waiting := false })) (coreIx c) :=
    Steady.modCore s _ _ (fun _ => rfl) (fun _ => rfl) (fun _ => rfl) (fun _ => rfl)
  have h1 := h0.trans (Steady.fetch _ _)
  exact h1.trans (Steady.issue _ _ op (by rw [h1.flip]; exact h))

/-! ### The course of an instruction -/

/-- The parts of `ready`. -/
theorem State.ready_parts {s : State} {c : CoreId} {op : Op} (h : s.ready c op = true) :
    s.coreRuns (coreIx c) = true ∧ s.fetchTrouble (coreIx c) = none ∧
      (op.slotOk = true ∨ (s.core[(coreIx c : Nat)]).slot = none) ∧ (s.core[(coreIx c : Nat)]).flip = false := by
  simp only [State.ready, Bool.and_eq_true, Bool.or_eq_true, Bool.not_eq_true', Option.isNone_iff_eq_none,
    Fin.getElem_fin] at h
  exact ⟨h.1.1.1, h.1.1.2, h.1.2, h.2⟩

/-- A ready core is not locked up. -/
theorem State.coreRuns_lockedUp {s : State} {i : Fin 5} (h : s.coreRuns i = true) : s.lockedUp i = false := by
  unfold State.coreRuns State.coreUp at h
  unfold State.lockedUp
  by_cases hi : i.val < 2
  · simp only [hi, if_true, Bool.and_eq_true, State.lockedUp, Bool.not_eq_true'] at h
    simpa [hi] using h.1.2
  · simp [hi]

/-- A ready core executes: with no fault and no reset of itself the instruction retires, with a fault it takes
that. -/
theorem State.run_ready {s : State} {c : CoreId} {op : Op} {body : Body} (h : s.ready c op = true) :
    s.run c op body = match (body (s.issued c op)).2 with
      | some x => (body (s.issued c op)).1.takeFault (coreIx c) x
      | none => if ((body (s.issued c op)).1.core[(coreIx c : Nat)]).cycle <
            ((s.issued c op).core[(coreIx c : Nat)]).cycle then (body (s.issued c op)).1
        else (body (s.issued c op)).1.retire (coreIx c) op.count (s.misses c) := by
  obtain ⟨h1, h2, h3, h4⟩ := State.ready_parts h
  have hs := Steady.issued s c op h4
  have h0 : Steady s (s.modCore (coreIx c) (fun k => { k with waiting := false })) (coreIx c) :=
    Steady.modCore s _ _ (fun _ => rfl) (fun _ => rfl) (fun _ => rfl) (fun _ => rfl)
  have hf := h0.trans (Steady.fetch _ _)
  have hl : (s.issued c op).lockedUp (coreIx c) = false := by
    have := State.coreRuns_lockedUp h1
    unfold State.lockedUp at this ⊢
    rw [hs.locked]; exact this
  have hflip : ((s.issued c op).core[(coreIx c : Nat)]).flip = false := by rw [hs.flip]; exact h4
  have hslot : ((((s.modCore (coreIx c) (fun k => { k with waiting := false })).fetch
      (coreIx c)).2.core[(coreIx c : Nat)]).slot.isSome && !op.slotOk) = false := by
    rw [hf.slot]
    rcases h3 with h3 | h3 <;> simp [h3]
  unfold State.run
  simp only [h1, Bool.not_true, Bool.false_eq_true, if_false, State.fetchTrouble_wake, h2, Fin.getElem_fin]
  rw [hslot]
  simp only [Bool.false_eq_true, if_false]
  have e : ((s.modCore (coreIx c) (fun k => { k with waiting := false })).fetch (coreIx c)).2.issue (coreIx c) op =
        s.issued c op := rfl
  rw [e, hl]
  simp only [Bool.false_eq_true, if_false, hflip, Bool.false_and]
  rfl

theorem State.run_retires {s t : State} {c : CoreId} {op : Op} {body : Body} (h : s.ready c op = true)
    (hb : body (s.issued c op) = (t, none))
    (hc : ¬ (t.core[(coreIx c : Nat)]).cycle < ((s.issued c op).core[(coreIx c : Nat)]).cycle) :
    s.run c op body = t.retire (coreIx c) op.count (s.misses c) := by
  rw [State.run_ready h]
  simp [hb, hc]

theorem State.run_faults {s t : State} {c : CoreId} {op : Op} {body : Body} {x : Trouble} (h : s.ready c op = true)
    (hb : body (s.issued c op) = (t, some x)) : s.run c op body = t.takeFault (coreIx c) x := by
  rw [State.run_ready h]
  simp [hb]

theorem State.runOk_ready {s : State} {c : CoreId} {op : Op} {f : State → State} (h : s.ready c op = true)
    (hc : ¬ ((f (s.issued c op)).core[(coreIx c : Nat)]).cycle < ((s.issued c op).core[(coreIx c : Nat)]).cycle) :
    s.runOk c op f = (f (s.issued c op)).retire (coreIx c) op.count (s.misses c) := by
  exact State.run_retires h rfl hc

@[simp] theorem State.setGr_cycle (s : State) (i : Fin 5) (r : Reg) (w : Word) :
    ((s.setGr i r w).core[(i : Nat)]).cycle = (s.core[(i : Nat)]).cycle := by
  unfold State.setGr
  split <;> simp

@[simp] theorem State.setCap_cycle (s : State) (i : Fin 5) (n : CapIx) (k : Cap) :
    ((s.setCap i n k).core[(i : Nat)]).cycle = (s.core[(i : Nat)]).cycle := by
  simp [State.setCap]

/-! ### What retirement leaves alone -/

@[simp] theorem CoreSt.predFlushNormal_regs (k : CoreSt) : k.predFlushNormal.regs = k.regs := by
  unfold CoreSt.predFlushNormal; split <;> rfl

theorem CoreSt.leaveSlot_regs (k : CoreSt) (t : Transfer) : (k.leaveSlot t).regs = k.regs := by
  unfold CoreSt.leaveSlot
  cases t.code with
  | none => rfl
  | some c =>
    refine (apply_ite CoreSt.regs _ _ _).trans ?_
    rw [CoreSt.predFlushNormal_regs]
    exact ite_self _

@[simp] theorem CoreSt.retire_regs (k : CoreSt) (n : Nat) (m : Bool) : (k.retire n m).regs = k.regs := by
  unfold CoreSt.retire
  split
  · split
    · rfl
    · exact CoreSt.leaveSlot_regs _ _
  · rfl

@[simp] theorem CoreSt.predFlushNormal_fflags (k : CoreSt) : k.predFlushNormal.fflags = k.fflags := by
  unfold CoreSt.predFlushNormal; split <;> rfl

theorem CoreSt.leaveSlot_fflags (k : CoreSt) (t : Transfer) : (k.leaveSlot t).fflags = k.fflags := by
  unfold CoreSt.leaveSlot
  cases t.code with
  | none => rfl
  | some c =>
    refine (apply_ite CoreSt.fflags _ _ _).trans ?_
    rw [CoreSt.predFlushNormal_fflags]
    exact ite_self _

@[simp] theorem CoreSt.retire_fflags (k : CoreSt) (n : Nat) (m : Bool) : (k.retire n m).fflags = k.fflags := by
  unfold CoreSt.retire
  split
  · split
    · rfl
    · exact CoreSt.leaveSlot_fflags _ _
  · rfl

@[simp] theorem State.retire_byte (s : State) (i : Fin 5) (n : Nat) (m : Bool) (a : Nat) :
    (s.retire i n m).byte a = s.byte a := rfl

@[simp] theorem State.retire_tags (s : State) (i : Fin 5) (n : Nat) (m : Bool) : (s.retire i n m).tags = s.tags := rfl

@[simp] theorem State.retire_reg (s : State) (i : Fin 5) (n : Nat) (m : Bool) : (s.retire i n m).reg = s.reg := rfl

@[simp] theorem State.retire_gr (s : State) (i : Fin 5) (n : Nat) (m : Bool) (r : Reg) :
    (s.retire i n m).gr i r = s.gr i r := by
  simp [State.gr, State.retire]

theorem State.retire_other (s : State) (i j : Fin 5) (n : Nat) (m : Bool) (h : i ≠ j) :
    (s.retire i n m).core[(j : Nat)] = s.core[(j : Nat)] := State.modCore_core_other s i j _ h

/-- An access that passes its checks: its address is aligned, and every check of R417 holds. -/
theorem State.access_ok {s : State} {i : Fin 5} {n : Fin 8} {need offs sz a : Nat} {wr : Bool}
    (h : s.access i n need offs sz wr = .ok a) :
    a = (s.cap i n).base + offs ∧ a % sz = 0 ∧ (s.cap i n).check need offs sz = none ∧ s.reach6 i a sz wr = none := by
  unfold State.access at h
  simp only [Fin.getElem_fin] at h
  unfold State.cap
  simp only [Fin.getElem_fin]
  split at h
  · cases h
  · split at h
    · cases h
    · split at h
      · cases h
      · split at h
        · cases h
        · cases h; rename_i h1 h2 _ h3 _; exact ⟨rfl, by omega, h1, h3⟩

end Sys2Proof.Machine
end

