-- ==== Sys2Proof/Laws/Link.lean ====
section
/-!
SUPPORT. Laws/Link.lean: what the link responder makes of a request that comes in as a command of the table.
-/
namespace Sys2Proof.Machine

/-- A request in an open session carries the CMAC that verifies under its key (R59). -/
theorem State.authBy_incoming {s : State} {rq : Req} {x : Session} (c : HostCmd) (ha : rq.auth = true)
    (hx : s.session rq.tag = some x) : s.authBy (s.incoming rq c) = some x := by
  simp [State.authBy, State.incoming, State.senderMac, ha, hx]

/-- A request without a CMAC is in no session. -/
theorem State.authBy_plain {s : State} {rq : Req} (c : HostCmd) (ha : rq.auth = false) :
    s.authBy (s.incoming rq c) = none := by
  simp [State.authBy, State.incoming, ha]

/-- A command frame in an open session whose sequence number follows, while firmware runs and a credit is left, is
judged a command (R51, R54). -/
theorem State.judge_session {s : State} {rq : Req} {c : HostCmd} {x : Session} (ha : rq.auth = true)
    (hx : s.session rq.tag = some x) (hq : seqFollows x.last rq.seq = true) (hk : s.kept = [])
    (hf : s.fwst = 2) (hc : s.credits ≠ 0) (hw : isWindow (hostOp c) = false) :
    s.judge (s.incoming rq c) = .command := by
  have h : s.authOk (s.incoming rq c) = true := by
    rw [State.authOk, State.authBy_incoming c ha hx]; simpa [State.incoming] using Or.inr hq
  have hn : s.keptReply (s.incoming rq c) = none := by
    rw [State.keptReply, State.authBy_incoming c ha hx]; simp [hk]
  simp only [State.judge, hn, h]
  simp [State.incoming, hw, hf, hc]

/-- So is one without a CMAC (R51). -/
theorem State.judge_plain {s : State} {rq : Req} {c : HostCmd} (ha : rq.auth = false) (hk : s.kept = [])
    (hf : s.fwst = 2) (hc : s.credits ≠ 0) (hw : isWindow (hostOp c) = false) :
    s.judge (s.incoming rq c) = .command := by
  have h : s.authOk (s.incoming rq c) = true := by simp [State.authOk, State.incoming, ha]
  have hn : s.keptReply (s.incoming rq c) = none := by simp [State.keptReply, State.incoming, ha, hk]
  simp only [State.judge, hn, h]
  simp [State.incoming, hw, hf, hc]

/-- The command then waits with the key of its session. -/
theorem State.waitingOf_session {s : State} {rq : Req} {c : HostCmd} {x : Session} (ha : rq.auth = true)
    (hx : s.session rq.tag = some x) :
    s.waitingOf (s.incoming rq c) = { rq := rq, op := hostOp c, key := some x.key } := by
  rw [State.waitingOf, State.authBy_incoming c ha hx]; rfl

end Sys2Proof.Machine
end

