-- ==== Sys2Proof/Laws/State.lean ====
section
/-!
SUPPORT. Laws/State.lean: what each update of State leaves in each of its fields, and what a field of a register reads
after a write of it.
-/
namespace Sys2Proof.Machine

/-! ### Fields of words -/

/-- A field that was written reads as what was written, to its width. -/
theorem fieldOf_withField (w : Word) (m l v : Nat) (h : l ≤ m) (hm : m < 32) :
    fieldOf (withField w m l v) m l = v % 2 ^ (m + 1 - l) := by
  obtain ⟨k, rfl⟩ := Nat.exists_eq_add_of_le h
  have e : l + k + 1 - l = k + 1 := by omega
  have hp : 2 ^ (l + k + 1) = 2 ^ l * 2 ^ (k + 1) := by rw [Nat.add_assoc, Nat.pow_add]
  have hl : w.toNat % 2 ^ l < 2 ^ l := Nat.mod_lt _ (Nat.two_pow_pos _)
  have hv : v % 2 ^ (k + 1) < 2 ^ (k + 1) := Nat.mod_lt _ (Nat.two_pow_pos _)
  have hd : 2 ^ (l + k + 1) ∣ 2 ^ 32 := Nat.pow_dvd_pow 2 (by omega)
  have hmm : ∀ x, x % 2 ^ 32 / 2 ^ l % 2 ^ (k + 1) = x / 2 ^ l % 2 ^ (k + 1) := by
    intro x
    have := Nat.mod_mul_right_div_self (x % 2 ^ 32) (2 ^ l) (2 ^ (k + 1))
    rw [← this, ← hp, Nat.mod_mod_of_dvd _ hd, hp, Nat.mod_mul_right_div_self]
  simp only [fieldOf, withField, e, BitVec.toNat_ofNat, hmm]
  rw [hp, Nat.add_assoc, ← Nat.mul_assoc, Nat.mul_right_comm _ (2 ^ l), ← Nat.add_mul,
    Nat.add_mul_div_right _ _ (Nat.two_pow_pos _), Nat.div_eq_of_lt hl, Nat.zero_add, Nat.add_mul_mod_self_right,
    Nat.mod_mod]

theorem State.rd_set (s : State) (f : Fld) (v x : Nat) :
    (s.set f v).rd x = if x = f.adr then withField (s.rd f.adr) f.msb f.lsb v else s.rd x := State.rd_wr ..

/-- A field that was set reads as what it was set to. -/
theorem State.get_set (s : State) (f : Fld) (v : Nat) (h : f.lsb ≤ f.msb) (hm : f.msb < 32) :
    (s.set f v).get f = v % 2 ^ (f.msb + 1 - f.lsb) := by
  rw [State.get, State.rd_set, if_pos rfl, fieldOf_withField _ _ _ _ h hm]

/-- A field of another register reads as before. -/
theorem State.get_set_other (s : State) (f g : Fld) (v : Nat) (h : g.adr ≠ f.adr) : (s.set f v).get g = s.get g := by
  rw [State.get, State.rd_set, if_neg h]; rfl

theorem State.get_wr_other (s : State) (a : Nat) (w : Word) (g : Fld) (h : g.adr ≠ a) : (s.wr a w).get g = s.get g := by
  rw [State.get, State.rd_wr, if_neg h]; rfl

theorem State.core_putLe (s : State) (a n v : Nat) : (s.putLe a n v).core = s.core := State.core_putBytes ..

/-! ### One element of a vector -/

@[simp] theorem State.modTrk_self (s : State) (n : Fin 16) (f : TrkSt → TrkSt) :
    (s.modTrk n f).trk[(n : Nat)] = f s.trk[(n : Nat)] := by
  simp [State.modTrk]
theorem State.modTrk_other (s : State) (n : Fin 16) (f : TrkSt → TrkSt) (j : Fin 16) (h : n ≠ j) :
    (s.modTrk n f).trk[(j : Nat)] = s.trk[(j : Nat)] := by
  have e : (n : Nat) ≠ (j : Nat) := fun x => h (Fin.ext x)
  simp [State.modTrk, e]

@[simp] theorem State.modCv_self (s : State) (n : Fin 24) (f : CvSt → CvSt) :
    (s.modCv n f).cv[(n : Nat)] = f s.cv[(n : Nat)] := by
  simp [State.modCv]
theorem State.modCv_other (s : State) (n : Fin 24) (f : CvSt → CvSt) (j : Fin 24) (h : n ≠ j) :
    (s.modCv n f).cv[(j : Nat)] = s.cv[(j : Nat)] := by
  have e : (n : Nat) ≠ (j : Nat) := fun x => h (Fin.ext x)
  simp [State.modCv, e]

@[simp] theorem State.modCmp_self (s : State) (n : Fin 32) (f : CmpSt → CmpSt) :
    (s.modCmp n f).cmp[(n : Nat)] = f s.cmp[(n : Nat)] := by
  simp [State.modCmp]
theorem State.modCmp_other (s : State) (n : Fin 32) (f : CmpSt → CmpSt) (j : Fin 32) (h : n ≠ j) :
    (s.modCmp n f).cmp[(j : Nat)] = s.cmp[(j : Nat)] := by
  have e : (n : Nat) ≠ (j : Nat) := fun x => h (Fin.ext x)
  simp [State.modCmp, e]

@[simp] theorem State.modSlc_self (s : State) (n : Fin 16) (f : SliceSt → SliceSt) :
    (s.modSlc n f).slc[(n : Nat)] = f s.slc[(n : Nat)] := by
  simp [State.modSlc]
theorem State.modSlc_other (s : State) (n : Fin 16) (f : SliceSt → SliceSt) (j : Fin 16) (h : n ≠ j) :
    (s.modSlc n f).slc[(j : Nat)] = s.slc[(j : Nat)] := by
  have e : (n : Nat) ≠ (j : Nat) := fun x => h (Fin.ext x)
  simp [State.modSlc, e]

@[simp] theorem State.modPair_self (s : State) (n : Fin 32) (f : PairSt → PairSt) :
    (s.modPair n f).pair[(n : Nat)] = f s.pair[(n : Nat)] := by
  simp [State.modPair]
theorem State.modPair_other (s : State) (n : Fin 32) (f : PairSt → PairSt) (j : Fin 32) (h : n ≠ j) :
    (s.modPair n f).pair[(j : Nat)] = s.pair[(j : Nat)] := by
  have e : (n : Nat) ≠ (j : Nat) := fun x => h (Fin.ext x)
  simp [State.modPair, e]

@[simp] theorem State.modChan_self (s : State) (n : Fin 16) (f : ChanSt → ChanSt) :
    (s.modChan n f).chan[(n : Nat)] = f s.chan[(n : Nat)] := by
  simp [State.modChan]
theorem State.modChan_other (s : State) (n : Fin 16) (f : ChanSt → ChanSt) (j : Fin 16) (h : n ≠ j) :
    (s.modChan n f).chan[(j : Nat)] = s.chan[(j : Nat)] := by
  have e : (n : Nat) ≠ (j : Nat) := fun x => h (Fin.ext x)
  simp [State.modChan, e]

@[simp] theorem State.modDom_self (s : State) (n : Fin 3) (f : DomSt → DomSt) :
    (s.modDom n f).dom[(n : Nat)] = f s.dom[(n : Nat)] := by
  simp [State.modDom]
theorem State.modDom_other (s : State) (n : Fin 3) (f : DomSt → DomSt) (j : Fin 3) (h : n ≠ j) :
    (s.modDom n f).dom[(j : Nat)] = s.dom[(j : Nat)] := by
  have e : (n : Nat) ≠ (j : Nat) := fun x => h (Fin.ext x)
  simp [State.modDom, e]

@[simp] theorem State.modPort_self (s : State) (n : Fin 2) (f : PortLink → PortLink) :
    (s.modPort n f).port[(n : Nat)] = f s.port[(n : Nat)] := by
  simp [State.modPort]
theorem State.modPort_other (s : State) (n : Fin 2) (f : PortLink → PortLink) (j : Fin 2) (h : n ≠ j) :
    (s.modPort n f).port[(j : Nat)] = s.port[(j : Nat)] := by
  have e : (n : Nat) ≠ (j : Nat) := fun x => h (Fin.ext x)
  simp [State.modPort, e]

@[simp] theorem State.modUart_self (s : State) (n : Fin 4) (f : UartSt → UartSt) :
    (s.modUart n f).uart[(n : Nat)] = f s.uart[(n : Nat)] := by
  simp [State.modUart]
theorem State.modUart_other (s : State) (n : Fin 4) (f : UartSt → UartSt) (j : Fin 4) (h : n ≠ j) :
    (s.modUart n f).uart[(j : Nat)] = s.uart[(j : Nat)] := by
  have e : (n : Nat) ≠ (j : Nat) := fun x => h (Fin.ext x)
  simp [State.modUart, e]

/-! ### `wr` -/

@[simp] theorem State.wr_pending (s : State) (a : Nat) (w : Word) : (s.wr a w).pending = s.pending := rfl
@[simp] theorem State.wr_now (s : State) (a : Nat) (w : Word) : (s.wr a w).now = s.now := rfl
@[simp] theorem State.wr_free (s : State) (a : Nat) (w : Word) : (s.wr a w).free = s.free := rfl
@[simp] theorem State.wr_flags (s : State) (a : Nat) (w : Word) : (s.wr a w).flags = s.flags := rfl
@[simp] theorem State.wr_bank (s : State) (a : Nat) (w : Word) : (s.wr a w).bank = s.bank := rfl
@[simp] theorem State.wr_mem (s : State) (a : Nat) (w : Word) : (s.wr a w).mem = s.mem := rfl
@[simp] theorem State.wr_upset (s : State) (a : Nat) (w : Word) : (s.wr a w).upset = s.upset := rfl
@[simp] theorem State.wr_scrub (s : State) (a : Nat) (w : Word) : (s.wr a w).scrub = s.scrub := rfl
@[simp] theorem State.wr_sdram (s : State) (a : Nat) (w : Word) : (s.wr a w).sdram = s.sdram := rfl
@[simp] theorem State.wr_tags (s : State) (a : Nat) (w : Word) : (s.wr a w).tags = s.tags := rfl
@[simp] theorem State.wr_answer (s : State) (a : Nat) (w : Word) : (s.wr a w).answer = s.answer := rfl
@[simp] theorem State.wr_arrived (s : State) (a : Nat) (w : Word) : (s.wr a w).arrived = s.arrived := rfl
@[simp] theorem State.wr_aoWait (s : State) (a : Nat) (w : Word) : (s.wr a w).aoWait = s.aoWait := rfl
@[simp] theorem State.wr_brcFrom (s : State) (a : Nat) (w : Word) : (s.wr a w).brcFrom = s.brcFrom := rfl
@[simp] theorem State.wr_raised (s : State) (a : Nat) (w : Word) : (s.wr a w).raised = s.raised := rfl
@[simp] theorem State.wr_evtAt (s : State) (a : Nat) (w : Word) : (s.wr a w).evtAt = s.evtAt := rfl
@[simp] theorem State.wr_trk (s : State) (a : Nat) (w : Word) : (s.wr a w).trk = s.trk := rfl
@[simp] theorem State.wr_enc (s : State) (a : Nat) (w : Word) : (s.wr a w).enc = s.enc := rfl
@[simp] theorem State.wr_alm (s : State) (a : Nat) (w : Word) : (s.wr a w).alm = s.alm := rfl
@[simp] theorem State.wr_almc (s : State) (a : Nat) (w : Word) : (s.wr a w).almc = s.almc := rfl
@[simp] theorem State.wr_cv (s : State) (a : Nat) (w : Word) : (s.wr a w).cv = s.cv := rfl
@[simp] theorem State.wr_ain (s : State) (a : Nat) (w : Word) : (s.wr a w).ain = s.ain := rfl
@[simp] theorem State.wr_cmp (s : State) (a : Nat) (w : Word) : (s.wr a w).cmp = s.cmp := rfl
@[simp] theorem State.wr_slc (s : State) (a : Nat) (w : Word) : (s.wr a w).slc = s.slc := rfl
@[simp] theorem State.wr_dues (s : State) (a : Nat) (w : Word) : (s.wr a w).dues = s.dues := rfl
@[simp] theorem State.wr_pair (s : State) (a : Nat) (w : Word) : (s.wr a w).pair = s.pair := rfl
@[simp] theorem State.wr_gen (s : State) (a : Nat) (w : Word) : (s.wr a w).gen = s.gen := rfl
@[simp] theorem State.wr_lockLow (s : State) (a : Nat) (w : Word) : (s.wr a w).lockLow = s.lockLow := rfl
@[simp] theorem State.wr_chan (s : State) (a : Nat) (w : Word) : (s.wr a w).chan = s.chan := rfl
@[simp] theorem State.wr_dom (s : State) (a : Nat) (w : Word) : (s.wr a w).dom = s.dom := rfl
@[simp] theorem State.wr_fastFrom (s : State) (a : Nat) (w : Word) : (s.wr a w).fastFrom = s.fastFrom := rfl
@[simp] theorem State.wr_linkFree (s : State) (a : Nat) (w : Word) : (s.wr a w).linkFree = s.linkFree := rfl
@[simp] theorem State.wr_stops (s : State) (a : Nat) (w : Word) : (s.wr a w).stops = s.stops := rfl
@[simp] theorem State.wr_pll (s : State) (a : Nat) (w : Word) : (s.wr a w).pll = s.pll := rfl
@[simp] theorem State.wr_brcAt (s : State) (a : Nat) (w : Word) : (s.wr a w).brcAt = s.brcAt := rfl
@[simp] theorem State.wr_lcs (s : State) (a : Nat) (w : Word) : (s.wr a w).lcs = s.lcs := rfl
@[simp] theorem State.wr_meter (s : State) (a : Nat) (w : Word) : (s.wr a w).meter = s.meter := rfl
@[simp] theorem State.wr_port (s : State) (a : Nat) (w : Word) : (s.wr a w).port = s.port := rfl
@[simp] theorem State.wr_upstream (s : State) (a : Nat) (w : Word) : (s.wr a w).upstream = s.upstream := rfl
@[simp] theorem State.wr_addr (s : State) (a : Nat) (w : Word) : (s.wr a w).addr = s.addr := rfl
@[simp] theorem State.wr_mac (s : State) (a : Nat) (w : Word) : (s.wr a w).mac = s.mac := rfl
@[simp] theorem State.wr_ptpAdj (s : State) (a : Nat) (w : Word) : (s.wr a w).ptpAdj = s.ptpAdj := rfl
@[simp] theorem State.wr_tx (s : State) (a : Nat) (w : Word) : (s.wr a w).tx = s.tx := rfl
@[simp] theorem State.wr_sent (s : State) (a : Nat) (w : Word) : (s.wr a w).sent = s.sent := rfl
@[simp] theorem State.wr_sessions (s : State) (a : Nat) (w : Word) : (s.wr a w).sessions = s.sessions := rfl
@[simp] theorem State.wr_waiting (s : State) (a : Nat) (w : Word) : (s.wr a w).waiting = s.waiting := rfl
@[simp] theorem State.wr_replies (s : State) (a : Nat) (w : Word) : (s.wr a w).replies = s.replies := rfl
@[simp] theorem State.wr_kept (s : State) (a : Nat) (w : Word) : (s.wr a w).kept = s.kept := rfl
@[simp] theorem State.wr_credits (s : State) (a : Nat) (w : Word) : (s.wr a w).credits = s.credits := rfl
@[simp] theorem State.wr_nocred (s : State) (a : Nat) (w : Word) : (s.wr a w).nocred = s.nocred := rfl
@[simp] theorem State.wr_fcode (s : State) (a : Nat) (w : Word) : (s.wr a w).fcode = s.fcode := rfl
@[simp] theorem State.wr_scratch (s : State) (a : Nat) (w : Word) : (s.wr a w).scratch = s.scratch := rfl
@[simp] theorem State.wr_epoch (s : State) (a : Nat) (w : Word) : (s.wr a w).epoch = s.epoch := rfl
@[simp] theorem State.wr_draws (s : State) (a : Nat) (w : Word) : (s.wr a w).draws = s.draws := rfl
@[simp] theorem State.wr_puts (s : State) (a : Nat) (w : Word) : (s.wr a w).puts = s.puts := rfl
@[simp] theorem State.wr_prov (s : State) (a : Nat) (w : Word) : (s.wr a w).prov = s.prov := rfl
@[simp] theorem State.wr_openBy (s : State) (a : Nat) (w : Word) : (s.wr a w).openBy = s.openBy := rfl
@[simp] theorem State.wr_img (s : State) (a : Nat) (w : Word) : (s.wr a w).img = s.img := rfl
@[simp] theorem State.wr_restored (s : State) (a : Nat) (w : Word) : (s.wr a w).restored = s.restored := rfl
@[simp] theorem State.wr_wdog (s : State) (a : Nat) (w : Word) : (s.wr a w).wdog = s.wdog := rfl
@[simp] theorem State.wr_ptpOff (s : State) (a : Nat) (w : Word) : (s.wr a w).ptpOff = s.ptpOff := rfl
@[simp] theorem State.wr_ptpGood (s : State) (a : Nat) (w : Word) : (s.wr a w).ptpGood = s.ptpGood := rfl
@[simp] theorem State.wr_hbs (s : State) (a : Nat) (w : Word) : (s.wr a w).hbs = s.hbs := rfl
@[simp] theorem State.wr_split (s : State) (a : Nat) (w : Word) : (s.wr a w).split = s.split := rfl
@[simp] theorem State.wr_tripSeen (s : State) (a : Nat) (w : Word) : (s.wr a w).tripSeen = s.tripSeen := rfl
@[simp] theorem State.wr_devSeq (s : State) (a : Nat) (w : Word) : (s.wr a w).devSeq = s.devSeq := rfl
@[simp] theorem State.wr_inj (s : State) (a : Nat) (w : Word) : (s.wr a w).inj = s.inj := rfl
@[simp] theorem State.wr_tripTx (s : State) (a : Nat) (w : Word) : (s.wr a w).tripTx = s.tripTx := rfl
@[simp] theorem State.wr_tripin (s : State) (a : Nat) (w : Word) : (s.wr a w).tripin = s.tripin := rfl
@[simp] theorem State.wr_core (s : State) (a : Nat) (w : Word) : (s.wr a w).core = s.core := rfl
@[simp] theorem State.wr_scrDraws (s : State) (a : Nat) (w : Word) : (s.wr a w).scrDraws = s.scrDraws := rfl
@[simp] theorem State.wr_tap (s : State) (a : Nat) (w : Word) : (s.wr a w).tap = s.tap := rfl
@[simp] theorem State.wr_locked (s : State) (a : Nat) (w : Word) : (s.wr a w).locked = s.locked := rfl
@[simp] theorem State.wr_commit (s : State) (a : Nat) (w : Word) : (s.wr a w).commit = s.commit := rfl
@[simp] theorem State.wr_grn (s : State) (a : Nat) (w : Word) : (s.wr a w).grn = s.grn := rfl
@[simp] theorem State.wr_memcCfg (s : State) (a : Nat) (w : Word) : (s.wr a w).memcCfg = s.memcCfg := rfl
@[simp] theorem State.wr_ao (s : State) (a : Nat) (w : Word) : (s.wr a w).ao = s.ao := rfl
@[simp] theorem State.wr_cal (s : State) (a : Nat) (w : Word) : (s.wr a w).cal = s.cal := rfl
@[simp] theorem State.wr_lgr (s : State) (a : Nat) (w : Word) : (s.wr a w).lgr = s.lgr := rfl
@[simp] theorem State.wr_sec (s : State) (a : Nat) (w : Word) : (s.wr a w).sec = s.sec := rfl
@[simp] theorem State.wr_uart (s : State) (a : Nat) (w : Word) : (s.wr a w).uart = s.uart := rfl
@[simp] theorem State.wr_tch (s : State) (a : Nat) (w : Word) : (s.wr a w).tch = s.tch := rfl
@[simp] theorem State.wr_lcd (s : State) (a : Nat) (w : Word) : (s.wr a w).lcd = s.lcd := rfl

/-! ### `set` -/

@[simp] theorem State.set_pending (s : State) (f : Fld) (v : Nat) : (s.set f v).pending = s.pending := rfl
@[simp] theorem State.set_now (s : State) (f : Fld) (v : Nat) : (s.set f v).now = s.now := rfl
@[simp] theorem State.set_free (s : State) (f : Fld) (v : Nat) : (s.set f v).free = s.free := rfl
@[simp] theorem State.set_flags (s : State) (f : Fld) (v : Nat) : (s.set f v).flags = s.flags := rfl
@[simp] theorem State.set_bank (s : State) (f : Fld) (v : Nat) : (s.set f v).bank = s.bank := rfl
@[simp] theorem State.set_mem (s : State) (f : Fld) (v : Nat) : (s.set f v).mem = s.mem := rfl
@[simp] theorem State.set_upset (s : State) (f : Fld) (v : Nat) : (s.set f v).upset = s.upset := rfl
@[simp] theorem State.set_scrub (s : State) (f : Fld) (v : Nat) : (s.set f v).scrub = s.scrub := rfl
@[simp] theorem State.set_sdram (s : State) (f : Fld) (v : Nat) : (s.set f v).sdram = s.sdram := rfl
@[simp] theorem State.set_tags (s : State) (f : Fld) (v : Nat) : (s.set f v).tags = s.tags := rfl
@[simp] theorem State.set_answer (s : State) (f : Fld) (v : Nat) : (s.set f v).answer = s.answer := rfl
@[simp] theorem State.set_arrived (s : State) (f : Fld) (v : Nat) : (s.set f v).arrived = s.arrived := rfl
@[simp] theorem State.set_aoWait (s : State) (f : Fld) (v : Nat) : (s.set f v).aoWait = s.aoWait := rfl
@[simp] theorem State.set_brcFrom (s : State) (f : Fld) (v : Nat) : (s.set f v).brcFrom = s.brcFrom := rfl
@[simp] theorem State.set_raised (s : State) (f : Fld) (v : Nat) : (s.set f v).raised = s.raised := rfl
@[simp] theorem State.set_evtAt (s : State) (f : Fld) (v : Nat) : (s.set f v).evtAt = s.evtAt := rfl
@[simp] theorem State.set_trk (s : State) (f : Fld) (v : Nat) : (s.set f v).trk = s.trk := rfl
@[simp] theorem State.set_enc (s : State) (f : Fld) (v : Nat) : (s.set f v).enc = s.enc := rfl
@[simp] theorem State.set_alm (s : State) (f : Fld) (v : Nat) : (s.set f v).alm = s.alm := rfl
@[simp] theorem State.set_almc (s : State) (f : Fld) (v : Nat) : (s.set f v).almc = s.almc := rfl
@[simp] theorem State.set_cv (s : State) (f : Fld) (v : Nat) : (s.set f v).cv = s.cv := rfl
@[simp] theorem State.set_ain (s : State) (f : Fld) (v : Nat) : (s.set f v).ain = s.ain := rfl
@[simp] theorem State.set_cmp (s : State) (f : Fld) (v : Nat) : (s.set f v).cmp = s.cmp := rfl
@[simp] theorem State.set_slc (s : State) (f : Fld) (v : Nat) : (s.set f v).slc = s.slc := rfl
@[simp] theorem State.set_dues (s : State) (f : Fld) (v : Nat) : (s.set f v).dues = s.dues := rfl
@[simp] theorem State.set_pair (s : State) (f : Fld) (v : Nat) : (s.set f v).pair = s.pair := rfl
@[simp] theorem State.set_gen (s : State) (f : Fld) (v : Nat) : (s.set f v).gen = s.gen := rfl
@[simp] theorem State.set_lockLow (s : State) (f : Fld) (v : Nat) : (s.set f v).lockLow = s.lockLow := rfl
@[simp] theorem State.set_chan (s : State) (f : Fld) (v : Nat) : (s.set f v).chan = s.chan := rfl
@[simp] theorem State.set_dom (s : State) (f : Fld) (v : Nat) : (s.set f v).dom = s.dom := rfl
@[simp] theorem State.set_fastFrom (s : State) (f : Fld) (v : Nat) : (s.set f v).fastFrom = s.fastFrom := rfl
@[simp] theorem State.set_linkFree (s : State) (f : Fld) (v : Nat) : (s.set f v).linkFree = s.linkFree := rfl
@[simp] theorem State.set_stops (s : State) (f : Fld) (v : Nat) : (s.set f v).stops = s.stops := rfl
@[simp] theorem State.set_pll (s : State) (f : Fld) (v : Nat) : (s.set f v).pll = s.pll := rfl
@[simp] theorem State.set_brcAt (s : State) (f : Fld) (v : Nat) : (s.set f v).brcAt = s.brcAt := rfl
@[simp] theorem State.set_lcs (s : State) (f : Fld) (v : Nat) : (s.set f v).lcs = s.lcs := rfl
@[simp] theorem State.set_meter (s : State) (f : Fld) (v : Nat) : (s.set f v).meter = s.meter := rfl
@[simp] theorem State.set_port (s : State) (f : Fld) (v : Nat) : (s.set f v).port = s.port := rfl
@[simp] theorem State.set_upstream (s : State) (f : Fld) (v : Nat) : (s.set f v).upstream = s.upstream := rfl
@[simp] theorem State.set_addr (s : State) (f : Fld) (v : Nat) : (s.set f v).addr = s.addr := rfl
@[simp] theorem State.set_mac (s : State) (f : Fld) (v : Nat) : (s.set f v).mac = s.mac := rfl
@[simp] theorem State.set_ptpAdj (s : State) (f : Fld) (v : Nat) : (s.set f v).ptpAdj = s.ptpAdj := rfl
@[simp] theorem State.set_tx (s : State) (f : Fld) (v : Nat) : (s.set f v).tx = s.tx := rfl
@[simp] theorem State.set_sent (s : State) (f : Fld) (v : Nat) : (s.set f v).sent = s.sent := rfl
@[simp] theorem State.set_sessions (s : State) (f : Fld) (v : Nat) : (s.set f v).sessions = s.sessions := rfl
@[simp] theorem State.set_waiting (s : State) (f : Fld) (v : Nat) : (s.set f v).waiting = s.waiting := rfl
@[simp] theorem State.set_replies (s : State) (f : Fld) (v : Nat) : (s.set f v).replies = s.replies := rfl
@[simp] theorem State.set_kept (s : State) (f : Fld) (v : Nat) : (s.set f v).kept = s.kept := rfl
@[simp] theorem State.set_credits (s : State) (f : Fld) (v : Nat) : (s.set f v).credits = s.credits := rfl
@[simp] theorem State.set_nocred (s : State) (f : Fld) (v : Nat) : (s.set f v).nocred = s.nocred := rfl
@[simp] theorem State.set_fcode (s : State) (f : Fld) (v : Nat) : (s.set f v).fcode = s.fcode := rfl
@[simp] theorem State.set_scratch (s : State) (f : Fld) (v : Nat) : (s.set f v).scratch = s.scratch := rfl
@[simp] theorem State.set_epoch (s : State) (f : Fld) (v : Nat) : (s.set f v).epoch = s.epoch := rfl
@[simp] theorem State.set_draws (s : State) (f : Fld) (v : Nat) : (s.set f v).draws = s.draws := rfl
@[simp] theorem State.set_puts (s : State) (f : Fld) (v : Nat) : (s.set f v).puts = s.puts := rfl
@[simp] theorem State.set_prov (s : State) (f : Fld) (v : Nat) : (s.set f v).prov = s.prov := rfl
@[simp] theorem State.set_openBy (s : State) (f : Fld) (v : Nat) : (s.set f v).openBy = s.openBy := rfl
@[simp] theorem State.set_img (s : State) (f : Fld) (v : Nat) : (s.set f v).img = s.img := rfl
@[simp] theorem State.set_restored (s : State) (f : Fld) (v : Nat) : (s.set f v).restored = s.restored := rfl
@[simp] theorem State.set_wdog (s : State) (f : Fld) (v : Nat) : (s.set f v).wdog = s.wdog := rfl
@[simp] theorem State.set_ptpOff (s : State) (f : Fld) (v : Nat) : (s.set f v).ptpOff = s.ptpOff := rfl
@[simp] theorem State.set_ptpGood (s : State) (f : Fld) (v : Nat) : (s.set f v).ptpGood = s.ptpGood := rfl
@[simp] theorem State.set_hbs (s : State) (f : Fld) (v : Nat) : (s.set f v).hbs = s.hbs := rfl
@[simp] theorem State.set_split (s : State) (f : Fld) (v : Nat) : (s.set f v).split = s.split := rfl
@[simp] theorem State.set_tripSeen (s : State) (f : Fld) (v : Nat) : (s.set f v).tripSeen = s.tripSeen := rfl
@[simp] theorem State.set_devSeq (s : State) (f : Fld) (v : Nat) : (s.set f v).devSeq = s.devSeq := rfl
@[simp] theorem State.set_inj (s : State) (f : Fld) (v : Nat) : (s.set f v).inj = s.inj := rfl
@[simp] theorem State.set_tripTx (s : State) (f : Fld) (v : Nat) : (s.set f v).tripTx = s.tripTx := rfl
@[simp] theorem State.set_tripin (s : State) (f : Fld) (v : Nat) : (s.set f v).tripin = s.tripin := rfl
@[simp] theorem State.set_core (s : State) (f : Fld) (v : Nat) : (s.set f v).core = s.core := rfl
@[simp] theorem State.set_scrDraws (s : State) (f : Fld) (v : Nat) : (s.set f v).scrDraws = s.scrDraws := rfl
@[simp] theorem State.set_tap (s : State) (f : Fld) (v : Nat) : (s.set f v).tap = s.tap := rfl
@[simp] theorem State.set_locked (s : State) (f : Fld) (v : Nat) : (s.set f v).locked = s.locked := rfl
@[simp] theorem State.set_commit (s : State) (f : Fld) (v : Nat) : (s.set f v).commit = s.commit := rfl
@[simp] theorem State.set_grn (s : State) (f : Fld) (v : Nat) : (s.set f v).grn = s.grn := rfl
@[simp] theorem State.set_memcCfg (s : State) (f : Fld) (v : Nat) : (s.set f v).memcCfg = s.memcCfg := rfl
@[simp] theorem State.set_ao (s : State) (f : Fld) (v : Nat) : (s.set f v).ao = s.ao := rfl
@[simp] theorem State.set_cal (s : State) (f : Fld) (v : Nat) : (s.set f v).cal = s.cal := rfl
@[simp] theorem State.set_lgr (s : State) (f : Fld) (v : Nat) : (s.set f v).lgr = s.lgr := rfl
@[simp] theorem State.set_sec (s : State) (f : Fld) (v : Nat) : (s.set f v).sec = s.sec := rfl
@[simp] theorem State.set_uart (s : State) (f : Fld) (v : Nat) : (s.set f v).uart = s.uart := rfl
@[simp] theorem State.set_tch (s : State) (f : Fld) (v : Nat) : (s.set f v).tch = s.tch := rfl
@[simp] theorem State.set_lcd (s : State) (f : Fld) (v : Nat) : (s.set f v).lcd = s.lcd := rfl

/-! ### `clearRegs` -/

@[simp] theorem State.clearRegs_pending (s : State) (a b : Nat) : (s.clearRegs a b).pending = s.pending := rfl
@[simp] theorem State.clearRegs_now (s : State) (a b : Nat) : (s.clearRegs a b).now = s.now := rfl
@[simp] theorem State.clearRegs_free (s : State) (a b : Nat) : (s.clearRegs a b).free = s.free := rfl
@[simp] theorem State.clearRegs_flags (s : State) (a b : Nat) : (s.clearRegs a b).flags = s.flags := rfl
@[simp] theorem State.clearRegs_bank (s : State) (a b : Nat) : (s.clearRegs a b).bank = s.bank := rfl
@[simp] theorem State.clearRegs_mem (s : State) (a b : Nat) : (s.clearRegs a b).mem = s.mem := rfl
@[simp] theorem State.clearRegs_upset (s : State) (a b : Nat) : (s.clearRegs a b).upset = s.upset := rfl
@[simp] theorem State.clearRegs_scrub (s : State) (a b : Nat) : (s.clearRegs a b).scrub = s.scrub := rfl
@[simp] theorem State.clearRegs_sdram (s : State) (a b : Nat) : (s.clearRegs a b).sdram = s.sdram := rfl
@[simp] theorem State.clearRegs_tags (s : State) (a b : Nat) : (s.clearRegs a b).tags = s.tags := rfl
@[simp] theorem State.clearRegs_answer (s : State) (a b : Nat) : (s.clearRegs a b).answer = s.answer := rfl
@[simp] theorem State.clearRegs_arrived (s : State) (a b : Nat) : (s.clearRegs a b).arrived = s.arrived := rfl
@[simp] theorem State.clearRegs_aoWait (s : State) (a b : Nat) : (s.clearRegs a b).aoWait = s.aoWait := rfl
@[simp] theorem State.clearRegs_brcFrom (s : State) (a b : Nat) : (s.clearRegs a b).brcFrom = s.brcFrom := rfl
@[simp] theorem State.clearRegs_raised (s : State) (a b : Nat) : (s.clearRegs a b).raised = s.raised := rfl
@[simp] theorem State.clearRegs_evtAt (s : State) (a b : Nat) : (s.clearRegs a b).evtAt = s.evtAt := rfl
@[simp] theorem State.clearRegs_trk (s : State) (a b : Nat) : (s.clearRegs a b).trk = s.trk := rfl
@[simp] theorem State.clearRegs_enc (s : State) (a b : Nat) : (s.clearRegs a b).enc = s.enc := rfl
@[simp] theorem State.clearRegs_alm (s : State) (a b : Nat) : (s.clearRegs a b).alm = s.alm := rfl
@[simp] theorem State.clearRegs_almc (s : State) (a b : Nat) : (s.clearRegs a b).almc = s.almc := rfl
@[simp] theorem State.clearRegs_cv (s : State) (a b : Nat) : (s.clearRegs a b).cv = s.cv := rfl
@[simp] theorem State.clearRegs_ain (s : State) (a b : Nat) : (s.clearRegs a b).ain = s.ain := rfl
@[simp] theorem State.clearRegs_cmp (s : State) (a b : Nat) : (s.clearRegs a b).cmp = s.cmp := rfl
@[simp] theorem State.clearRegs_slc (s : State) (a b : Nat) : (s.clearRegs a b).slc = s.slc := rfl
@[simp] theorem State.clearRegs_dues (s : State) (a b : Nat) : (s.clearRegs a b).dues = s.dues := rfl
@[simp] theorem State.clearRegs_pair (s : State) (a b : Nat) : (s.clearRegs a b).pair = s.pair := rfl
@[simp] theorem State.clearRegs_gen (s : State) (a b : Nat) : (s.clearRegs a b).gen = s.gen := rfl
@[simp] theorem State.clearRegs_lockLow (s : State) (a b : Nat) : (s.clearRegs a b).lockLow = s.lockLow := rfl
@[simp] theorem State.clearRegs_chan (s : State) (a b : Nat) : (s.clearRegs a b).chan = s.chan := rfl
@[simp] theorem State.clearRegs_dom (s : State) (a b : Nat) : (s.clearRegs a b).dom = s.dom := rfl
@[simp] theorem State.clearRegs_fastFrom (s : State) (a b : Nat) : (s.clearRegs a b).fastFrom = s.fastFrom := rfl
@[simp] theorem State.clearRegs_linkFree (s : State) (a b : Nat) : (s.clearRegs a b).linkFree = s.linkFree := rfl
@[simp] theorem State.clearRegs_stops (s : State) (a b : Nat) : (s.clearRegs a b).stops = s.stops := rfl
@[simp] theorem State.clearRegs_pll (s : State) (a b : Nat) : (s.clearRegs a b).pll = s.pll := rfl
@[simp] theorem State.clearRegs_brcAt (s : State) (a b : Nat) : (s.clearRegs a b).brcAt = s.brcAt := rfl
@[simp] theorem State.clearRegs_lcs (s : State) (a b : Nat) : (s.clearRegs a b).lcs = s.lcs := rfl
@[simp] theorem State.clearRegs_meter (s : State) (a b : Nat) : (s.clearRegs a b).meter = s.meter := rfl
@[simp] theorem State.clearRegs_port (s : State) (a b : Nat) : (s.clearRegs a b).port = s.port := rfl
@[simp] theorem State.clearRegs_upstream (s : State) (a b : Nat) : (s.clearRegs a b).upstream = s.upstream := rfl
@[simp] theorem State.clearRegs_addr (s : State) (a b : Nat) : (s.clearRegs a b).addr = s.addr := rfl
@[simp] theorem State.clearRegs_mac (s : State) (a b : Nat) : (s.clearRegs a b).mac = s.mac := rfl
@[simp] theorem State.clearRegs_ptpAdj (s : State) (a b : Nat) : (s.clearRegs a b).ptpAdj = s.ptpAdj := rfl
@[simp] theorem State.clearRegs_tx (s : State) (a b : Nat) : (s.clearRegs a b).tx = s.tx := rfl
@[simp] theorem State.clearRegs_sent (s : State) (a b : Nat) : (s.clearRegs a b).sent = s.sent := rfl
@[simp] theorem State.clearRegs_sessions (s : State) (a b : Nat) : (s.clearRegs a b).sessions = s.sessions := rfl
@[simp] theorem State.clearRegs_waiting (s : State) (a b : Nat) : (s.clearRegs a b).waiting = s.waiting := rfl
@[simp] theorem State.clearRegs_replies (s : State) (a b : Nat) : (s.clearRegs a b).replies = s.replies := rfl
@[simp] theorem State.clearRegs_kept (s : State) (a b : Nat) : (s.clearRegs a b).kept = s.kept := rfl
@[simp] theorem State.clearRegs_credits (s : State) (a b : Nat) : (s.clearRegs a b).credits = s.credits := rfl
@[simp] theorem State.clearRegs_nocred (s : State) (a b : Nat) : (s.clearRegs a b).nocred = s.nocred := rfl
@[simp] theorem State.clearRegs_fcode (s : State) (a b : Nat) : (s.clearRegs a b).fcode = s.fcode := rfl
@[simp] theorem State.clearRegs_scratch (s : State) (a b : Nat) : (s.clearRegs a b).scratch = s.scratch := rfl
@[simp] theorem State.clearRegs_epoch (s : State) (a b : Nat) : (s.clearRegs a b).epoch = s.epoch := rfl
@[simp] theorem State.clearRegs_draws (s : State) (a b : Nat) : (s.clearRegs a b).draws = s.draws := rfl
@[simp] theorem State.clearRegs_puts (s : State) (a b : Nat) : (s.clearRegs a b).puts = s.puts := rfl
@[simp] theorem State.clearRegs_prov (s : State) (a b : Nat) : (s.clearRegs a b).prov = s.prov := rfl
@[simp] theorem State.clearRegs_openBy (s : State) (a b : Nat) : (s.clearRegs a b).openBy = s.openBy := rfl
@[simp] theorem State.clearRegs_img (s : State) (a b : Nat) : (s.clearRegs a b).img = s.img := rfl
@[simp] theorem State.clearRegs_restored (s : State) (a b : Nat) : (s.clearRegs a b).restored = s.restored := rfl
@[simp] theorem State.clearRegs_wdog (s : State) (a b : Nat) : (s.clearRegs a b).wdog = s.wdog := rfl
@[simp] theorem State.clearRegs_ptpOff (s : State) (a b : Nat) : (s.clearRegs a b).ptpOff = s.ptpOff := rfl
@[simp] theorem State.clearRegs_ptpGood (s : State) (a b : Nat) : (s.clearRegs a b).ptpGood = s.ptpGood := rfl
@[simp] theorem State.clearRegs_hbs (s : State) (a b : Nat) : (s.clearRegs a b).hbs = s.hbs := rfl
@[simp] theorem State.clearRegs_split (s : State) (a b : Nat) : (s.clearRegs a b).split = s.split := rfl
@[simp] theorem State.clearRegs_tripSeen (s : State) (a b : Nat) : (s.clearRegs a b).tripSeen = s.tripSeen := rfl
@[simp] theorem State.clearRegs_devSeq (s : State) (a b : Nat) : (s.clearRegs a b).devSeq = s.devSeq := rfl
@[simp] theorem State.clearRegs_inj (s : State) (a b : Nat) : (s.clearRegs a b).inj = s.inj := rfl
@[simp] theorem State.clearRegs_tripTx (s : State) (a b : Nat) : (s.clearRegs a b).tripTx = s.tripTx := rfl
@[simp] theorem State.clearRegs_tripin (s : State) (a b : Nat) : (s.clearRegs a b).tripin = s.tripin := rfl
@[simp] theorem State.clearRegs_core (s : State) (a b : Nat) : (s.clearRegs a b).core = s.core := rfl
@[simp] theorem State.clearRegs_scrDraws (s : State) (a b : Nat) : (s.clearRegs a b).scrDraws = s.scrDraws := rfl
@[simp] theorem State.clearRegs_tap (s : State) (a b : Nat) : (s.clearRegs a b).tap = s.tap := rfl
@[simp] theorem State.clearRegs_locked (s : State) (a b : Nat) : (s.clearRegs a b).locked = s.locked := rfl
@[simp] theorem State.clearRegs_commit (s : State) (a b : Nat) : (s.clearRegs a b).commit = s.commit := rfl
@[simp] theorem State.clearRegs_grn (s : State) (a b : Nat) : (s.clearRegs a b).grn = s.grn := rfl
@[simp] theorem State.clearRegs_memcCfg (s : State) (a b : Nat) : (s.clearRegs a b).memcCfg = s.memcCfg := rfl
@[simp] theorem State.clearRegs_ao (s : State) (a b : Nat) : (s.clearRegs a b).ao = s.ao := rfl
@[simp] theorem State.clearRegs_cal (s : State) (a b : Nat) : (s.clearRegs a b).cal = s.cal := rfl
@[simp] theorem State.clearRegs_lgr (s : State) (a b : Nat) : (s.clearRegs a b).lgr = s.lgr := rfl
@[simp] theorem State.clearRegs_sec (s : State) (a b : Nat) : (s.clearRegs a b).sec = s.sec := rfl
@[simp] theorem State.clearRegs_uart (s : State) (a b : Nat) : (s.clearRegs a b).uart = s.uart := rfl
@[simp] theorem State.clearRegs_tch (s : State) (a b : Nat) : (s.clearRegs a b).tch = s.tch := rfl
@[simp] theorem State.clearRegs_lcd (s : State) (a b : Nat) : (s.clearRegs a b).lcd = s.lcd := rfl

/-! ### `putByte` -/

@[simp] theorem State.putByte_pending (s : State) (a : Nat) (b : Byte) : (s.putByte a b).pending = s.pending := rfl
@[simp] theorem State.putByte_now (s : State) (a : Nat) (b : Byte) : (s.putByte a b).now = s.now := rfl
@[simp] theorem State.putByte_free (s : State) (a : Nat) (b : Byte) : (s.putByte a b).free = s.free := rfl
@[simp] theorem State.putByte_reg (s : State) (a : Nat) (b : Byte) : (s.putByte a b).reg = s.reg := rfl
@[simp] theorem State.putByte_flags (s : State) (a : Nat) (b : Byte) : (s.putByte a b).flags = s.flags := rfl
@[simp] theorem State.putByte_bank (s : State) (a : Nat) (b : Byte) : (s.putByte a b).bank = s.bank := rfl
@[simp] theorem State.putByte_upset (s : State) (a : Nat) (b : Byte) : (s.putByte a b).upset = s.upset := rfl
@[simp] theorem State.putByte_scrub (s : State) (a : Nat) (b : Byte) : (s.putByte a b).scrub = s.scrub := rfl
@[simp] theorem State.putByte_sdram (s : State) (a : Nat) (b : Byte) : (s.putByte a b).sdram = s.sdram := rfl
@[simp] theorem State.putByte_answer (s : State) (a : Nat) (b : Byte) : (s.putByte a b).answer = s.answer := rfl
@[simp] theorem State.putByte_arrived (s : State) (a : Nat) (b : Byte) : (s.putByte a b).arrived = s.arrived := rfl
@[simp] theorem State.putByte_aoWait (s : State) (a : Nat) (b : Byte) : (s.putByte a b).aoWait = s.aoWait := rfl
@[simp] theorem State.putByte_brcFrom (s : State) (a : Nat) (b : Byte) : (s.putByte a b).brcFrom = s.brcFrom := rfl
@[simp] theorem State.putByte_raised (s : State) (a : Nat) (b : Byte) : (s.putByte a b).raised = s.raised := rfl
@[simp] theorem State.putByte_evtAt (s : State) (a : Nat) (b : Byte) : (s.putByte a b).evtAt = s.evtAt := rfl
@[simp] theorem State.putByte_trk (s : State) (a : Nat) (b : Byte) : (s.putByte a b).trk = s.trk := rfl
@[simp] theorem State.putByte_enc (s : State) (a : Nat) (b : Byte) : (s.putByte a b).enc = s.enc := rfl
@[simp] theorem State.putByte_alm (s : State) (a : Nat) (b : Byte) : (s.putByte a b).alm = s.alm := rfl
@[simp] theorem State.putByte_almc (s : State) (a : Nat) (b : Byte) : (s.putByte a b).almc = s.almc := rfl
@[simp] theorem State.putByte_cv (s : State) (a : Nat) (b : Byte) : (s.putByte a b).cv = s.cv := rfl
@[simp] theorem State.putByte_ain (s : State) (a : Nat) (b : Byte) : (s.putByte a b).ain = s.ain := rfl
@[simp] theorem State.putByte_cmp (s : State) (a : Nat) (b : Byte) : (s.putByte a b).cmp = s.cmp := rfl
@[simp] theorem State.putByte_slc (s : State) (a : Nat) (b : Byte) : (s.putByte a b).slc = s.slc := rfl
@[simp] theorem State.putByte_dues (s : State) (a : Nat) (b : Byte) : (s.putByte a b).dues = s.dues := rfl
@[simp] theorem State.putByte_pair (s : State) (a : Nat) (b : Byte) : (s.putByte a b).pair = s.pair := rfl
@[simp] theorem State.putByte_gen (s : State) (a : Nat) (b : Byte) : (s.putByte a b).gen = s.gen := rfl
@[simp] theorem State.putByte_lockLow (s : State) (a : Nat) (b : Byte) : (s.putByte a b).lockLow = s.lockLow := rfl
@[simp] theorem State.putByte_chan (s : State) (a : Nat) (b : Byte) : (s.putByte a b).chan = s.chan := rfl
@[simp] theorem State.putByte_dom (s : State) (a : Nat) (b : Byte) : (s.putByte a b).dom = s.dom := rfl
@[simp] theorem State.putByte_fastFrom (s : State) (a : Nat) (b : Byte) : (s.putByte a b).fastFrom = s.fastFrom := rfl
@[simp] theorem State.putByte_linkFree (s : State) (a : Nat) (b : Byte) : (s.putByte a b).linkFree = s.linkFree := rfl
@[simp] theorem State.putByte_stops (s : State) (a : Nat) (b : Byte) : (s.putByte a b).stops = s.stops := rfl
@[simp] theorem State.putByte_pll (s : State) (a : Nat) (b : Byte) : (s.putByte a b).pll = s.pll := rfl
@[simp] theorem State.putByte_brcAt (s : State) (a : Nat) (b : Byte) : (s.putByte a b).brcAt = s.brcAt := rfl
@[simp] theorem State.putByte_lcs (s : State) (a : Nat) (b : Byte) : (s.putByte a b).lcs = s.lcs := rfl
@[simp] theorem State.putByte_meter (s : State) (a : Nat) (b : Byte) : (s.putByte a b).meter = s.meter := rfl
@[simp] theorem State.putByte_port (s : State) (a : Nat) (b : Byte) : (s.putByte a b).port = s.port := rfl
@[simp] theorem State.putByte_upstream (s : State) (a : Nat) (b : Byte) : (s.putByte a b).upstream = s.upstream := rfl
@[simp] theorem State.putByte_addr (s : State) (a : Nat) (b : Byte) : (s.putByte a b).addr = s.addr := rfl
@[simp] theorem State.putByte_mac (s : State) (a : Nat) (b : Byte) : (s.putByte a b).mac = s.mac := rfl
@[simp] theorem State.putByte_ptpAdj (s : State) (a : Nat) (b : Byte) : (s.putByte a b).ptpAdj = s.ptpAdj := rfl
@[simp] theorem State.putByte_tx (s : State) (a : Nat) (b : Byte) : (s.putByte a b).tx = s.tx := rfl
@[simp] theorem State.putByte_sent (s : State) (a : Nat) (b : Byte) : (s.putByte a b).sent = s.sent := rfl
@[simp] theorem State.putByte_sessions (s : State) (a : Nat) (b : Byte) : (s.putByte a b).sessions = s.sessions := rfl
@[simp] theorem State.putByte_waiting (s : State) (a : Nat) (b : Byte) : (s.putByte a b).waiting = s.waiting := rfl
@[simp] theorem State.putByte_replies (s : State) (a : Nat) (b : Byte) : (s.putByte a b).replies = s.replies := rfl
@[simp] theorem State.putByte_kept (s : State) (a : Nat) (b : Byte) : (s.putByte a b).kept = s.kept := rfl
@[simp] theorem State.putByte_credits (s : State) (a : Nat) (b : Byte) : (s.putByte a b).credits = s.credits := rfl
@[simp] theorem State.putByte_nocred (s : State) (a : Nat) (b : Byte) : (s.putByte a b).nocred = s.nocred := rfl
@[simp] theorem State.putByte_fcode (s : State) (a : Nat) (b : Byte) : (s.putByte a b).fcode = s.fcode := rfl
@[simp] theorem State.putByte_scratch (s : State) (a : Nat) (b : Byte) : (s.putByte a b).scratch = s.scratch := rfl
@[simp] theorem State.putByte_epoch (s : State) (a : Nat) (b : Byte) : (s.putByte a b).epoch = s.epoch := rfl
@[simp] theorem State.putByte_draws (s : State) (a : Nat) (b : Byte) : (s.putByte a b).draws = s.draws := rfl
@[simp] theorem State.putByte_puts (s : State) (a : Nat) (b : Byte) : (s.putByte a b).puts = s.puts := rfl
@[simp] theorem State.putByte_prov (s : State) (a : Nat) (b : Byte) : (s.putByte a b).prov = s.prov := rfl
@[simp] theorem State.putByte_openBy (s : State) (a : Nat) (b : Byte) : (s.putByte a b).openBy = s.openBy := rfl
@[simp] theorem State.putByte_img (s : State) (a : Nat) (b : Byte) : (s.putByte a b).img = s.img := rfl
@[simp] theorem State.putByte_restored (s : State) (a : Nat) (b : Byte) : (s.putByte a b).restored = s.restored := rfl
@[simp] theorem State.putByte_wdog (s : State) (a : Nat) (b : Byte) : (s.putByte a b).wdog = s.wdog := rfl
@[simp] theorem State.putByte_ptpOff (s : State) (a : Nat) (b : Byte) : (s.putByte a b).ptpOff = s.ptpOff := rfl
@[simp] theorem State.putByte_ptpGood (s : State) (a : Nat) (b : Byte) : (s.putByte a b).ptpGood = s.ptpGood := rfl
@[simp] theorem State.putByte_hbs (s : State) (a : Nat) (b : Byte) : (s.putByte a b).hbs = s.hbs := rfl
@[simp] theorem State.putByte_split (s : State) (a : Nat) (b : Byte) : (s.putByte a b).split = s.split := rfl
@[simp] theorem State.putByte_tripSeen (s : State) (a : Nat) (b : Byte) : (s.putByte a b).tripSeen = s.tripSeen := rfl
@[simp] theorem State.putByte_devSeq (s : State) (a : Nat) (b : Byte) : (s.putByte a b).devSeq = s.devSeq := rfl
@[simp] theorem State.putByte_inj (s : State) (a : Nat) (b : Byte) : (s.putByte a b).inj = s.inj := rfl
@[simp] theorem State.putByte_tripTx (s : State) (a : Nat) (b : Byte) : (s.putByte a b).tripTx = s.tripTx := rfl
@[simp] theorem State.putByte_tripin (s : State) (a : Nat) (b : Byte) : (s.putByte a b).tripin = s.tripin := rfl
@[simp] theorem State.putByte_core (s : State) (a : Nat) (b : Byte) : (s.putByte a b).core = s.core := rfl
@[simp] theorem State.putByte_scrDraws (s : State) (a : Nat) (b : Byte) : (s.putByte a b).scrDraws = s.scrDraws := rfl
@[simp] theorem State.putByte_tap (s : State) (a : Nat) (b : Byte) : (s.putByte a b).tap = s.tap := rfl
@[simp] theorem State.putByte_locked (s : State) (a : Nat) (b : Byte) : (s.putByte a b).locked = s.locked := rfl
@[simp] theorem State.putByte_commit (s : State) (a : Nat) (b : Byte) : (s.putByte a b).commit = s.commit := rfl
@[simp] theorem State.putByte_grn (s : State) (a : Nat) (b : Byte) : (s.putByte a b).grn = s.grn := rfl
@[simp] theorem State.putByte_memcCfg (s : State) (a : Nat) (b : Byte) : (s.putByte a b).memcCfg = s.memcCfg := rfl
@[simp] theorem State.putByte_ao (s : State) (a : Nat) (b : Byte) : (s.putByte a b).ao = s.ao := rfl
@[simp] theorem State.putByte_cal (s : State) (a : Nat) (b : Byte) : (s.putByte a b).cal = s.cal := rfl
@[simp] theorem State.putByte_lgr (s : State) (a : Nat) (b : Byte) : (s.putByte a b).lgr = s.lgr := rfl
@[simp] theorem State.putByte_sec (s : State) (a : Nat) (b : Byte) : (s.putByte a b).sec = s.sec := rfl
@[simp] theorem State.putByte_uart (s : State) (a : Nat) (b : Byte) : (s.putByte a b).uart = s.uart := rfl
@[simp] theorem State.putByte_tch (s : State) (a : Nat) (b : Byte) : (s.putByte a b).tch = s.tch := rfl
@[simp] theorem State.putByte_lcd (s : State) (a : Nat) (b : Byte) : (s.putByte a b).lcd = s.lcd := rfl

/-! ### `clearMem` -/

@[simp] theorem State.clearMem_pending (s : State) (a b : Nat) : (s.clearMem a b).pending = s.pending := rfl
@[simp] theorem State.clearMem_now (s : State) (a b : Nat) : (s.clearMem a b).now = s.now := rfl
@[simp] theorem State.clearMem_free (s : State) (a b : Nat) : (s.clearMem a b).free = s.free := rfl
@[simp] theorem State.clearMem_reg (s : State) (a b : Nat) : (s.clearMem a b).reg = s.reg := rfl
@[simp] theorem State.clearMem_flags (s : State) (a b : Nat) : (s.clearMem a b).flags = s.flags := rfl
@[simp] theorem State.clearMem_bank (s : State) (a b : Nat) : (s.clearMem a b).bank = s.bank := rfl
@[simp] theorem State.clearMem_upset (s : State) (a b : Nat) : (s.clearMem a b).upset = s.upset := rfl
@[simp] theorem State.clearMem_scrub (s : State) (a b : Nat) : (s.clearMem a b).scrub = s.scrub := rfl
@[simp] theorem State.clearMem_sdram (s : State) (a b : Nat) : (s.clearMem a b).sdram = s.sdram := rfl
@[simp] theorem State.clearMem_answer (s : State) (a b : Nat) : (s.clearMem a b).answer = s.answer := rfl
@[simp] theorem State.clearMem_arrived (s : State) (a b : Nat) : (s.clearMem a b).arrived = s.arrived := rfl
@[simp] theorem State.clearMem_aoWait (s : State) (a b : Nat) : (s.clearMem a b).aoWait = s.aoWait := rfl
@[simp] theorem State.clearMem_brcFrom (s : State) (a b : Nat) : (s.clearMem a b).brcFrom = s.brcFrom := rfl
@[simp] theorem State.clearMem_raised (s : State) (a b : Nat) : (s.clearMem a b).raised = s.raised := rfl
@[simp] theorem State.clearMem_evtAt (s : State) (a b : Nat) : (s.clearMem a b).evtAt = s.evtAt := rfl
@[simp] theorem State.clearMem_trk (s : State) (a b : Nat) : (s.clearMem a b).trk = s.trk := rfl
@[simp] theorem State.clearMem_enc (s : State) (a b : Nat) : (s.clearMem a b).enc = s.enc := rfl
@[simp] theorem State.clearMem_alm (s : State) (a b : Nat) : (s.clearMem a b).alm = s.alm := rfl
@[simp] theorem State.clearMem_almc (s : State) (a b : Nat) : (s.clearMem a b).almc = s.almc := rfl
@[simp] theorem State.clearMem_cv (s : State) (a b : Nat) : (s.clearMem a b).cv = s.cv := rfl
@[simp] theorem State.clearMem_ain (s : State) (a b : Nat) : (s.clearMem a b).ain = s.ain := rfl
@[simp] theorem State.clearMem_cmp (s : State) (a b : Nat) : (s.clearMem a b).cmp = s.cmp := rfl
@[simp] theorem State.clearMem_slc (s : State) (a b : Nat) : (s.clearMem a b).slc = s.slc := rfl
@[simp] theorem State.clearMem_dues (s : State) (a b : Nat) : (s.clearMem a b).dues = s.dues := rfl
@[simp] theorem State.clearMem_pair (s : State) (a b : Nat) : (s.clearMem a b).pair = s.pair := rfl
@[simp] theorem State.clearMem_gen (s : State) (a b : Nat) : (s.clearMem a b).gen = s.gen := rfl
@[simp] theorem State.clearMem_lockLow (s : State) (a b : Nat) : (s.clearMem a b).lockLow = s.lockLow := rfl
@[simp] theorem State.clearMem_chan (s : State) (a b : Nat) : (s.clearMem a b).chan = s.chan := rfl
@[simp] theorem State.clearMem_dom (s : State) (a b : Nat) : (s.clearMem a b).dom = s.dom := rfl
@[simp] theorem State.clearMem_fastFrom (s : State) (a b : Nat) : (s.clearMem a b).fastFrom = s.fastFrom := rfl
@[simp] theorem State.clearMem_linkFree (s : State) (a b : Nat) : (s.clearMem a b).linkFree = s.linkFree := rfl
@[simp] theorem State.clearMem_stops (s : State) (a b : Nat) : (s.clearMem a b).stops = s.stops := rfl
@[simp] theorem State.clearMem_pll (s : State) (a b : Nat) : (s.clearMem a b).pll = s.pll := rfl
@[simp] theorem State.clearMem_brcAt (s : State) (a b : Nat) : (s.clearMem a b).brcAt = s.brcAt := rfl
@[simp] theorem State.clearMem_lcs (s : State) (a b : Nat) : (s.clearMem a b).lcs = s.lcs := rfl
@[simp] theorem State.clearMem_meter (s : State) (a b : Nat) : (s.clearMem a b).meter = s.meter := rfl
@[simp] theorem State.clearMem_port (s : State) (a b : Nat) : (s.clearMem a b).port = s.port := rfl
@[simp] theorem State.clearMem_upstream (s : State) (a b : Nat) : (s.clearMem a b).upstream = s.upstream := rfl
@[simp] theorem State.clearMem_addr (s : State) (a b : Nat) : (s.clearMem a b).addr = s.addr := rfl
@[simp] theorem State.clearMem_mac (s : State) (a b : Nat) : (s.clearMem a b).mac = s.mac := rfl
@[simp] theorem State.clearMem_ptpAdj (s : State) (a b : Nat) : (s.clearMem a b).ptpAdj = s.ptpAdj := rfl
@[simp] theorem State.clearMem_tx (s : State) (a b : Nat) : (s.clearMem a b).tx = s.tx := rfl
@[simp] theorem State.clearMem_sent (s : State) (a b : Nat) : (s.clearMem a b).sent = s.sent := rfl
@[simp] theorem State.clearMem_sessions (s : State) (a b : Nat) : (s.clearMem a b).sessions = s.sessions := rfl
@[simp] theorem State.clearMem_waiting (s : State) (a b : Nat) : (s.clearMem a b).waiting = s.waiting := rfl
@[simp] theorem State.clearMem_replies (s : State) (a b : Nat) : (s.clearMem a b).replies = s.replies := rfl
@[simp] theorem State.clearMem_kept (s : State) (a b : Nat) : (s.clearMem a b).kept = s.kept := rfl
@[simp] theorem State.clearMem_credits (s : State) (a b : Nat) : (s.clearMem a b).credits = s.credits := rfl
@[simp] theorem State.clearMem_nocred (s : State) (a b : Nat) : (s.clearMem a b).nocred = s.nocred := rfl
@[simp] theorem State.clearMem_fcode (s : State) (a b : Nat) : (s.clearMem a b).fcode = s.fcode := rfl
@[simp] theorem State.clearMem_scratch (s : State) (a b : Nat) : (s.clearMem a b).scratch = s.scratch := rfl
@[simp] theorem State.clearMem_epoch (s : State) (a b : Nat) : (s.clearMem a b).epoch = s.epoch := rfl
@[simp] theorem State.clearMem_draws (s : State) (a b : Nat) : (s.clearMem a b).draws = s.draws := rfl
@[simp] theorem State.clearMem_puts (s : State) (a b : Nat) : (s.clearMem a b).puts = s.puts := rfl
@[simp] theorem State.clearMem_prov (s : State) (a b : Nat) : (s.clearMem a b).prov = s.prov := rfl
@[simp] theorem State.clearMem_openBy (s : State) (a b : Nat) : (s.clearMem a b).openBy = s.openBy := rfl
@[simp] theorem State.clearMem_img (s : State) (a b : Nat) : (s.clearMem a b).img = s.img := rfl
@[simp] theorem State.clearMem_restored (s : State) (a b : Nat) : (s.clearMem a b).restored = s.restored := rfl
@[simp] theorem State.clearMem_wdog (s : State) (a b : Nat) : (s.clearMem a b).wdog = s.wdog := rfl
@[simp] theorem State.clearMem_ptpOff (s : State) (a b : Nat) : (s.clearMem a b).ptpOff = s.ptpOff := rfl
@[simp] theorem State.clearMem_ptpGood (s : State) (a b : Nat) : (s.clearMem a b).ptpGood = s.ptpGood := rfl
@[simp] theorem State.clearMem_hbs (s : State) (a b : Nat) : (s.clearMem a b).hbs = s.hbs := rfl
@[simp] theorem State.clearMem_split (s : State) (a b : Nat) : (s.clearMem a b).split = s.split := rfl
@[simp] theorem State.clearMem_tripSeen (s : State) (a b : Nat) : (s.clearMem a b).tripSeen = s.tripSeen := rfl
@[simp] theorem State.clearMem_devSeq (s : State) (a b : Nat) : (s.clearMem a b).devSeq = s.devSeq := rfl
@[simp] theorem State.clearMem_inj (s : State) (a b : Nat) : (s.clearMem a b).inj = s.inj := rfl
@[simp] theorem State.clearMem_tripTx (s : State) (a b : Nat) : (s.clearMem a b).tripTx = s.tripTx := rfl
@[simp] theorem State.clearMem_tripin (s : State) (a b : Nat) : (s.clearMem a b).tripin = s.tripin := rfl
@[simp] theorem State.clearMem_core (s : State) (a b : Nat) : (s.clearMem a b).core = s.core := rfl
@[simp] theorem State.clearMem_scrDraws (s : State) (a b : Nat) : (s.clearMem a b).scrDraws = s.scrDraws := rfl
@[simp] theorem State.clearMem_tap (s : State) (a b : Nat) : (s.clearMem a b).tap = s.tap := rfl
@[simp] theorem State.clearMem_locked (s : State) (a b : Nat) : (s.clearMem a b).locked = s.locked := rfl
@[simp] theorem State.clearMem_commit (s : State) (a b : Nat) : (s.clearMem a b).commit = s.commit := rfl
@[simp] theorem State.clearMem_grn (s : State) (a b : Nat) : (s.clearMem a b).grn = s.grn := rfl
@[simp] theorem State.clearMem_memcCfg (s : State) (a b : Nat) : (s.clearMem a b).memcCfg = s.memcCfg := rfl
@[simp] theorem State.clearMem_ao (s : State) (a b : Nat) : (s.clearMem a b).ao = s.ao := rfl
@[simp] theorem State.clearMem_cal (s : State) (a b : Nat) : (s.clearMem a b).cal = s.cal := rfl
@[simp] theorem State.clearMem_lgr (s : State) (a b : Nat) : (s.clearMem a b).lgr = s.lgr := rfl
@[simp] theorem State.clearMem_sec (s : State) (a b : Nat) : (s.clearMem a b).sec = s.sec := rfl
@[simp] theorem State.clearMem_uart (s : State) (a b : Nat) : (s.clearMem a b).uart = s.uart := rfl
@[simp] theorem State.clearMem_tch (s : State) (a b : Nat) : (s.clearMem a b).tch = s.tch := rfl
@[simp] theorem State.clearMem_lcd (s : State) (a b : Nat) : (s.clearMem a b).lcd = s.lcd := rfl

/-! ### `modCore` -/

@[simp] theorem State.modCore_pending (s : State) (i : Fin 5) (f : CoreSt → CoreSt) : (s.modCore i f).pending = s.pending := rfl
@[simp] theorem State.modCore_now (s : State) (i : Fin 5) (f : CoreSt → CoreSt) : (s.modCore i f).now = s.now := rfl
@[simp] theorem State.modCore_free (s : State) (i : Fin 5) (f : CoreSt → CoreSt) : (s.modCore i f).free = s.free := rfl
@[simp] theorem State.modCore_reg (s : State) (i : Fin 5) (f : CoreSt → CoreSt) : (s.modCore i f).reg = s.reg := rfl
@[simp] theorem State.modCore_flags (s : State) (i : Fin 5) (f : CoreSt → CoreSt) : (s.modCore i f).flags = s.flags := rfl
@[simp] theorem State.modCore_bank (s : State) (i : Fin 5) (f : CoreSt → CoreSt) : (s.modCore i f).bank = s.bank := rfl
@[simp] theorem State.modCore_mem (s : State) (i : Fin 5) (f : CoreSt → CoreSt) : (s.modCore i f).mem = s.mem := rfl
@[simp] theorem State.modCore_upset (s : State) (i : Fin 5) (f : CoreSt → CoreSt) : (s.modCore i f).upset = s.upset := rfl
@[simp] theorem State.modCore_scrub (s : State) (i : Fin 5) (f : CoreSt → CoreSt) : (s.modCore i f).scrub = s.scrub := rfl
@[simp] theorem State.modCore_sdram (s : State) (i : Fin 5) (f : CoreSt → CoreSt) : (s.modCore i f).sdram = s.sdram := rfl
@[simp] theorem State.modCore_tags (s : State) (i : Fin 5) (f : CoreSt → CoreSt) : (s.modCore i f).tags = s.tags := rfl
@[simp] theorem State.modCore_answer (s : State) (i : Fin 5) (f : CoreSt → CoreSt) : (s.modCore i f).answer = s.answer := rfl
@[simp] theorem State.modCore_arrived (s : State) (i : Fin 5) (f : CoreSt → CoreSt) : (s.modCore i f).arrived = s.arrived := rfl
@[simp] theorem State.modCore_aoWait (s : State) (i : Fin 5) (f : CoreSt → CoreSt) : (s.modCore i f).aoWait = s.aoWait := rfl
@[simp] theorem State.modCore_brcFrom (s : State) (i : Fin 5) (f : CoreSt → CoreSt) : (s.modCore i f).brcFrom = s.brcFrom := rfl
@[simp] theorem State.modCore_raised (s : State) (i : Fin 5) (f : CoreSt → CoreSt) : (s.modCore i f).raised = s.raised := rfl
@[simp] theorem State.modCore_evtAt (s : State) (i : Fin 5) (f : CoreSt → CoreSt) : (s.modCore i f).evtAt = s.evtAt := rfl
@[simp] theorem State.modCore_trk (s : State) (i : Fin 5) (f : CoreSt → CoreSt) : (s.modCore i f).trk = s.trk := rfl
@[simp] theorem State.modCore_enc (s : State) (i : Fin 5) (f : CoreSt → CoreSt) : (s.modCore i f).enc = s.enc := rfl
@[simp] theorem State.modCore_alm (s : State) (i : Fin 5) (f : CoreSt → CoreSt) : (s.modCore i f).alm = s.alm := rfl
@[simp] theorem State.modCore_almc (s : State) (i : Fin 5) (f : CoreSt → CoreSt) : (s.modCore i f).almc = s.almc := rfl
@[simp] theorem State.modCore_cv (s : State) (i : Fin 5) (f : CoreSt → CoreSt) : (s.modCore i f).cv = s.cv := rfl
@[simp] theorem State.modCore_ain (s : State) (i : Fin 5) (f : CoreSt → CoreSt) : (s.modCore i f).ain = s.ain := rfl
@[simp] theorem State.modCore_cmp (s : State) (i : Fin 5) (f : CoreSt → CoreSt) : (s.modCore i f).cmp = s.cmp := rfl
@[simp] theorem State.modCore_slc (s : State) (i : Fin 5) (f : CoreSt → CoreSt) : (s.modCore i f).slc = s.slc := rfl
@[simp] theorem State.modCore_dues (s : State) (i : Fin 5) (f : CoreSt → CoreSt) : (s.modCore i f).dues = s.dues := rfl
@[simp] theorem State.modCore_pair (s : State) (i : Fin 5) (f : CoreSt → CoreSt) : (s.modCore i f).pair = s.pair := rfl
@[simp] theorem State.modCore_gen (s : State) (i : Fin 5) (f : CoreSt → CoreSt) : (s.modCore i f).gen = s.gen := rfl
@[simp] theorem State.modCore_lockLow (s : State) (i : Fin 5) (f : CoreSt → CoreSt) : (s.modCore i f).lockLow = s.lockLow := rfl
@[simp] theorem State.modCore_chan (s : State) (i : Fin 5) (f : CoreSt → CoreSt) : (s.modCore i f).chan = s.chan := rfl
@[simp] theorem State.modCore_dom (s : State) (i : Fin 5) (f : CoreSt → CoreSt) : (s.modCore i f).dom = s.dom := rfl
@[simp] theorem State.modCore_fastFrom (s : State) (i : Fin 5) (f : CoreSt → CoreSt) : (s.modCore i f).fastFrom = s.fastFrom := rfl
@[simp] theorem State.modCore_linkFree (s : State) (i : Fin 5) (f : CoreSt → CoreSt) : (s.modCore i f).linkFree = s.linkFree := rfl
@[simp] theorem State.modCore_stops (s : State) (i : Fin 5) (f : CoreSt → CoreSt) : (s.modCore i f).stops = s.stops := rfl
@[simp] theorem State.modCore_pll (s : State) (i : Fin 5) (f : CoreSt → CoreSt) : (s.modCore i f).pll = s.pll := rfl
@[simp] theorem State.modCore_brcAt (s : State) (i : Fin 5) (f : CoreSt → CoreSt) : (s.modCore i f).brcAt = s.brcAt := rfl
@[simp] theorem State.modCore_lcs (s : State) (i : Fin 5) (f : CoreSt → CoreSt) : (s.modCore i f).lcs = s.lcs := rfl
@[simp] theorem State.modCore_meter (s : State) (i : Fin 5) (f : CoreSt → CoreSt) : (s.modCore i f).meter = s.meter := rfl
@[simp] theorem State.modCore_port (s : State) (i : Fin 5) (f : CoreSt → CoreSt) : (s.modCore i f).port = s.port := rfl
@[simp] theorem State.modCore_upstream (s : State) (i : Fin 5) (f : CoreSt → CoreSt) : (s.modCore i f).upstream = s.upstream := rfl
@[simp] theorem State.modCore_addr (s : State) (i : Fin 5) (f : CoreSt → CoreSt) : (s.modCore i f).addr = s.addr := rfl
@[simp] theorem State.modCore_mac (s : State) (i : Fin 5) (f : CoreSt → CoreSt) : (s.modCore i f).mac = s.mac := rfl
@[simp] theorem State.modCore_ptpAdj (s : State) (i : Fin 5) (f : CoreSt → CoreSt) : (s.modCore i f).ptpAdj = s.ptpAdj := rfl
@[simp] theorem State.modCore_tx (s : State) (i : Fin 5) (f : CoreSt → CoreSt) : (s.modCore i f).tx = s.tx := rfl
@[simp] theorem State.modCore_sent (s : State) (i : Fin 5) (f : CoreSt → CoreSt) : (s.modCore i f).sent = s.sent := rfl
@[simp] theorem State.modCore_sessions (s : State) (i : Fin 5) (f : CoreSt → CoreSt) : (s.modCore i f).sessions = s.sessions := rfl
@[simp] theorem State.modCore_waiting (s : State) (i : Fin 5) (f : CoreSt → CoreSt) : (s.modCore i f).waiting = s.waiting := rfl
@[simp] theorem State.modCore_replies (s : State) (i : Fin 5) (f : CoreSt → CoreSt) : (s.modCore i f).replies = s.replies := rfl
@[simp] theorem State.modCore_kept (s : State) (i : Fin 5) (f : CoreSt → CoreSt) : (s.modCore i f).kept = s.kept := rfl
@[simp] theorem State.modCore_credits (s : State) (i : Fin 5) (f : CoreSt → CoreSt) : (s.modCore i f).credits = s.credits := rfl
@[simp] theorem State.modCore_nocred (s : State) (i : Fin 5) (f : CoreSt → CoreSt) : (s.modCore i f).nocred = s.nocred := rfl
@[simp] theorem State.modCore_fcode (s : State) (i : Fin 5) (f : CoreSt → CoreSt) : (s.modCore i f).fcode = s.fcode := rfl
@[simp] theorem State.modCore_scratch (s : State) (i : Fin 5) (f : CoreSt → CoreSt) : (s.modCore i f).scratch = s.scratch := rfl
@[simp] theorem State.modCore_epoch (s : State) (i : Fin 5) (f : CoreSt → CoreSt) : (s.modCore i f).epoch = s.epoch := rfl
@[simp] theorem State.modCore_draws (s : State) (i : Fin 5) (f : CoreSt → CoreSt) : (s.modCore i f).draws = s.draws := rfl
@[simp] theorem State.modCore_puts (s : State) (i : Fin 5) (f : CoreSt → CoreSt) : (s.modCore i f).puts = s.puts := rfl
@[simp] theorem State.modCore_prov (s : State) (i : Fin 5) (f : CoreSt → CoreSt) : (s.modCore i f).prov = s.prov := rfl
@[simp] theorem State.modCore_openBy (s : State) (i : Fin 5) (f : CoreSt → CoreSt) : (s.modCore i f).openBy = s.openBy := rfl
@[simp] theorem State.modCore_img (s : State) (i : Fin 5) (f : CoreSt → CoreSt) : (s.modCore i f).img = s.img := rfl
@[simp] theorem State.modCore_restored (s : State) (i : Fin 5) (f : CoreSt → CoreSt) : (s.modCore i f).restored = s.restored := rfl
@[simp] theorem State.modCore_wdog (s : State) (i : Fin 5) (f : CoreSt → CoreSt) : (s.modCore i f).wdog = s.wdog := rfl
@[simp] theorem State.modCore_ptpOff (s : State) (i : Fin 5) (f : CoreSt → CoreSt) : (s.modCore i f).ptpOff = s.ptpOff := rfl
@[simp] theorem State.modCore_ptpGood (s : State) (i : Fin 5) (f : CoreSt → CoreSt) : (s.modCore i f).ptpGood = s.ptpGood := rfl
@[simp] theorem State.modCore_hbs (s : State) (i : Fin 5) (f : CoreSt → CoreSt) : (s.modCore i f).hbs = s.hbs := rfl
@[simp] theorem State.modCore_split (s : State) (i : Fin 5) (f : CoreSt → CoreSt) : (s.modCore i f).split = s.split := rfl
@[simp] theorem State.modCore_tripSeen (s : State) (i : Fin 5) (f : CoreSt → CoreSt) : (s.modCore i f).tripSeen = s.tripSeen := rfl
@[simp] theorem State.modCore_devSeq (s : State) (i : Fin 5) (f : CoreSt → CoreSt) : (s.modCore i f).devSeq = s.devSeq := rfl
@[simp] theorem State.modCore_inj (s : State) (i : Fin 5) (f : CoreSt → CoreSt) : (s.modCore i f).inj = s.inj := rfl
@[simp] theorem State.modCore_tripTx (s : State) (i : Fin 5) (f : CoreSt → CoreSt) : (s.modCore i f).tripTx = s.tripTx := rfl
@[simp] theorem State.modCore_tripin (s : State) (i : Fin 5) (f : CoreSt → CoreSt) : (s.modCore i f).tripin = s.tripin := rfl
@[simp] theorem State.modCore_scrDraws (s : State) (i : Fin 5) (f : CoreSt → CoreSt) : (s.modCore i f).scrDraws = s.scrDraws := rfl
@[simp] theorem State.modCore_tap (s : State) (i : Fin 5) (f : CoreSt → CoreSt) : (s.modCore i f).tap = s.tap := rfl
@[simp] theorem State.modCore_locked (s : State) (i : Fin 5) (f : CoreSt → CoreSt) : (s.modCore i f).locked = s.locked := rfl
@[simp] theorem State.modCore_commit (s : State) (i : Fin 5) (f : CoreSt → CoreSt) : (s.modCore i f).commit = s.commit := rfl
@[simp] theorem State.modCore_grn (s : State) (i : Fin 5) (f : CoreSt → CoreSt) : (s.modCore i f).grn = s.grn := rfl
@[simp] theorem State.modCore_memcCfg (s : State) (i : Fin 5) (f : CoreSt → CoreSt) : (s.modCore i f).memcCfg = s.memcCfg := rfl
@[simp] theorem State.modCore_ao (s : State) (i : Fin 5) (f : CoreSt → CoreSt) : (s.modCore i f).ao = s.ao := rfl
@[simp] theorem State.modCore_cal (s : State) (i : Fin 5) (f : CoreSt → CoreSt) : (s.modCore i f).cal = s.cal := rfl
@[simp] theorem State.modCore_lgr (s : State) (i : Fin 5) (f : CoreSt → CoreSt) : (s.modCore i f).lgr = s.lgr := rfl
@[simp] theorem State.modCore_sec (s : State) (i : Fin 5) (f : CoreSt → CoreSt) : (s.modCore i f).sec = s.sec := rfl
@[simp] theorem State.modCore_uart (s : State) (i : Fin 5) (f : CoreSt → CoreSt) : (s.modCore i f).uart = s.uart := rfl
@[simp] theorem State.modCore_tch (s : State) (i : Fin 5) (f : CoreSt → CoreSt) : (s.modCore i f).tch = s.tch := rfl
@[simp] theorem State.modCore_lcd (s : State) (i : Fin 5) (f : CoreSt → CoreSt) : (s.modCore i f).lcd = s.lcd := rfl

/-! ### `setCap` -/

@[simp] theorem State.setCap_pending (s : State) (i : Fin 5) (n : CapIx) (c : Cap) : (s.setCap i n c).pending = s.pending := rfl
@[simp] theorem State.setCap_now (s : State) (i : Fin 5) (n : CapIx) (c : Cap) : (s.setCap i n c).now = s.now := rfl
@[simp] theorem State.setCap_free (s : State) (i : Fin 5) (n : CapIx) (c : Cap) : (s.setCap i n c).free = s.free := rfl
@[simp] theorem State.setCap_reg (s : State) (i : Fin 5) (n : CapIx) (c : Cap) : (s.setCap i n c).reg = s.reg := rfl
@[simp] theorem State.setCap_flags (s : State) (i : Fin 5) (n : CapIx) (c : Cap) : (s.setCap i n c).flags = s.flags := rfl
@[simp] theorem State.setCap_bank (s : State) (i : Fin 5) (n : CapIx) (c : Cap) : (s.setCap i n c).bank = s.bank := rfl
@[simp] theorem State.setCap_mem (s : State) (i : Fin 5) (n : CapIx) (c : Cap) : (s.setCap i n c).mem = s.mem := rfl
@[simp] theorem State.setCap_upset (s : State) (i : Fin 5) (n : CapIx) (c : Cap) : (s.setCap i n c).upset = s.upset := rfl
@[simp] theorem State.setCap_scrub (s : State) (i : Fin 5) (n : CapIx) (c : Cap) : (s.setCap i n c).scrub = s.scrub := rfl
@[simp] theorem State.setCap_sdram (s : State) (i : Fin 5) (n : CapIx) (c : Cap) : (s.setCap i n c).sdram = s.sdram := rfl
@[simp] theorem State.setCap_tags (s : State) (i : Fin 5) (n : CapIx) (c : Cap) : (s.setCap i n c).tags = s.tags := rfl
@[simp] theorem State.setCap_answer (s : State) (i : Fin 5) (n : CapIx) (c : Cap) : (s.setCap i n c).answer = s.answer := rfl
@[simp] theorem State.setCap_arrived (s : State) (i : Fin 5) (n : CapIx) (c : Cap) : (s.setCap i n c).arrived = s.arrived := rfl
@[simp] theorem State.setCap_aoWait (s : State) (i : Fin 5) (n : CapIx) (c : Cap) : (s.setCap i n c).aoWait = s.aoWait := rfl
@[simp] theorem State.setCap_brcFrom (s : State) (i : Fin 5) (n : CapIx) (c : Cap) : (s.setCap i n c).brcFrom = s.brcFrom := rfl
@[simp] theorem State.setCap_raised (s : State) (i : Fin 5) (n : CapIx) (c : Cap) : (s.setCap i n c).raised = s.raised := rfl
@[simp] theorem State.setCap_evtAt (s : State) (i : Fin 5) (n : CapIx) (c : Cap) : (s.setCap i n c).evtAt = s.evtAt := rfl
@[simp] theorem State.setCap_trk (s : State) (i : Fin 5) (n : CapIx) (c : Cap) : (s.setCap i n c).trk = s.trk := rfl
@[simp] theorem State.setCap_enc (s : State) (i : Fin 5) (n : CapIx) (c : Cap) : (s.setCap i n c).enc = s.enc := rfl
@[simp] theorem State.setCap_alm (s : State) (i : Fin 5) (n : CapIx) (c : Cap) : (s.setCap i n c).alm = s.alm := rfl
@[simp] theorem State.setCap_almc (s : State) (i : Fin 5) (n : CapIx) (c : Cap) : (s.setCap i n c).almc = s.almc := rfl
@[simp] theorem State.setCap_cv (s : State) (i : Fin 5) (n : CapIx) (c : Cap) : (s.setCap i n c).cv = s.cv := rfl
@[simp] theorem State.setCap_ain (s : State) (i : Fin 5) (n : CapIx) (c : Cap) : (s.setCap i n c).ain = s.ain := rfl
@[simp] theorem State.setCap_cmp (s : State) (i : Fin 5) (n : CapIx) (c : Cap) : (s.setCap i n c).cmp = s.cmp := rfl
@[simp] theorem State.setCap_slc (s : State) (i : Fin 5) (n : CapIx) (c : Cap) : (s.setCap i n c).slc = s.slc := rfl
@[simp] theorem State.setCap_dues (s : State) (i : Fin 5) (n : CapIx) (c : Cap) : (s.setCap i n c).dues = s.dues := rfl
@[simp] theorem State.setCap_pair (s : State) (i : Fin 5) (n : CapIx) (c : Cap) : (s.setCap i n c).pair = s.pair := rfl
@[simp] theorem State.setCap_gen (s : State) (i : Fin 5) (n : CapIx) (c : Cap) : (s.setCap i n c).gen = s.gen := rfl
@[simp] theorem State.setCap_lockLow (s : State) (i : Fin 5) (n : CapIx) (c : Cap) : (s.setCap i n c).lockLow = s.lockLow := rfl
@[simp] theorem State.setCap_chan (s : State) (i : Fin 5) (n : CapIx) (c : Cap) : (s.setCap i n c).chan = s.chan := rfl
@[simp] theorem State.setCap_dom (s : State) (i : Fin 5) (n : CapIx) (c : Cap) : (s.setCap i n c).dom = s.dom := rfl
@[simp] theorem State.setCap_fastFrom (s : State) (i : Fin 5) (n : CapIx) (c : Cap) : (s.setCap i n c).fastFrom = s.fastFrom := rfl
@[simp] theorem State.setCap_linkFree (s : State) (i : Fin 5) (n : CapIx) (c : Cap) : (s.setCap i n c).linkFree = s.linkFree := rfl
@[simp] theorem State.setCap_stops (s : State) (i : Fin 5) (n : CapIx) (c : Cap) : (s.setCap i n c).stops = s.stops := rfl
@[simp] theorem State.setCap_pll (s : State) (i : Fin 5) (n : CapIx) (c : Cap) : (s.setCap i n c).pll = s.pll := rfl
@[simp] theorem State.setCap_brcAt (s : State) (i : Fin 5) (n : CapIx) (c : Cap) : (s.setCap i n c).brcAt = s.brcAt := rfl
@[simp] theorem State.setCap_lcs (s : State) (i : Fin 5) (n : CapIx) (c : Cap) : (s.setCap i n c).lcs = s.lcs := rfl
@[simp] theorem State.setCap_meter (s : State) (i : Fin 5) (n : CapIx) (c : Cap) : (s.setCap i n c).meter = s.meter := rfl
@[simp] theorem State.setCap_port (s : State) (i : Fin 5) (n : CapIx) (c : Cap) : (s.setCap i n c).port = s.port := rfl
@[simp] theorem State.setCap_upstream (s : State) (i : Fin 5) (n : CapIx) (c : Cap) : (s.setCap i n c).upstream = s.upstream := rfl
@[simp] theorem State.setCap_addr (s : State) (i : Fin 5) (n : CapIx) (c : Cap) : (s.setCap i n c).addr = s.addr := rfl
@[simp] theorem State.setCap_mac (s : State) (i : Fin 5) (n : CapIx) (c : Cap) : (s.setCap i n c).mac = s.mac := rfl
@[simp] theorem State.setCap_ptpAdj (s : State) (i : Fin 5) (n : CapIx) (c : Cap) : (s.setCap i n c).ptpAdj = s.ptpAdj := rfl
@[simp] theorem State.setCap_tx (s : State) (i : Fin 5) (n : CapIx) (c : Cap) : (s.setCap i n c).tx = s.tx := rfl
@[simp] theorem State.setCap_sent (s : State) (i : Fin 5) (n : CapIx) (c : Cap) : (s.setCap i n c).sent = s.sent := rfl
@[simp] theorem State.setCap_sessions (s : State) (i : Fin 5) (n : CapIx) (c : Cap) : (s.setCap i n c).sessions = s.sessions := rfl
@[simp] theorem State.setCap_waiting (s : State) (i : Fin 5) (n : CapIx) (c : Cap) : (s.setCap i n c).waiting = s.waiting := rfl
@[simp] theorem State.setCap_replies (s : State) (i : Fin 5) (n : CapIx) (c : Cap) : (s.setCap i n c).replies = s.replies := rfl
@[simp] theorem State.setCap_kept (s : State) (i : Fin 5) (n : CapIx) (c : Cap) : (s.setCap i n c).kept = s.kept := rfl
@[simp] theorem State.setCap_credits (s : State) (i : Fin 5) (n : CapIx) (c : Cap) : (s.setCap i n c).credits = s.credits := rfl
@[simp] theorem State.setCap_nocred (s : State) (i : Fin 5) (n : CapIx) (c : Cap) : (s.setCap i n c).nocred = s.nocred := rfl
@[simp] theorem State.setCap_fcode (s : State) (i : Fin 5) (n : CapIx) (c : Cap) : (s.setCap i n c).fcode = s.fcode := rfl
@[simp] theorem State.setCap_scratch (s : State) (i : Fin 5) (n : CapIx) (c : Cap) : (s.setCap i n c).scratch = s.scratch := rfl
@[simp] theorem State.setCap_epoch (s : State) (i : Fin 5) (n : CapIx) (c : Cap) : (s.setCap i n c).epoch = s.epoch := rfl
@[simp] theorem State.setCap_draws (s : State) (i : Fin 5) (n : CapIx) (c : Cap) : (s.setCap i n c).draws = s.draws := rfl
@[simp] theorem State.setCap_puts (s : State) (i : Fin 5) (n : CapIx) (c : Cap) : (s.setCap i n c).puts = s.puts := rfl
@[simp] theorem State.setCap_prov (s : State) (i : Fin 5) (n : CapIx) (c : Cap) : (s.setCap i n c).prov = s.prov := rfl
@[simp] theorem State.setCap_openBy (s : State) (i : Fin 5) (n : CapIx) (c : Cap) : (s.setCap i n c).openBy = s.openBy := rfl
@[simp] theorem State.setCap_img (s : State) (i : Fin 5) (n : CapIx) (c : Cap) : (s.setCap i n c).img = s.img := rfl
@[simp] theorem State.setCap_restored (s : State) (i : Fin 5) (n : CapIx) (c : Cap) : (s.setCap i n c).restored = s.restored := rfl
@[simp] theorem State.setCap_wdog (s : State) (i : Fin 5) (n : CapIx) (c : Cap) : (s.setCap i n c).wdog = s.wdog := rfl
@[simp] theorem State.setCap_ptpOff (s : State) (i : Fin 5) (n : CapIx) (c : Cap) : (s.setCap i n c).ptpOff = s.ptpOff := rfl
@[simp] theorem State.setCap_ptpGood (s : State) (i : Fin 5) (n : CapIx) (c : Cap) : (s.setCap i n c).ptpGood = s.ptpGood := rfl
@[simp] theorem State.setCap_hbs (s : State) (i : Fin 5) (n : CapIx) (c : Cap) : (s.setCap i n c).hbs = s.hbs := rfl
@[simp] theorem State.setCap_split (s : State) (i : Fin 5) (n : CapIx) (c : Cap) : (s.setCap i n c).split = s.split := rfl
@[simp] theorem State.setCap_tripSeen (s : State) (i : Fin 5) (n : CapIx) (c : Cap) : (s.setCap i n c).tripSeen = s.tripSeen := rfl
@[simp] theorem State.setCap_devSeq (s : State) (i : Fin 5) (n : CapIx) (c : Cap) : (s.setCap i n c).devSeq = s.devSeq := rfl
@[simp] theorem State.setCap_inj (s : State) (i : Fin 5) (n : CapIx) (c : Cap) : (s.setCap i n c).inj = s.inj := rfl
@[simp] theorem State.setCap_tripTx (s : State) (i : Fin 5) (n : CapIx) (c : Cap) : (s.setCap i n c).tripTx = s.tripTx := rfl
@[simp] theorem State.setCap_tripin (s : State) (i : Fin 5) (n : CapIx) (c : Cap) : (s.setCap i n c).tripin = s.tripin := rfl
@[simp] theorem State.setCap_scrDraws (s : State) (i : Fin 5) (n : CapIx) (c : Cap) : (s.setCap i n c).scrDraws = s.scrDraws := rfl
@[simp] theorem State.setCap_tap (s : State) (i : Fin 5) (n : CapIx) (c : Cap) : (s.setCap i n c).tap = s.tap := rfl
@[simp] theorem State.setCap_locked (s : State) (i : Fin 5) (n : CapIx) (c : Cap) : (s.setCap i n c).locked = s.locked := rfl
@[simp] theorem State.setCap_commit (s : State) (i : Fin 5) (n : CapIx) (c : Cap) : (s.setCap i n c).commit = s.commit := rfl
@[simp] theorem State.setCap_grn (s : State) (i : Fin 5) (n : CapIx) (c : Cap) : (s.setCap i n c).grn = s.grn := rfl
@[simp] theorem State.setCap_memcCfg (s : State) (i : Fin 5) (n : CapIx) (c : Cap) : (s.setCap i n c).memcCfg = s.memcCfg := rfl
@[simp] theorem State.setCap_ao (s : State) (i : Fin 5) (n : CapIx) (c : Cap) : (s.setCap i n c).ao = s.ao := rfl
@[simp] theorem State.setCap_cal (s : State) (i : Fin 5) (n : CapIx) (c : Cap) : (s.setCap i n c).cal = s.cal := rfl
@[simp] theorem State.setCap_lgr (s : State) (i : Fin 5) (n : CapIx) (c : Cap) : (s.setCap i n c).lgr = s.lgr := rfl
@[simp] theorem State.setCap_sec (s : State) (i : Fin 5) (n : CapIx) (c : Cap) : (s.setCap i n c).sec = s.sec := rfl
@[simp] theorem State.setCap_uart (s : State) (i : Fin 5) (n : CapIx) (c : Cap) : (s.setCap i n c).uart = s.uart := rfl
@[simp] theorem State.setCap_tch (s : State) (i : Fin 5) (n : CapIx) (c : Cap) : (s.setCap i n c).tch = s.tch := rfl
@[simp] theorem State.setCap_lcd (s : State) (i : Fin 5) (n : CapIx) (c : Cap) : (s.setCap i n c).lcd = s.lcd := rfl

/-! ### `modTrk` -/

@[simp] theorem State.modTrk_pending (s : State) (n : Fin 16) (f : TrkSt → TrkSt) : (s.modTrk n f).pending = s.pending := rfl
@[simp] theorem State.modTrk_now (s : State) (n : Fin 16) (f : TrkSt → TrkSt) : (s.modTrk n f).now = s.now := rfl
@[simp] theorem State.modTrk_free (s : State) (n : Fin 16) (f : TrkSt → TrkSt) : (s.modTrk n f).free = s.free := rfl
@[simp] theorem State.modTrk_reg (s : State) (n : Fin 16) (f : TrkSt → TrkSt) : (s.modTrk n f).reg = s.reg := rfl
@[simp] theorem State.modTrk_flags (s : State) (n : Fin 16) (f : TrkSt → TrkSt) : (s.modTrk n f).flags = s.flags := rfl
@[simp] theorem State.modTrk_bank (s : State) (n : Fin 16) (f : TrkSt → TrkSt) : (s.modTrk n f).bank = s.bank := rfl
@[simp] theorem State.modTrk_mem (s : State) (n : Fin 16) (f : TrkSt → TrkSt) : (s.modTrk n f).mem = s.mem := rfl
@[simp] theorem State.modTrk_upset (s : State) (n : Fin 16) (f : TrkSt → TrkSt) : (s.modTrk n f).upset = s.upset := rfl
@[simp] theorem State.modTrk_scrub (s : State) (n : Fin 16) (f : TrkSt → TrkSt) : (s.modTrk n f).scrub = s.scrub := rfl
@[simp] theorem State.modTrk_sdram (s : State) (n : Fin 16) (f : TrkSt → TrkSt) : (s.modTrk n f).sdram = s.sdram := rfl
@[simp] theorem State.modTrk_tags (s : State) (n : Fin 16) (f : TrkSt → TrkSt) : (s.modTrk n f).tags = s.tags := rfl
@[simp] theorem State.modTrk_answer (s : State) (n : Fin 16) (f : TrkSt → TrkSt) : (s.modTrk n f).answer = s.answer := rfl
@[simp] theorem State.modTrk_arrived (s : State) (n : Fin 16) (f : TrkSt → TrkSt) : (s.modTrk n f).arrived = s.arrived := rfl
@[simp] theorem State.modTrk_aoWait (s : State) (n : Fin 16) (f : TrkSt → TrkSt) : (s.modTrk n f).aoWait = s.aoWait := rfl
@[simp] theorem State.modTrk_brcFrom (s : State) (n : Fin 16) (f : TrkSt → TrkSt) : (s.modTrk n f).brcFrom = s.brcFrom := rfl
@[simp] theorem State.modTrk_raised (s : State) (n : Fin 16) (f : TrkSt → TrkSt) : (s.modTrk n f).raised = s.raised := rfl
@[simp] theorem State.modTrk_evtAt (s : State) (n : Fin 16) (f : TrkSt → TrkSt) : (s.modTrk n f).evtAt = s.evtAt := rfl
@[simp] theorem State.modTrk_enc (s : State) (n : Fin 16) (f : TrkSt → TrkSt) : (s.modTrk n f).enc = s.enc := rfl
@[simp] theorem State.modTrk_alm (s : State) (n : Fin 16) (f : TrkSt → TrkSt) : (s.modTrk n f).alm = s.alm := rfl
@[simp] theorem State.modTrk_almc (s : State) (n : Fin 16) (f : TrkSt → TrkSt) : (s.modTrk n f).almc = s.almc := rfl
@[simp] theorem State.modTrk_cv (s : State) (n : Fin 16) (f : TrkSt → TrkSt) : (s.modTrk n f).cv = s.cv := rfl
@[simp] theorem State.modTrk_ain (s : State) (n : Fin 16) (f : TrkSt → TrkSt) : (s.modTrk n f).ain = s.ain := rfl
@[simp] theorem State.modTrk_cmp (s : State) (n : Fin 16) (f : TrkSt → TrkSt) : (s.modTrk n f).cmp = s.cmp := rfl
@[simp] theorem State.modTrk_slc (s : State) (n : Fin 16) (f : TrkSt → TrkSt) : (s.modTrk n f).slc = s.slc := rfl
@[simp] theorem State.modTrk_dues (s : State) (n : Fin 16) (f : TrkSt → TrkSt) : (s.modTrk n f).dues = s.dues := rfl
@[simp] theorem State.modTrk_pair (s : State) (n : Fin 16) (f : TrkSt → TrkSt) : (s.modTrk n f).pair = s.pair := rfl
@[simp] theorem State.modTrk_gen (s : State) (n : Fin 16) (f : TrkSt → TrkSt) : (s.modTrk n f).gen = s.gen := rfl
@[simp] theorem State.modTrk_lockLow (s : State) (n : Fin 16) (f : TrkSt → TrkSt) : (s.modTrk n f).lockLow = s.lockLow := rfl
@[simp] theorem State.modTrk_chan (s : State) (n : Fin 16) (f : TrkSt → TrkSt) : (s.modTrk n f).chan = s.chan := rfl
@[simp] theorem State.modTrk_dom (s : State) (n : Fin 16) (f : TrkSt → TrkSt) : (s.modTrk n f).dom = s.dom := rfl
@[simp] theorem State.modTrk_fastFrom (s : State) (n : Fin 16) (f : TrkSt → TrkSt) : (s.modTrk n f).fastFrom = s.fastFrom := rfl
@[simp] theorem State.modTrk_linkFree (s : State) (n : Fin 16) (f : TrkSt → TrkSt) : (s.modTrk n f).linkFree = s.linkFree := rfl
@[simp] theorem State.modTrk_stops (s : State) (n : Fin 16) (f : TrkSt → TrkSt) : (s.modTrk n f).stops = s.stops := rfl
@[simp] theorem State.modTrk_pll (s : State) (n : Fin 16) (f : TrkSt → TrkSt) : (s.modTrk n f).pll = s.pll := rfl
@[simp] theorem State.modTrk_brcAt (s : State) (n : Fin 16) (f : TrkSt → TrkSt) : (s.modTrk n f).brcAt = s.brcAt := rfl
@[simp] theorem State.modTrk_lcs (s : State) (n : Fin 16) (f : TrkSt → TrkSt) : (s.modTrk n f).lcs = s.lcs := rfl
@[simp] theorem State.modTrk_meter (s : State) (n : Fin 16) (f : TrkSt → TrkSt) : (s.modTrk n f).meter = s.meter := rfl
@[simp] theorem State.modTrk_port (s : State) (n : Fin 16) (f : TrkSt → TrkSt) : (s.modTrk n f).port = s.port := rfl
@[simp] theorem State.modTrk_upstream (s : State) (n : Fin 16) (f : TrkSt → TrkSt) : (s.modTrk n f).upstream = s.upstream := rfl
@[simp] theorem State.modTrk_addr (s : State) (n : Fin 16) (f : TrkSt → TrkSt) : (s.modTrk n f).addr = s.addr := rfl
@[simp] theorem State.modTrk_mac (s : State) (n : Fin 16) (f : TrkSt → TrkSt) : (s.modTrk n f).mac = s.mac := rfl
@[simp] theorem State.modTrk_ptpAdj (s : State) (n : Fin 16) (f : TrkSt → TrkSt) : (s.modTrk n f).ptpAdj = s.ptpAdj := rfl
@[simp] theorem State.modTrk_tx (s : State) (n : Fin 16) (f : TrkSt → TrkSt) : (s.modTrk n f).tx = s.tx := rfl
@[simp] theorem State.modTrk_sent (s : State) (n : Fin 16) (f : TrkSt → TrkSt) : (s.modTrk n f).sent = s.sent := rfl
@[simp] theorem State.modTrk_sessions (s : State) (n : Fin 16) (f : TrkSt → TrkSt) : (s.modTrk n f).sessions = s.sessions := rfl
@[simp] theorem State.modTrk_waiting (s : State) (n : Fin 16) (f : TrkSt → TrkSt) : (s.modTrk n f).waiting = s.waiting := rfl
@[simp] theorem State.modTrk_replies (s : State) (n : Fin 16) (f : TrkSt → TrkSt) : (s.modTrk n f).replies = s.replies := rfl
@[simp] theorem State.modTrk_kept (s : State) (n : Fin 16) (f : TrkSt → TrkSt) : (s.modTrk n f).kept = s.kept := rfl
@[simp] theorem State.modTrk_credits (s : State) (n : Fin 16) (f : TrkSt → TrkSt) : (s.modTrk n f).credits = s.credits := rfl
@[simp] theorem State.modTrk_nocred (s : State) (n : Fin 16) (f : TrkSt → TrkSt) : (s.modTrk n f).nocred = s.nocred := rfl
@[simp] theorem State.modTrk_fcode (s : State) (n : Fin 16) (f : TrkSt → TrkSt) : (s.modTrk n f).fcode = s.fcode := rfl
@[simp] theorem State.modTrk_scratch (s : State) (n : Fin 16) (f : TrkSt → TrkSt) : (s.modTrk n f).scratch = s.scratch := rfl
@[simp] theorem State.modTrk_epoch (s : State) (n : Fin 16) (f : TrkSt → TrkSt) : (s.modTrk n f).epoch = s.epoch := rfl
@[simp] theorem State.modTrk_draws (s : State) (n : Fin 16) (f : TrkSt → TrkSt) : (s.modTrk n f).draws = s.draws := rfl
@[simp] theorem State.modTrk_puts (s : State) (n : Fin 16) (f : TrkSt → TrkSt) : (s.modTrk n f).puts = s.puts := rfl
@[simp] theorem State.modTrk_prov (s : State) (n : Fin 16) (f : TrkSt → TrkSt) : (s.modTrk n f).prov = s.prov := rfl
@[simp] theorem State.modTrk_openBy (s : State) (n : Fin 16) (f : TrkSt → TrkSt) : (s.modTrk n f).openBy = s.openBy := rfl
@[simp] theorem State.modTrk_img (s : State) (n : Fin 16) (f : TrkSt → TrkSt) : (s.modTrk n f).img = s.img := rfl
@[simp] theorem State.modTrk_restored (s : State) (n : Fin 16) (f : TrkSt → TrkSt) : (s.modTrk n f).restored = s.restored := rfl
@[simp] theorem State.modTrk_wdog (s : State) (n : Fin 16) (f : TrkSt → TrkSt) : (s.modTrk n f).wdog = s.wdog := rfl
@[simp] theorem State.modTrk_ptpOff (s : State) (n : Fin 16) (f : TrkSt → TrkSt) : (s.modTrk n f).ptpOff = s.ptpOff := rfl
@[simp] theorem State.modTrk_ptpGood (s : State) (n : Fin 16) (f : TrkSt → TrkSt) : (s.modTrk n f).ptpGood = s.ptpGood := rfl
@[simp] theorem State.modTrk_hbs (s : State) (n : Fin 16) (f : TrkSt → TrkSt) : (s.modTrk n f).hbs = s.hbs := rfl
@[simp] theorem State.modTrk_split (s : State) (n : Fin 16) (f : TrkSt → TrkSt) : (s.modTrk n f).split = s.split := rfl
@[simp] theorem State.modTrk_tripSeen (s : State) (n : Fin 16) (f : TrkSt → TrkSt) : (s.modTrk n f).tripSeen = s.tripSeen := rfl
@[simp] theorem State.modTrk_devSeq (s : State) (n : Fin 16) (f : TrkSt → TrkSt) : (s.modTrk n f).devSeq = s.devSeq := rfl
@[simp] theorem State.modTrk_inj (s : State) (n : Fin 16) (f : TrkSt → TrkSt) : (s.modTrk n f).inj = s.inj := rfl
@[simp] theorem State.modTrk_tripTx (s : State) (n : Fin 16) (f : TrkSt → TrkSt) : (s.modTrk n f).tripTx = s.tripTx := rfl
@[simp] theorem State.modTrk_tripin (s : State) (n : Fin 16) (f : TrkSt → TrkSt) : (s.modTrk n f).tripin = s.tripin := rfl
@[simp] theorem State.modTrk_core (s : State) (n : Fin 16) (f : TrkSt → TrkSt) : (s.modTrk n f).core = s.core := rfl
@[simp] theorem State.modTrk_scrDraws (s : State) (n : Fin 16) (f : TrkSt → TrkSt) : (s.modTrk n f).scrDraws = s.scrDraws := rfl
@[simp] theorem State.modTrk_tap (s : State) (n : Fin 16) (f : TrkSt → TrkSt) : (s.modTrk n f).tap = s.tap := rfl
@[simp] theorem State.modTrk_locked (s : State) (n : Fin 16) (f : TrkSt → TrkSt) : (s.modTrk n f).locked = s.locked := rfl
@[simp] theorem State.modTrk_commit (s : State) (n : Fin 16) (f : TrkSt → TrkSt) : (s.modTrk n f).commit = s.commit := rfl
@[simp] theorem State.modTrk_grn (s : State) (n : Fin 16) (f : TrkSt → TrkSt) : (s.modTrk n f).grn = s.grn := rfl
@[simp] theorem State.modTrk_memcCfg (s : State) (n : Fin 16) (f : TrkSt → TrkSt) : (s.modTrk n f).memcCfg = s.memcCfg := rfl
@[simp] theorem State.modTrk_ao (s : State) (n : Fin 16) (f : TrkSt → TrkSt) : (s.modTrk n f).ao = s.ao := rfl
@[simp] theorem State.modTrk_cal (s : State) (n : Fin 16) (f : TrkSt → TrkSt) : (s.modTrk n f).cal = s.cal := rfl
@[simp] theorem State.modTrk_lgr (s : State) (n : Fin 16) (f : TrkSt → TrkSt) : (s.modTrk n f).lgr = s.lgr := rfl
@[simp] theorem State.modTrk_sec (s : State) (n : Fin 16) (f : TrkSt → TrkSt) : (s.modTrk n f).sec = s.sec := rfl
@[simp] theorem State.modTrk_uart (s : State) (n : Fin 16) (f : TrkSt → TrkSt) : (s.modTrk n f).uart = s.uart := rfl
@[simp] theorem State.modTrk_tch (s : State) (n : Fin 16) (f : TrkSt → TrkSt) : (s.modTrk n f).tch = s.tch := rfl
@[simp] theorem State.modTrk_lcd (s : State) (n : Fin 16) (f : TrkSt → TrkSt) : (s.modTrk n f).lcd = s.lcd := rfl

/-! ### `modCv` -/

@[simp] theorem State.modCv_pending (s : State) (n : Fin 24) (f : CvSt → CvSt) : (s.modCv n f).pending = s.pending := rfl
@[simp] theorem State.modCv_now (s : State) (n : Fin 24) (f : CvSt → CvSt) : (s.modCv n f).now = s.now := rfl
@[simp] theorem State.modCv_free (s : State) (n : Fin 24) (f : CvSt → CvSt) : (s.modCv n f).free = s.free := rfl
@[simp] theorem State.modCv_reg (s : State) (n : Fin 24) (f : CvSt → CvSt) : (s.modCv n f).reg = s.reg := rfl
@[simp] theorem State.modCv_flags (s : State) (n : Fin 24) (f : CvSt → CvSt) : (s.modCv n f).flags = s.flags := rfl
@[simp] theorem State.modCv_bank (s : State) (n : Fin 24) (f : CvSt → CvSt) : (s.modCv n f).bank = s.bank := rfl
@[simp] theorem State.modCv_mem (s : State) (n : Fin 24) (f : CvSt → CvSt) : (s.modCv n f).mem = s.mem := rfl
@[simp] theorem State.modCv_upset (s : State) (n : Fin 24) (f : CvSt → CvSt) : (s.modCv n f).upset = s.upset := rfl
@[simp] theorem State.modCv_scrub (s : State) (n : Fin 24) (f : CvSt → CvSt) : (s.modCv n f).scrub = s.scrub := rfl
@[simp] theorem State.modCv_sdram (s : State) (n : Fin 24) (f : CvSt → CvSt) : (s.modCv n f).sdram = s.sdram := rfl
@[simp] theorem State.modCv_tags (s : State) (n : Fin 24) (f : CvSt → CvSt) : (s.modCv n f).tags = s.tags := rfl
@[simp] theorem State.modCv_answer (s : State) (n : Fin 24) (f : CvSt → CvSt) : (s.modCv n f).answer = s.answer := rfl
@[simp] theorem State.modCv_arrived (s : State) (n : Fin 24) (f : CvSt → CvSt) : (s.modCv n f).arrived = s.arrived := rfl
@[simp] theorem State.modCv_aoWait (s : State) (n : Fin 24) (f : CvSt → CvSt) : (s.modCv n f).aoWait = s.aoWait := rfl
@[simp] theorem State.modCv_brcFrom (s : State) (n : Fin 24) (f : CvSt → CvSt) : (s.modCv n f).brcFrom = s.brcFrom := rfl
@[simp] theorem State.modCv_raised (s : State) (n : Fin 24) (f : CvSt → CvSt) : (s.modCv n f).raised = s.raised := rfl
@[simp] theorem State.modCv_evtAt (s : State) (n : Fin 24) (f : CvSt → CvSt) : (s.modCv n f).evtAt = s.evtAt := rfl
@[simp] theorem State.modCv_trk (s : State) (n : Fin 24) (f : CvSt → CvSt) : (s.modCv n f).trk = s.trk := rfl
@[simp] theorem State.modCv_enc (s : State) (n : Fin 24) (f : CvSt → CvSt) : (s.modCv n f).enc = s.enc := rfl
@[simp] theorem State.modCv_alm (s : State) (n : Fin 24) (f : CvSt → CvSt) : (s.modCv n f).alm = s.alm := rfl
@[simp] theorem State.modCv_almc (s : State) (n : Fin 24) (f : CvSt → CvSt) : (s.modCv n f).almc = s.almc := rfl
@[simp] theorem State.modCv_ain (s : State) (n : Fin 24) (f : CvSt → CvSt) : (s.modCv n f).ain = s.ain := rfl
@[simp] theorem State.modCv_cmp (s : State) (n : Fin 24) (f : CvSt → CvSt) : (s.modCv n f).cmp = s.cmp := rfl
@[simp] theorem State.modCv_slc (s : State) (n : Fin 24) (f : CvSt → CvSt) : (s.modCv n f).slc = s.slc := rfl
@[simp] theorem State.modCv_dues (s : State) (n : Fin 24) (f : CvSt → CvSt) : (s.modCv n f).dues = s.dues := rfl
@[simp] theorem State.modCv_pair (s : State) (n : Fin 24) (f : CvSt → CvSt) : (s.modCv n f).pair = s.pair := rfl
@[simp] theorem State.modCv_gen (s : State) (n : Fin 24) (f : CvSt → CvSt) : (s.modCv n f).gen = s.gen := rfl
@[simp] theorem State.modCv_lockLow (s : State) (n : Fin 24) (f : CvSt → CvSt) : (s.modCv n f).lockLow = s.lockLow := rfl
@[simp] theorem State.modCv_chan (s : State) (n : Fin 24) (f : CvSt → CvSt) : (s.modCv n f).chan = s.chan := rfl
@[simp] theorem State.modCv_dom (s : State) (n : Fin 24) (f : CvSt → CvSt) : (s.modCv n f).dom = s.dom := rfl
@[simp] theorem State.modCv_fastFrom (s : State) (n : Fin 24) (f : CvSt → CvSt) : (s.modCv n f).fastFrom = s.fastFrom := rfl
@[simp] theorem State.modCv_linkFree (s : State) (n : Fin 24) (f : CvSt → CvSt) : (s.modCv n f).linkFree = s.linkFree := rfl
@[simp] theorem State.modCv_stops (s : State) (n : Fin 24) (f : CvSt → CvSt) : (s.modCv n f).stops = s.stops := rfl
@[simp] theorem State.modCv_pll (s : State) (n : Fin 24) (f : CvSt → CvSt) : (s.modCv n f).pll = s.pll := rfl
@[simp] theorem State.modCv_brcAt (s : State) (n : Fin 24) (f : CvSt → CvSt) : (s.modCv n f).brcAt = s.brcAt := rfl
@[simp] theorem State.modCv_lcs (s : State) (n : Fin 24) (f : CvSt → CvSt) : (s.modCv n f).lcs = s.lcs := rfl
@[simp] theorem State.modCv_meter (s : State) (n : Fin 24) (f : CvSt → CvSt) : (s.modCv n f).meter = s.meter := rfl
@[simp] theorem State.modCv_port (s : State) (n : Fin 24) (f : CvSt → CvSt) : (s.modCv n f).port = s.port := rfl
@[simp] theorem State.modCv_upstream (s : State) (n : Fin 24) (f : CvSt → CvSt) : (s.modCv n f).upstream = s.upstream := rfl
@[simp] theorem State.modCv_addr (s : State) (n : Fin 24) (f : CvSt → CvSt) : (s.modCv n f).addr = s.addr := rfl
@[simp] theorem State.modCv_mac (s : State) (n : Fin 24) (f : CvSt → CvSt) : (s.modCv n f).mac = s.mac := rfl
@[simp] theorem State.modCv_ptpAdj (s : State) (n : Fin 24) (f : CvSt → CvSt) : (s.modCv n f).ptpAdj = s.ptpAdj := rfl
@[simp] theorem State.modCv_tx (s : State) (n : Fin 24) (f : CvSt → CvSt) : (s.modCv n f).tx = s.tx := rfl
@[simp] theorem State.modCv_sent (s : State) (n : Fin 24) (f : CvSt → CvSt) : (s.modCv n f).sent = s.sent := rfl
@[simp] theorem State.modCv_sessions (s : State) (n : Fin 24) (f : CvSt → CvSt) : (s.modCv n f).sessions = s.sessions := rfl
@[simp] theorem State.modCv_waiting (s : State) (n : Fin 24) (f : CvSt → CvSt) : (s.modCv n f).waiting = s.waiting := rfl
@[simp] theorem State.modCv_replies (s : State) (n : Fin 24) (f : CvSt → CvSt) : (s.modCv n f).replies = s.replies := rfl
@[simp] theorem State.modCv_kept (s : State) (n : Fin 24) (f : CvSt → CvSt) : (s.modCv n f).kept = s.kept := rfl
@[simp] theorem State.modCv_credits (s : State) (n : Fin 24) (f : CvSt → CvSt) : (s.modCv n f).credits = s.credits := rfl
@[simp] theorem State.modCv_nocred (s : State) (n : Fin 24) (f : CvSt → CvSt) : (s.modCv n f).nocred = s.nocred := rfl
@[simp] theorem State.modCv_fcode (s : State) (n : Fin 24) (f : CvSt → CvSt) : (s.modCv n f).fcode = s.fcode := rfl
@[simp] theorem State.modCv_scratch (s : State) (n : Fin 24) (f : CvSt → CvSt) : (s.modCv n f).scratch = s.scratch := rfl
@[simp] theorem State.modCv_epoch (s : State) (n : Fin 24) (f : CvSt → CvSt) : (s.modCv n f).epoch = s.epoch := rfl
@[simp] theorem State.modCv_draws (s : State) (n : Fin 24) (f : CvSt → CvSt) : (s.modCv n f).draws = s.draws := rfl
@[simp] theorem State.modCv_puts (s : State) (n : Fin 24) (f : CvSt → CvSt) : (s.modCv n f).puts = s.puts := rfl
@[simp] theorem State.modCv_prov (s : State) (n : Fin 24) (f : CvSt → CvSt) : (s.modCv n f).prov = s.prov := rfl
@[simp] theorem State.modCv_openBy (s : State) (n : Fin 24) (f : CvSt → CvSt) : (s.modCv n f).openBy = s.openBy := rfl
@[simp] theorem State.modCv_img (s : State) (n : Fin 24) (f : CvSt → CvSt) : (s.modCv n f).img = s.img := rfl
@[simp] theorem State.modCv_restored (s : State) (n : Fin 24) (f : CvSt → CvSt) : (s.modCv n f).restored = s.restored := rfl
@[simp] theorem State.modCv_wdog (s : State) (n : Fin 24) (f : CvSt → CvSt) : (s.modCv n f).wdog = s.wdog := rfl
@[simp] theorem State.modCv_ptpOff (s : State) (n : Fin 24) (f : CvSt → CvSt) : (s.modCv n f).ptpOff = s.ptpOff := rfl
@[simp] theorem State.modCv_ptpGood (s : State) (n : Fin 24) (f : CvSt → CvSt) : (s.modCv n f).ptpGood = s.ptpGood := rfl
@[simp] theorem State.modCv_hbs (s : State) (n : Fin 24) (f : CvSt → CvSt) : (s.modCv n f).hbs = s.hbs := rfl
@[simp] theorem State.modCv_split (s : State) (n : Fin 24) (f : CvSt → CvSt) : (s.modCv n f).split = s.split := rfl
@[simp] theorem State.modCv_tripSeen (s : State) (n : Fin 24) (f : CvSt → CvSt) : (s.modCv n f).tripSeen = s.tripSeen := rfl
@[simp] theorem State.modCv_devSeq (s : State) (n : Fin 24) (f : CvSt → CvSt) : (s.modCv n f).devSeq = s.devSeq := rfl
@[simp] theorem State.modCv_inj (s : State) (n : Fin 24) (f : CvSt → CvSt) : (s.modCv n f).inj = s.inj := rfl
@[simp] theorem State.modCv_tripTx (s : State) (n : Fin 24) (f : CvSt → CvSt) : (s.modCv n f).tripTx = s.tripTx := rfl
@[simp] theorem State.modCv_tripin (s : State) (n : Fin 24) (f : CvSt → CvSt) : (s.modCv n f).tripin = s.tripin := rfl
@[simp] theorem State.modCv_core (s : State) (n : Fin 24) (f : CvSt → CvSt) : (s.modCv n f).core = s.core := rfl
@[simp] theorem State.modCv_scrDraws (s : State) (n : Fin 24) (f : CvSt → CvSt) : (s.modCv n f).scrDraws = s.scrDraws := rfl
@[simp] theorem State.modCv_tap (s : State) (n : Fin 24) (f : CvSt → CvSt) : (s.modCv n f).tap = s.tap := rfl
@[simp] theorem State.modCv_locked (s : State) (n : Fin 24) (f : CvSt → CvSt) : (s.modCv n f).locked = s.locked := rfl
@[simp] theorem State.modCv_commit (s : State) (n : Fin 24) (f : CvSt → CvSt) : (s.modCv n f).commit = s.commit := rfl
@[simp] theorem State.modCv_grn (s : State) (n : Fin 24) (f : CvSt → CvSt) : (s.modCv n f).grn = s.grn := rfl
@[simp] theorem State.modCv_memcCfg (s : State) (n : Fin 24) (f : CvSt → CvSt) : (s.modCv n f).memcCfg = s.memcCfg := rfl
@[simp] theorem State.modCv_ao (s : State) (n : Fin 24) (f : CvSt → CvSt) : (s.modCv n f).ao = s.ao := rfl
@[simp] theorem State.modCv_cal (s : State) (n : Fin 24) (f : CvSt → CvSt) : (s.modCv n f).cal = s.cal := rfl
@[simp] theorem State.modCv_lgr (s : State) (n : Fin 24) (f : CvSt → CvSt) : (s.modCv n f).lgr = s.lgr := rfl
@[simp] theorem State.modCv_sec (s : State) (n : Fin 24) (f : CvSt → CvSt) : (s.modCv n f).sec = s.sec := rfl
@[simp] theorem State.modCv_uart (s : State) (n : Fin 24) (f : CvSt → CvSt) : (s.modCv n f).uart = s.uart := rfl
@[simp] theorem State.modCv_tch (s : State) (n : Fin 24) (f : CvSt → CvSt) : (s.modCv n f).tch = s.tch := rfl
@[simp] theorem State.modCv_lcd (s : State) (n : Fin 24) (f : CvSt → CvSt) : (s.modCv n f).lcd = s.lcd := rfl

/-! ### `modCmp` -/

@[simp] theorem State.modCmp_pending (s : State) (n : Fin 32) (f : CmpSt → CmpSt) : (s.modCmp n f).pending = s.pending := rfl
@[simp] theorem State.modCmp_now (s : State) (n : Fin 32) (f : CmpSt → CmpSt) : (s.modCmp n f).now = s.now := rfl
@[simp] theorem State.modCmp_free (s : State) (n : Fin 32) (f : CmpSt → CmpSt) : (s.modCmp n f).free = s.free := rfl
@[simp] theorem State.modCmp_reg (s : State) (n : Fin 32) (f : CmpSt → CmpSt) : (s.modCmp n f).reg = s.reg := rfl
@[simp] theorem State.modCmp_flags (s : State) (n : Fin 32) (f : CmpSt → CmpSt) : (s.modCmp n f).flags = s.flags := rfl
@[simp] theorem State.modCmp_bank (s : State) (n : Fin 32) (f : CmpSt → CmpSt) : (s.modCmp n f).bank = s.bank := rfl
@[simp] theorem State.modCmp_mem (s : State) (n : Fin 32) (f : CmpSt → CmpSt) : (s.modCmp n f).mem = s.mem := rfl
@[simp] theorem State.modCmp_upset (s : State) (n : Fin 32) (f : CmpSt → CmpSt) : (s.modCmp n f).upset = s.upset := rfl
@[simp] theorem State.modCmp_scrub (s : State) (n : Fin 32) (f : CmpSt → CmpSt) : (s.modCmp n f).scrub = s.scrub := rfl
@[simp] theorem State.modCmp_sdram (s : State) (n : Fin 32) (f : CmpSt → CmpSt) : (s.modCmp n f).sdram = s.sdram := rfl
@[simp] theorem State.modCmp_tags (s : State) (n : Fin 32) (f : CmpSt → CmpSt) : (s.modCmp n f).tags = s.tags := rfl
@[simp] theorem State.modCmp_answer (s : State) (n : Fin 32) (f : CmpSt → CmpSt) : (s.modCmp n f).answer = s.answer := rfl
@[simp] theorem State.modCmp_arrived (s : State) (n : Fin 32) (f : CmpSt → CmpSt) : (s.modCmp n f).arrived = s.arrived := rfl
@[simp] theorem State.modCmp_aoWait (s : State) (n : Fin 32) (f : CmpSt → CmpSt) : (s.modCmp n f).aoWait = s.aoWait := rfl
@[simp] theorem State.modCmp_brcFrom (s : State) (n : Fin 32) (f : CmpSt → CmpSt) : (s.modCmp n f).brcFrom = s.brcFrom := rfl
@[simp] theorem State.modCmp_raised (s : State) (n : Fin 32) (f : CmpSt → CmpSt) : (s.modCmp n f).raised = s.raised := rfl
@[simp] theorem State.modCmp_evtAt (s : State) (n : Fin 32) (f : CmpSt → CmpSt) : (s.modCmp n f).evtAt = s.evtAt := rfl
@[simp] theorem State.modCmp_trk (s : State) (n : Fin 32) (f : CmpSt → CmpSt) : (s.modCmp n f).trk = s.trk := rfl
@[simp] theorem State.modCmp_enc (s : State) (n : Fin 32) (f : CmpSt → CmpSt) : (s.modCmp n f).enc = s.enc := rfl
@[simp] theorem State.modCmp_alm (s : State) (n : Fin 32) (f : CmpSt → CmpSt) : (s.modCmp n f).alm = s.alm := rfl
@[simp] theorem State.modCmp_almc (s : State) (n : Fin 32) (f : CmpSt → CmpSt) : (s.modCmp n f).almc = s.almc := rfl
@[simp] theorem State.modCmp_cv (s : State) (n : Fin 32) (f : CmpSt → CmpSt) : (s.modCmp n f).cv = s.cv := rfl
@[simp] theorem State.modCmp_ain (s : State) (n : Fin 32) (f : CmpSt → CmpSt) : (s.modCmp n f).ain = s.ain := rfl
@[simp] theorem State.modCmp_slc (s : State) (n : Fin 32) (f : CmpSt → CmpSt) : (s.modCmp n f).slc = s.slc := rfl
@[simp] theorem State.modCmp_dues (s : State) (n : Fin 32) (f : CmpSt → CmpSt) : (s.modCmp n f).dues = s.dues := rfl
@[simp] theorem State.modCmp_pair (s : State) (n : Fin 32) (f : CmpSt → CmpSt) : (s.modCmp n f).pair = s.pair := rfl
@[simp] theorem State.modCmp_gen (s : State) (n : Fin 32) (f : CmpSt → CmpSt) : (s.modCmp n f).gen = s.gen := rfl
@[simp] theorem State.modCmp_lockLow (s : State) (n : Fin 32) (f : CmpSt → CmpSt) : (s.modCmp n f).lockLow = s.lockLow := rfl
@[simp] theorem State.modCmp_chan (s : State) (n : Fin 32) (f : CmpSt → CmpSt) : (s.modCmp n f).chan = s.chan := rfl
@[simp] theorem State.modCmp_dom (s : State) (n : Fin 32) (f : CmpSt → CmpSt) : (s.modCmp n f).dom = s.dom := rfl
@[simp] theorem State.modCmp_fastFrom (s : State) (n : Fin 32) (f : CmpSt → CmpSt) : (s.modCmp n f).fastFrom = s.fastFrom := rfl
@[simp] theorem State.modCmp_linkFree (s : State) (n : Fin 32) (f : CmpSt → CmpSt) : (s.modCmp n f).linkFree = s.linkFree := rfl
@[simp] theorem State.modCmp_stops (s : State) (n : Fin 32) (f : CmpSt → CmpSt) : (s.modCmp n f).stops = s.stops := rfl
@[simp] theorem State.modCmp_pll (s : State) (n : Fin 32) (f : CmpSt → CmpSt) : (s.modCmp n f).pll = s.pll := rfl
@[simp] theorem State.modCmp_brcAt (s : State) (n : Fin 32) (f : CmpSt → CmpSt) : (s.modCmp n f).brcAt = s.brcAt := rfl
@[simp] theorem State.modCmp_lcs (s : State) (n : Fin 32) (f : CmpSt → CmpSt) : (s.modCmp n f).lcs = s.lcs := rfl
@[simp] theorem State.modCmp_meter (s : State) (n : Fin 32) (f : CmpSt → CmpSt) : (s.modCmp n f).meter = s.meter := rfl
@[simp] theorem State.modCmp_port (s : State) (n : Fin 32) (f : CmpSt → CmpSt) : (s.modCmp n f).port = s.port := rfl
@[simp] theorem State.modCmp_upstream (s : State) (n : Fin 32) (f : CmpSt → CmpSt) : (s.modCmp n f).upstream = s.upstream := rfl
@[simp] theorem State.modCmp_addr (s : State) (n : Fin 32) (f : CmpSt → CmpSt) : (s.modCmp n f).addr = s.addr := rfl
@[simp] theorem State.modCmp_mac (s : State) (n : Fin 32) (f : CmpSt → CmpSt) : (s.modCmp n f).mac = s.mac := rfl
@[simp] theorem State.modCmp_ptpAdj (s : State) (n : Fin 32) (f : CmpSt → CmpSt) : (s.modCmp n f).ptpAdj = s.ptpAdj := rfl
@[simp] theorem State.modCmp_tx (s : State) (n : Fin 32) (f : CmpSt → CmpSt) : (s.modCmp n f).tx = s.tx := rfl
@[simp] theorem State.modCmp_sent (s : State) (n : Fin 32) (f : CmpSt → CmpSt) : (s.modCmp n f).sent = s.sent := rfl
@[simp] theorem State.modCmp_sessions (s : State) (n : Fin 32) (f : CmpSt → CmpSt) : (s.modCmp n f).sessions = s.sessions := rfl
@[simp] theorem State.modCmp_waiting (s : State) (n : Fin 32) (f : CmpSt → CmpSt) : (s.modCmp n f).waiting = s.waiting := rfl
@[simp] theorem State.modCmp_replies (s : State) (n : Fin 32) (f : CmpSt → CmpSt) : (s.modCmp n f).replies = s.replies := rfl
@[simp] theorem State.modCmp_kept (s : State) (n : Fin 32) (f : CmpSt → CmpSt) : (s.modCmp n f).kept = s.kept := rfl
@[simp] theorem State.modCmp_credits (s : State) (n : Fin 32) (f : CmpSt → CmpSt) : (s.modCmp n f).credits = s.credits := rfl
@[simp] theorem State.modCmp_nocred (s : State) (n : Fin 32) (f : CmpSt → CmpSt) : (s.modCmp n f).nocred = s.nocred := rfl
@[simp] theorem State.modCmp_fcode (s : State) (n : Fin 32) (f : CmpSt → CmpSt) : (s.modCmp n f).fcode = s.fcode := rfl
@[simp] theorem State.modCmp_scratch (s : State) (n : Fin 32) (f : CmpSt → CmpSt) : (s.modCmp n f).scratch = s.scratch := rfl
@[simp] theorem State.modCmp_epoch (s : State) (n : Fin 32) (f : CmpSt → CmpSt) : (s.modCmp n f).epoch = s.epoch := rfl
@[simp] theorem State.modCmp_draws (s : State) (n : Fin 32) (f : CmpSt → CmpSt) : (s.modCmp n f).draws = s.draws := rfl
@[simp] theorem State.modCmp_puts (s : State) (n : Fin 32) (f : CmpSt → CmpSt) : (s.modCmp n f).puts = s.puts := rfl
@[simp] theorem State.modCmp_prov (s : State) (n : Fin 32) (f : CmpSt → CmpSt) : (s.modCmp n f).prov = s.prov := rfl
@[simp] theorem State.modCmp_openBy (s : State) (n : Fin 32) (f : CmpSt → CmpSt) : (s.modCmp n f).openBy = s.openBy := rfl
@[simp] theorem State.modCmp_img (s : State) (n : Fin 32) (f : CmpSt → CmpSt) : (s.modCmp n f).img = s.img := rfl
@[simp] theorem State.modCmp_restored (s : State) (n : Fin 32) (f : CmpSt → CmpSt) : (s.modCmp n f).restored = s.restored := rfl
@[simp] theorem State.modCmp_wdog (s : State) (n : Fin 32) (f : CmpSt → CmpSt) : (s.modCmp n f).wdog = s.wdog := rfl
@[simp] theorem State.modCmp_ptpOff (s : State) (n : Fin 32) (f : CmpSt → CmpSt) : (s.modCmp n f).ptpOff = s.ptpOff := rfl
@[simp] theorem State.modCmp_ptpGood (s : State) (n : Fin 32) (f : CmpSt → CmpSt) : (s.modCmp n f).ptpGood = s.ptpGood := rfl
@[simp] theorem State.modCmp_hbs (s : State) (n : Fin 32) (f : CmpSt → CmpSt) : (s.modCmp n f).hbs = s.hbs := rfl
@[simp] theorem State.modCmp_split (s : State) (n : Fin 32) (f : CmpSt → CmpSt) : (s.modCmp n f).split = s.split := rfl
@[simp] theorem State.modCmp_tripSeen (s : State) (n : Fin 32) (f : CmpSt → CmpSt) : (s.modCmp n f).tripSeen = s.tripSeen := rfl
@[simp] theorem State.modCmp_devSeq (s : State) (n : Fin 32) (f : CmpSt → CmpSt) : (s.modCmp n f).devSeq = s.devSeq := rfl
@[simp] theorem State.modCmp_inj (s : State) (n : Fin 32) (f : CmpSt → CmpSt) : (s.modCmp n f).inj = s.inj := rfl
@[simp] theorem State.modCmp_tripTx (s : State) (n : Fin 32) (f : CmpSt → CmpSt) : (s.modCmp n f).tripTx = s.tripTx := rfl
@[simp] theorem State.modCmp_tripin (s : State) (n : Fin 32) (f : CmpSt → CmpSt) : (s.modCmp n f).tripin = s.tripin := rfl
@[simp] theorem State.modCmp_core (s : State) (n : Fin 32) (f : CmpSt → CmpSt) : (s.modCmp n f).core = s.core := rfl
@[simp] theorem State.modCmp_scrDraws (s : State) (n : Fin 32) (f : CmpSt → CmpSt) : (s.modCmp n f).scrDraws = s.scrDraws := rfl
@[simp] theorem State.modCmp_tap (s : State) (n : Fin 32) (f : CmpSt → CmpSt) : (s.modCmp n f).tap = s.tap := rfl
@[simp] theorem State.modCmp_locked (s : State) (n : Fin 32) (f : CmpSt → CmpSt) : (s.modCmp n f).locked = s.locked := rfl
@[simp] theorem State.modCmp_commit (s : State) (n : Fin 32) (f : CmpSt → CmpSt) : (s.modCmp n f).commit = s.commit := rfl
@[simp] theorem State.modCmp_grn (s : State) (n : Fin 32) (f : CmpSt → CmpSt) : (s.modCmp n f).grn = s.grn := rfl
@[simp] theorem State.modCmp_memcCfg (s : State) (n : Fin 32) (f : CmpSt → CmpSt) : (s.modCmp n f).memcCfg = s.memcCfg := rfl
@[simp] theorem State.modCmp_ao (s : State) (n : Fin 32) (f : CmpSt → CmpSt) : (s.modCmp n f).ao = s.ao := rfl
@[simp] theorem State.modCmp_cal (s : State) (n : Fin 32) (f : CmpSt → CmpSt) : (s.modCmp n f).cal = s.cal := rfl
@[simp] theorem State.modCmp_lgr (s : State) (n : Fin 32) (f : CmpSt → CmpSt) : (s.modCmp n f).lgr = s.lgr := rfl
@[simp] theorem State.modCmp_sec (s : State) (n : Fin 32) (f : CmpSt → CmpSt) : (s.modCmp n f).sec = s.sec := rfl
@[simp] theorem State.modCmp_uart (s : State) (n : Fin 32) (f : CmpSt → CmpSt) : (s.modCmp n f).uart = s.uart := rfl
@[simp] theorem State.modCmp_tch (s : State) (n : Fin 32) (f : CmpSt → CmpSt) : (s.modCmp n f).tch = s.tch := rfl
@[simp] theorem State.modCmp_lcd (s : State) (n : Fin 32) (f : CmpSt → CmpSt) : (s.modCmp n f).lcd = s.lcd := rfl

/-! ### `modSlc` -/

@[simp] theorem State.modSlc_pending (s : State) (n : Fin 16) (f : SliceSt → SliceSt) : (s.modSlc n f).pending = s.pending := rfl
@[simp] theorem State.modSlc_now (s : State) (n : Fin 16) (f : SliceSt → SliceSt) : (s.modSlc n f).now = s.now := rfl
@[simp] theorem State.modSlc_free (s : State) (n : Fin 16) (f : SliceSt → SliceSt) : (s.modSlc n f).free = s.free := rfl
@[simp] theorem State.modSlc_reg (s : State) (n : Fin 16) (f : SliceSt → SliceSt) : (s.modSlc n f).reg = s.reg := rfl
@[simp] theorem State.modSlc_flags (s : State) (n : Fin 16) (f : SliceSt → SliceSt) : (s.modSlc n f).flags = s.flags := rfl
@[simp] theorem State.modSlc_bank (s : State) (n : Fin 16) (f : SliceSt → SliceSt) : (s.modSlc n f).bank = s.bank := rfl
@[simp] theorem State.modSlc_mem (s : State) (n : Fin 16) (f : SliceSt → SliceSt) : (s.modSlc n f).mem = s.mem := rfl
@[simp] theorem State.modSlc_upset (s : State) (n : Fin 16) (f : SliceSt → SliceSt) : (s.modSlc n f).upset = s.upset := rfl
@[simp] theorem State.modSlc_scrub (s : State) (n : Fin 16) (f : SliceSt → SliceSt) : (s.modSlc n f).scrub = s.scrub := rfl
@[simp] theorem State.modSlc_sdram (s : State) (n : Fin 16) (f : SliceSt → SliceSt) : (s.modSlc n f).sdram = s.sdram := rfl
@[simp] theorem State.modSlc_tags (s : State) (n : Fin 16) (f : SliceSt → SliceSt) : (s.modSlc n f).tags = s.tags := rfl
@[simp] theorem State.modSlc_answer (s : State) (n : Fin 16) (f : SliceSt → SliceSt) : (s.modSlc n f).answer = s.answer := rfl
@[simp] theorem State.modSlc_arrived (s : State) (n : Fin 16) (f : SliceSt → SliceSt) : (s.modSlc n f).arrived = s.arrived := rfl
@[simp] theorem State.modSlc_aoWait (s : State) (n : Fin 16) (f : SliceSt → SliceSt) : (s.modSlc n f).aoWait = s.aoWait := rfl
@[simp] theorem State.modSlc_brcFrom (s : State) (n : Fin 16) (f : SliceSt → SliceSt) : (s.modSlc n f).brcFrom = s.brcFrom := rfl
@[simp] theorem State.modSlc_raised (s : State) (n : Fin 16) (f : SliceSt → SliceSt) : (s.modSlc n f).raised = s.raised := rfl
@[simp] theorem State.modSlc_evtAt (s : State) (n : Fin 16) (f : SliceSt → SliceSt) : (s.modSlc n f).evtAt = s.evtAt := rfl
@[simp] theorem State.modSlc_trk (s : State) (n : Fin 16) (f : SliceSt → SliceSt) : (s.modSlc n f).trk = s.trk := rfl
@[simp] theorem State.modSlc_enc (s : State) (n : Fin 16) (f : SliceSt → SliceSt) : (s.modSlc n f).enc = s.enc := rfl
@[simp] theorem State.modSlc_alm (s : State) (n : Fin 16) (f : SliceSt → SliceSt) : (s.modSlc n f).alm = s.alm := rfl
@[simp] theorem State.modSlc_almc (s : State) (n : Fin 16) (f : SliceSt → SliceSt) : (s.modSlc n f).almc = s.almc := rfl
@[simp] theorem State.modSlc_cv (s : State) (n : Fin 16) (f : SliceSt → SliceSt) : (s.modSlc n f).cv = s.cv := rfl
@[simp] theorem State.modSlc_ain (s : State) (n : Fin 16) (f : SliceSt → SliceSt) : (s.modSlc n f).ain = s.ain := rfl
@[simp] theorem State.modSlc_cmp (s : State) (n : Fin 16) (f : SliceSt → SliceSt) : (s.modSlc n f).cmp = s.cmp := rfl
@[simp] theorem State.modSlc_dues (s : State) (n : Fin 16) (f : SliceSt → SliceSt) : (s.modSlc n f).dues = s.dues := rfl
@[simp] theorem State.modSlc_pair (s : State) (n : Fin 16) (f : SliceSt → SliceSt) : (s.modSlc n f).pair = s.pair := rfl
@[simp] theorem State.modSlc_gen (s : State) (n : Fin 16) (f : SliceSt → SliceSt) : (s.modSlc n f).gen = s.gen := rfl
@[simp] theorem State.modSlc_lockLow (s : State) (n : Fin 16) (f : SliceSt → SliceSt) : (s.modSlc n f).lockLow = s.lockLow := rfl
@[simp] theorem State.modSlc_chan (s : State) (n : Fin 16) (f : SliceSt → SliceSt) : (s.modSlc n f).chan = s.chan := rfl
@[simp] theorem State.modSlc_dom (s : State) (n : Fin 16) (f : SliceSt → SliceSt) : (s.modSlc n f).dom = s.dom := rfl
@[simp] theorem State.modSlc_fastFrom (s : State) (n : Fin 16) (f : SliceSt → SliceSt) : (s.modSlc n f).fastFrom = s.fastFrom := rfl
@[simp] theorem State.modSlc_linkFree (s : State) (n : Fin 16) (f : SliceSt → SliceSt) : (s.modSlc n f).linkFree = s.linkFree := rfl
@[simp] theorem State.modSlc_stops (s : State) (n : Fin 16) (f : SliceSt → SliceSt) : (s.modSlc n f).stops = s.stops := rfl
@[simp] theorem State.modSlc_pll (s : State) (n : Fin 16) (f : SliceSt → SliceSt) : (s.modSlc n f).pll = s.pll := rfl
@[simp] theorem State.modSlc_brcAt (s : State) (n : Fin 16) (f : SliceSt → SliceSt) : (s.modSlc n f).brcAt = s.brcAt := rfl
@[simp] theorem State.modSlc_lcs (s : State) (n : Fin 16) (f : SliceSt → SliceSt) : (s.modSlc n f).lcs = s.lcs := rfl
@[simp] theorem State.modSlc_meter (s : State) (n : Fin 16) (f : SliceSt → SliceSt) : (s.modSlc n f).meter = s.meter := rfl
@[simp] theorem State.modSlc_port (s : State) (n : Fin 16) (f : SliceSt → SliceSt) : (s.modSlc n f).port = s.port := rfl
@[simp] theorem State.modSlc_upstream (s : State) (n : Fin 16) (f : SliceSt → SliceSt) : (s.modSlc n f).upstream = s.upstream := rfl
@[simp] theorem State.modSlc_addr (s : State) (n : Fin 16) (f : SliceSt → SliceSt) : (s.modSlc n f).addr = s.addr := rfl
@[simp] theorem State.modSlc_mac (s : State) (n : Fin 16) (f : SliceSt → SliceSt) : (s.modSlc n f).mac = s.mac := rfl
@[simp] theorem State.modSlc_ptpAdj (s : State) (n : Fin 16) (f : SliceSt → SliceSt) : (s.modSlc n f).ptpAdj = s.ptpAdj := rfl
@[simp] theorem State.modSlc_tx (s : State) (n : Fin 16) (f : SliceSt → SliceSt) : (s.modSlc n f).tx = s.tx := rfl
@[simp] theorem State.modSlc_sent (s : State) (n : Fin 16) (f : SliceSt → SliceSt) : (s.modSlc n f).sent = s.sent := rfl
@[simp] theorem State.modSlc_sessions (s : State) (n : Fin 16) (f : SliceSt → SliceSt) : (s.modSlc n f).sessions = s.sessions := rfl
@[simp] theorem State.modSlc_waiting (s : State) (n : Fin 16) (f : SliceSt → SliceSt) : (s.modSlc n f).waiting = s.waiting := rfl
@[simp] theorem State.modSlc_replies (s : State) (n : Fin 16) (f : SliceSt → SliceSt) : (s.modSlc n f).replies = s.replies := rfl
@[simp] theorem State.modSlc_kept (s : State) (n : Fin 16) (f : SliceSt → SliceSt) : (s.modSlc n f).kept = s.kept := rfl
@[simp] theorem State.modSlc_credits (s : State) (n : Fin 16) (f : SliceSt → SliceSt) : (s.modSlc n f).credits = s.credits := rfl
@[simp] theorem State.modSlc_nocred (s : State) (n : Fin 16) (f : SliceSt → SliceSt) : (s.modSlc n f).nocred = s.nocred := rfl
@[simp] theorem State.modSlc_fcode (s : State) (n : Fin 16) (f : SliceSt → SliceSt) : (s.modSlc n f).fcode = s.fcode := rfl
@[simp] theorem State.modSlc_scratch (s : State) (n : Fin 16) (f : SliceSt → SliceSt) : (s.modSlc n f).scratch = s.scratch := rfl
@[simp] theorem State.modSlc_epoch (s : State) (n : Fin 16) (f : SliceSt → SliceSt) : (s.modSlc n f).epoch = s.epoch := rfl
@[simp] theorem State.modSlc_draws (s : State) (n : Fin 16) (f : SliceSt → SliceSt) : (s.modSlc n f).draws = s.draws := rfl
@[simp] theorem State.modSlc_puts (s : State) (n : Fin 16) (f : SliceSt → SliceSt) : (s.modSlc n f).puts = s.puts := rfl
@[simp] theorem State.modSlc_prov (s : State) (n : Fin 16) (f : SliceSt → SliceSt) : (s.modSlc n f).prov = s.prov := rfl
@[simp] theorem State.modSlc_openBy (s : State) (n : Fin 16) (f : SliceSt → SliceSt) : (s.modSlc n f).openBy = s.openBy := rfl
@[simp] theorem State.modSlc_img (s : State) (n : Fin 16) (f : SliceSt → SliceSt) : (s.modSlc n f).img = s.img := rfl
@[simp] theorem State.modSlc_restored (s : State) (n : Fin 16) (f : SliceSt → SliceSt) : (s.modSlc n f).restored = s.restored := rfl
@[simp] theorem State.modSlc_wdog (s : State) (n : Fin 16) (f : SliceSt → SliceSt) : (s.modSlc n f).wdog = s.wdog := rfl
@[simp] theorem State.modSlc_ptpOff (s : State) (n : Fin 16) (f : SliceSt → SliceSt) : (s.modSlc n f).ptpOff = s.ptpOff := rfl
@[simp] theorem State.modSlc_ptpGood (s : State) (n : Fin 16) (f : SliceSt → SliceSt) : (s.modSlc n f).ptpGood = s.ptpGood := rfl
@[simp] theorem State.modSlc_hbs (s : State) (n : Fin 16) (f : SliceSt → SliceSt) : (s.modSlc n f).hbs = s.hbs := rfl
@[simp] theorem State.modSlc_split (s : State) (n : Fin 16) (f : SliceSt → SliceSt) : (s.modSlc n f).split = s.split := rfl
@[simp] theorem State.modSlc_tripSeen (s : State) (n : Fin 16) (f : SliceSt → SliceSt) : (s.modSlc n f).tripSeen = s.tripSeen := rfl
@[simp] theorem State.modSlc_devSeq (s : State) (n : Fin 16) (f : SliceSt → SliceSt) : (s.modSlc n f).devSeq = s.devSeq := rfl
@[simp] theorem State.modSlc_inj (s : State) (n : Fin 16) (f : SliceSt → SliceSt) : (s.modSlc n f).inj = s.inj := rfl
@[simp] theorem State.modSlc_tripTx (s : State) (n : Fin 16) (f : SliceSt → SliceSt) : (s.modSlc n f).tripTx = s.tripTx := rfl
@[simp] theorem State.modSlc_tripin (s : State) (n : Fin 16) (f : SliceSt → SliceSt) : (s.modSlc n f).tripin = s.tripin := rfl
@[simp] theorem State.modSlc_core (s : State) (n : Fin 16) (f : SliceSt → SliceSt) : (s.modSlc n f).core = s.core := rfl
@[simp] theorem State.modSlc_scrDraws (s : State) (n : Fin 16) (f : SliceSt → SliceSt) : (s.modSlc n f).scrDraws = s.scrDraws := rfl
@[simp] theorem State.modSlc_tap (s : State) (n : Fin 16) (f : SliceSt → SliceSt) : (s.modSlc n f).tap = s.tap := rfl
@[simp] theorem State.modSlc_locked (s : State) (n : Fin 16) (f : SliceSt → SliceSt) : (s.modSlc n f).locked = s.locked := rfl
@[simp] theorem State.modSlc_commit (s : State) (n : Fin 16) (f : SliceSt → SliceSt) : (s.modSlc n f).commit = s.commit := rfl
@[simp] theorem State.modSlc_grn (s : State) (n : Fin 16) (f : SliceSt → SliceSt) : (s.modSlc n f).grn = s.grn := rfl
@[simp] theorem State.modSlc_memcCfg (s : State) (n : Fin 16) (f : SliceSt → SliceSt) : (s.modSlc n f).memcCfg = s.memcCfg := rfl
@[simp] theorem State.modSlc_ao (s : State) (n : Fin 16) (f : SliceSt → SliceSt) : (s.modSlc n f).ao = s.ao := rfl
@[simp] theorem State.modSlc_cal (s : State) (n : Fin 16) (f : SliceSt → SliceSt) : (s.modSlc n f).cal = s.cal := rfl
@[simp] theorem State.modSlc_lgr (s : State) (n : Fin 16) (f : SliceSt → SliceSt) : (s.modSlc n f).lgr = s.lgr := rfl
@[simp] theorem State.modSlc_sec (s : State) (n : Fin 16) (f : SliceSt → SliceSt) : (s.modSlc n f).sec = s.sec := rfl
@[simp] theorem State.modSlc_uart (s : State) (n : Fin 16) (f : SliceSt → SliceSt) : (s.modSlc n f).uart = s.uart := rfl
@[simp] theorem State.modSlc_tch (s : State) (n : Fin 16) (f : SliceSt → SliceSt) : (s.modSlc n f).tch = s.tch := rfl
@[simp] theorem State.modSlc_lcd (s : State) (n : Fin 16) (f : SliceSt → SliceSt) : (s.modSlc n f).lcd = s.lcd := rfl

/-! ### `modPair` -/

@[simp] theorem State.modPair_pending (s : State) (n : Fin 32) (f : PairSt → PairSt) : (s.modPair n f).pending = s.pending := rfl
@[simp] theorem State.modPair_now (s : State) (n : Fin 32) (f : PairSt → PairSt) : (s.modPair n f).now = s.now := rfl
@[simp] theorem State.modPair_free (s : State) (n : Fin 32) (f : PairSt → PairSt) : (s.modPair n f).free = s.free := rfl
@[simp] theorem State.modPair_reg (s : State) (n : Fin 32) (f : PairSt → PairSt) : (s.modPair n f).reg = s.reg := rfl
@[simp] theorem State.modPair_flags (s : State) (n : Fin 32) (f : PairSt → PairSt) : (s.modPair n f).flags = s.flags := rfl
@[simp] theorem State.modPair_bank (s : State) (n : Fin 32) (f : PairSt → PairSt) : (s.modPair n f).bank = s.bank := rfl
@[simp] theorem State.modPair_mem (s : State) (n : Fin 32) (f : PairSt → PairSt) : (s.modPair n f).mem = s.mem := rfl
@[simp] theorem State.modPair_upset (s : State) (n : Fin 32) (f : PairSt → PairSt) : (s.modPair n f).upset = s.upset := rfl
@[simp] theorem State.modPair_scrub (s : State) (n : Fin 32) (f : PairSt → PairSt) : (s.modPair n f).scrub = s.scrub := rfl
@[simp] theorem State.modPair_sdram (s : State) (n : Fin 32) (f : PairSt → PairSt) : (s.modPair n f).sdram = s.sdram := rfl
@[simp] theorem State.modPair_tags (s : State) (n : Fin 32) (f : PairSt → PairSt) : (s.modPair n f).tags = s.tags := rfl
@[simp] theorem State.modPair_answer (s : State) (n : Fin 32) (f : PairSt → PairSt) : (s.modPair n f).answer = s.answer := rfl
@[simp] theorem State.modPair_arrived (s : State) (n : Fin 32) (f : PairSt → PairSt) : (s.modPair n f).arrived = s.arrived := rfl
@[simp] theorem State.modPair_aoWait (s : State) (n : Fin 32) (f : PairSt → PairSt) : (s.modPair n f).aoWait = s.aoWait := rfl
@[simp] theorem State.modPair_brcFrom (s : State) (n : Fin 32) (f : PairSt → PairSt) : (s.modPair n f).brcFrom = s.brcFrom := rfl
@[simp] theorem State.modPair_raised (s : State) (n : Fin 32) (f : PairSt → PairSt) : (s.modPair n f).raised = s.raised := rfl
@[simp] theorem State.modPair_evtAt (s : State) (n : Fin 32) (f : PairSt → PairSt) : (s.modPair n f).evtAt = s.evtAt := rfl
@[simp] theorem State.modPair_trk (s : State) (n : Fin 32) (f : PairSt → PairSt) : (s.modPair n f).trk = s.trk := rfl
@[simp] theorem State.modPair_enc (s : State) (n : Fin 32) (f : PairSt → PairSt) : (s.modPair n f).enc = s.enc := rfl
@[simp] theorem State.modPair_alm (s : State) (n : Fin 32) (f : PairSt → PairSt) : (s.modPair n f).alm = s.alm := rfl
@[simp] theorem State.modPair_almc (s : State) (n : Fin 32) (f : PairSt → PairSt) : (s.modPair n f).almc = s.almc := rfl
@[simp] theorem State.modPair_cv (s : State) (n : Fin 32) (f : PairSt → PairSt) : (s.modPair n f).cv = s.cv := rfl
@[simp] theorem State.modPair_ain (s : State) (n : Fin 32) (f : PairSt → PairSt) : (s.modPair n f).ain = s.ain := rfl
@[simp] theorem State.modPair_cmp (s : State) (n : Fin 32) (f : PairSt → PairSt) : (s.modPair n f).cmp = s.cmp := rfl
@[simp] theorem State.modPair_slc (s : State) (n : Fin 32) (f : PairSt → PairSt) : (s.modPair n f).slc = s.slc := rfl
@[simp] theorem State.modPair_dues (s : State) (n : Fin 32) (f : PairSt → PairSt) : (s.modPair n f).dues = s.dues := rfl
@[simp] theorem State.modPair_gen (s : State) (n : Fin 32) (f : PairSt → PairSt) : (s.modPair n f).gen = s.gen := rfl
@[simp] theorem State.modPair_lockLow (s : State) (n : Fin 32) (f : PairSt → PairSt) : (s.modPair n f).lockLow = s.lockLow := rfl
@[simp] theorem State.modPair_chan (s : State) (n : Fin 32) (f : PairSt → PairSt) : (s.modPair n f).chan = s.chan := rfl
@[simp] theorem State.modPair_dom (s : State) (n : Fin 32) (f : PairSt → PairSt) : (s.modPair n f).dom = s.dom := rfl
@[simp] theorem State.modPair_fastFrom (s : State) (n : Fin 32) (f : PairSt → PairSt) : (s.modPair n f).fastFrom = s.fastFrom := rfl
@[simp] theorem State.modPair_linkFree (s : State) (n : Fin 32) (f : PairSt → PairSt) : (s.modPair n f).linkFree = s.linkFree := rfl
@[simp] theorem State.modPair_stops (s : State) (n : Fin 32) (f : PairSt → PairSt) : (s.modPair n f).stops = s.stops := rfl
@[simp] theorem State.modPair_pll (s : State) (n : Fin 32) (f : PairSt → PairSt) : (s.modPair n f).pll = s.pll := rfl
@[simp] theorem State.modPair_brcAt (s : State) (n : Fin 32) (f : PairSt → PairSt) : (s.modPair n f).brcAt = s.brcAt := rfl
@[simp] theorem State.modPair_lcs (s : State) (n : Fin 32) (f : PairSt → PairSt) : (s.modPair n f).lcs = s.lcs := rfl
@[simp] theorem State.modPair_meter (s : State) (n : Fin 32) (f : PairSt → PairSt) : (s.modPair n f).meter = s.meter := rfl
@[simp] theorem State.modPair_port (s : State) (n : Fin 32) (f : PairSt → PairSt) : (s.modPair n f).port = s.port := rfl
@[simp] theorem State.modPair_upstream (s : State) (n : Fin 32) (f : PairSt → PairSt) : (s.modPair n f).upstream = s.upstream := rfl
@[simp] theorem State.modPair_addr (s : State) (n : Fin 32) (f : PairSt → PairSt) : (s.modPair n f).addr = s.addr := rfl
@[simp] theorem State.modPair_mac (s : State) (n : Fin 32) (f : PairSt → PairSt) : (s.modPair n f).mac = s.mac := rfl
@[simp] theorem State.modPair_ptpAdj (s : State) (n : Fin 32) (f : PairSt → PairSt) : (s.modPair n f).ptpAdj = s.ptpAdj := rfl
@[simp] theorem State.modPair_tx (s : State) (n : Fin 32) (f : PairSt → PairSt) : (s.modPair n f).tx = s.tx := rfl
@[simp] theorem State.modPair_sent (s : State) (n : Fin 32) (f : PairSt → PairSt) : (s.modPair n f).sent = s.sent := rfl
@[simp] theorem State.modPair_sessions (s : State) (n : Fin 32) (f : PairSt → PairSt) : (s.modPair n f).sessions = s.sessions := rfl
@[simp] theorem State.modPair_waiting (s : State) (n : Fin 32) (f : PairSt → PairSt) : (s.modPair n f).waiting = s.waiting := rfl
@[simp] theorem State.modPair_replies (s : State) (n : Fin 32) (f : PairSt → PairSt) : (s.modPair n f).replies = s.replies := rfl
@[simp] theorem State.modPair_kept (s : State) (n : Fin 32) (f : PairSt → PairSt) : (s.modPair n f).kept = s.kept := rfl
@[simp] theorem State.modPair_credits (s : State) (n : Fin 32) (f : PairSt → PairSt) : (s.modPair n f).credits = s.credits := rfl
@[simp] theorem State.modPair_nocred (s : State) (n : Fin 32) (f : PairSt → PairSt) : (s.modPair n f).nocred = s.nocred := rfl
@[simp] theorem State.modPair_fcode (s : State) (n : Fin 32) (f : PairSt → PairSt) : (s.modPair n f).fcode = s.fcode := rfl
@[simp] theorem State.modPair_scratch (s : State) (n : Fin 32) (f : PairSt → PairSt) : (s.modPair n f).scratch = s.scratch := rfl
@[simp] theorem State.modPair_epoch (s : State) (n : Fin 32) (f : PairSt → PairSt) : (s.modPair n f).epoch = s.epoch := rfl
@[simp] theorem State.modPair_draws (s : State) (n : Fin 32) (f : PairSt → PairSt) : (s.modPair n f).draws = s.draws := rfl
@[simp] theorem State.modPair_puts (s : State) (n : Fin 32) (f : PairSt → PairSt) : (s.modPair n f).puts = s.puts := rfl
@[simp] theorem State.modPair_prov (s : State) (n : Fin 32) (f : PairSt → PairSt) : (s.modPair n f).prov = s.prov := rfl
@[simp] theorem State.modPair_openBy (s : State) (n : Fin 32) (f : PairSt → PairSt) : (s.modPair n f).openBy = s.openBy := rfl
@[simp] theorem State.modPair_img (s : State) (n : Fin 32) (f : PairSt → PairSt) : (s.modPair n f).img = s.img := rfl
@[simp] theorem State.modPair_restored (s : State) (n : Fin 32) (f : PairSt → PairSt) : (s.modPair n f).restored = s.restored := rfl
@[simp] theorem State.modPair_wdog (s : State) (n : Fin 32) (f : PairSt → PairSt) : (s.modPair n f).wdog = s.wdog := rfl
@[simp] theorem State.modPair_ptpOff (s : State) (n : Fin 32) (f : PairSt → PairSt) : (s.modPair n f).ptpOff = s.ptpOff := rfl
@[simp] theorem State.modPair_ptpGood (s : State) (n : Fin 32) (f : PairSt → PairSt) : (s.modPair n f).ptpGood = s.ptpGood := rfl
@[simp] theorem State.modPair_hbs (s : State) (n : Fin 32) (f : PairSt → PairSt) : (s.modPair n f).hbs = s.hbs := rfl
@[simp] theorem State.modPair_split (s : State) (n : Fin 32) (f : PairSt → PairSt) : (s.modPair n f).split = s.split := rfl
@[simp] theorem State.modPair_tripSeen (s : State) (n : Fin 32) (f : PairSt → PairSt) : (s.modPair n f).tripSeen = s.tripSeen := rfl
@[simp] theorem State.modPair_devSeq (s : State) (n : Fin 32) (f : PairSt → PairSt) : (s.modPair n f).devSeq = s.devSeq := rfl
@[simp] theorem State.modPair_inj (s : State) (n : Fin 32) (f : PairSt → PairSt) : (s.modPair n f).inj = s.inj := rfl
@[simp] theorem State.modPair_tripTx (s : State) (n : Fin 32) (f : PairSt → PairSt) : (s.modPair n f).tripTx = s.tripTx := rfl
@[simp] theorem State.modPair_tripin (s : State) (n : Fin 32) (f : PairSt → PairSt) : (s.modPair n f).tripin = s.tripin := rfl
@[simp] theorem State.modPair_core (s : State) (n : Fin 32) (f : PairSt → PairSt) : (s.modPair n f).core = s.core := rfl
@[simp] theorem State.modPair_scrDraws (s : State) (n : Fin 32) (f : PairSt → PairSt) : (s.modPair n f).scrDraws = s.scrDraws := rfl
@[simp] theorem State.modPair_tap (s : State) (n : Fin 32) (f : PairSt → PairSt) : (s.modPair n f).tap = s.tap := rfl
@[simp] theorem State.modPair_locked (s : State) (n : Fin 32) (f : PairSt → PairSt) : (s.modPair n f).locked = s.locked := rfl
@[simp] theorem State.modPair_commit (s : State) (n : Fin 32) (f : PairSt → PairSt) : (s.modPair n f).commit = s.commit := rfl
@[simp] theorem State.modPair_grn (s : State) (n : Fin 32) (f : PairSt → PairSt) : (s.modPair n f).grn = s.grn := rfl
@[simp] theorem State.modPair_memcCfg (s : State) (n : Fin 32) (f : PairSt → PairSt) : (s.modPair n f).memcCfg = s.memcCfg := rfl
@[simp] theorem State.modPair_ao (s : State) (n : Fin 32) (f : PairSt → PairSt) : (s.modPair n f).ao = s.ao := rfl
@[simp] theorem State.modPair_cal (s : State) (n : Fin 32) (f : PairSt → PairSt) : (s.modPair n f).cal = s.cal := rfl
@[simp] theorem State.modPair_lgr (s : State) (n : Fin 32) (f : PairSt → PairSt) : (s.modPair n f).lgr = s.lgr := rfl
@[simp] theorem State.modPair_sec (s : State) (n : Fin 32) (f : PairSt → PairSt) : (s.modPair n f).sec = s.sec := rfl
@[simp] theorem State.modPair_uart (s : State) (n : Fin 32) (f : PairSt → PairSt) : (s.modPair n f).uart = s.uart := rfl
@[simp] theorem State.modPair_tch (s : State) (n : Fin 32) (f : PairSt → PairSt) : (s.modPair n f).tch = s.tch := rfl
@[simp] theorem State.modPair_lcd (s : State) (n : Fin 32) (f : PairSt → PairSt) : (s.modPair n f).lcd = s.lcd := rfl

/-! ### `modChan` -/

@[simp] theorem State.modChan_pending (s : State) (n : Fin 16) (f : ChanSt → ChanSt) : (s.modChan n f).pending = s.pending := rfl
@[simp] theorem State.modChan_now (s : State) (n : Fin 16) (f : ChanSt → ChanSt) : (s.modChan n f).now = s.now := rfl
@[simp] theorem State.modChan_free (s : State) (n : Fin 16) (f : ChanSt → ChanSt) : (s.modChan n f).free = s.free := rfl
@[simp] theorem State.modChan_reg (s : State) (n : Fin 16) (f : ChanSt → ChanSt) : (s.modChan n f).reg = s.reg := rfl
@[simp] theorem State.modChan_flags (s : State) (n : Fin 16) (f : ChanSt → ChanSt) : (s.modChan n f).flags = s.flags := rfl
@[simp] theorem State.modChan_bank (s : State) (n : Fin 16) (f : ChanSt → ChanSt) : (s.modChan n f).bank = s.bank := rfl
@[simp] theorem State.modChan_mem (s : State) (n : Fin 16) (f : ChanSt → ChanSt) : (s.modChan n f).mem = s.mem := rfl
@[simp] theorem State.modChan_upset (s : State) (n : Fin 16) (f : ChanSt → ChanSt) : (s.modChan n f).upset = s.upset := rfl
@[simp] theorem State.modChan_scrub (s : State) (n : Fin 16) (f : ChanSt → ChanSt) : (s.modChan n f).scrub = s.scrub := rfl
@[simp] theorem State.modChan_sdram (s : State) (n : Fin 16) (f : ChanSt → ChanSt) : (s.modChan n f).sdram = s.sdram := rfl
@[simp] theorem State.modChan_tags (s : State) (n : Fin 16) (f : ChanSt → ChanSt) : (s.modChan n f).tags = s.tags := rfl
@[simp] theorem State.modChan_answer (s : State) (n : Fin 16) (f : ChanSt → ChanSt) : (s.modChan n f).answer = s.answer := rfl
@[simp] theorem State.modChan_arrived (s : State) (n : Fin 16) (f : ChanSt → ChanSt) : (s.modChan n f).arrived = s.arrived := rfl
@[simp] theorem State.modChan_aoWait (s : State) (n : Fin 16) (f : ChanSt → ChanSt) : (s.modChan n f).aoWait = s.aoWait := rfl
@[simp] theorem State.modChan_brcFrom (s : State) (n : Fin 16) (f : ChanSt → ChanSt) : (s.modChan n f).brcFrom = s.brcFrom := rfl
@[simp] theorem State.modChan_raised (s : State) (n : Fin 16) (f : ChanSt → ChanSt) : (s.modChan n f).raised = s.raised := rfl
@[simp] theorem State.modChan_evtAt (s : State) (n : Fin 16) (f : ChanSt → ChanSt) : (s.modChan n f).evtAt = s.evtAt := rfl
@[simp] theorem State.modChan_trk (s : State) (n : Fin 16) (f : ChanSt → ChanSt) : (s.modChan n f).trk = s.trk := rfl
@[simp] theorem State.modChan_enc (s : State) (n : Fin 16) (f : ChanSt → ChanSt) : (s.modChan n f).enc = s.enc := rfl
@[simp] theorem State.modChan_alm (s : State) (n : Fin 16) (f : ChanSt → ChanSt) : (s.modChan n f).alm = s.alm := rfl
@[simp] theorem State.modChan_almc (s : State) (n : Fin 16) (f : ChanSt → ChanSt) : (s.modChan n f).almc = s.almc := rfl
@[simp] theorem State.modChan_cv (s : State) (n : Fin 16) (f : ChanSt → ChanSt) : (s.modChan n f).cv = s.cv := rfl
@[simp] theorem State.modChan_ain (s : State) (n : Fin 16) (f : ChanSt → ChanSt) : (s.modChan n f).ain = s.ain := rfl
@[simp] theorem State.modChan_cmp (s : State) (n : Fin 16) (f : ChanSt → ChanSt) : (s.modChan n f).cmp = s.cmp := rfl
@[simp] theorem State.modChan_slc (s : State) (n : Fin 16) (f : ChanSt → ChanSt) : (s.modChan n f).slc = s.slc := rfl
@[simp] theorem State.modChan_dues (s : State) (n : Fin 16) (f : ChanSt → ChanSt) : (s.modChan n f).dues = s.dues := rfl
@[simp] theorem State.modChan_pair (s : State) (n : Fin 16) (f : ChanSt → ChanSt) : (s.modChan n f).pair = s.pair := rfl
@[simp] theorem State.modChan_gen (s : State) (n : Fin 16) (f : ChanSt → ChanSt) : (s.modChan n f).gen = s.gen := rfl
@[simp] theorem State.modChan_lockLow (s : State) (n : Fin 16) (f : ChanSt → ChanSt) : (s.modChan n f).lockLow = s.lockLow := rfl
@[simp] theorem State.modChan_dom (s : State) (n : Fin 16) (f : ChanSt → ChanSt) : (s.modChan n f).dom = s.dom := rfl
@[simp] theorem State.modChan_fastFrom (s : State) (n : Fin 16) (f : ChanSt → ChanSt) : (s.modChan n f).fastFrom = s.fastFrom := rfl
@[simp] theorem State.modChan_linkFree (s : State) (n : Fin 16) (f : ChanSt → ChanSt) : (s.modChan n f).linkFree = s.linkFree := rfl
@[simp] theorem State.modChan_stops (s : State) (n : Fin 16) (f : ChanSt → ChanSt) : (s.modChan n f).stops = s.stops := rfl
@[simp] theorem State.modChan_pll (s : State) (n : Fin 16) (f : ChanSt → ChanSt) : (s.modChan n f).pll = s.pll := rfl
@[simp] theorem State.modChan_brcAt (s : State) (n : Fin 16) (f : ChanSt → ChanSt) : (s.modChan n f).brcAt = s.brcAt := rfl
@[simp] theorem State.modChan_lcs (s : State) (n : Fin 16) (f : ChanSt → ChanSt) : (s.modChan n f).lcs = s.lcs := rfl
@[simp] theorem State.modChan_meter (s : State) (n : Fin 16) (f : ChanSt → ChanSt) : (s.modChan n f).meter = s.meter := rfl
@[simp] theorem State.modChan_port (s : State) (n : Fin 16) (f : ChanSt → ChanSt) : (s.modChan n f).port = s.port := rfl
@[simp] theorem State.modChan_upstream (s : State) (n : Fin 16) (f : ChanSt → ChanSt) : (s.modChan n f).upstream = s.upstream := rfl
@[simp] theorem State.modChan_addr (s : State) (n : Fin 16) (f : ChanSt → ChanSt) : (s.modChan n f).addr = s.addr := rfl
@[simp] theorem State.modChan_mac (s : State) (n : Fin 16) (f : ChanSt → ChanSt) : (s.modChan n f).mac = s.mac := rfl
@[simp] theorem State.modChan_ptpAdj (s : State) (n : Fin 16) (f : ChanSt → ChanSt) : (s.modChan n f).ptpAdj = s.ptpAdj := rfl
@[simp] theorem State.modChan_tx (s : State) (n : Fin 16) (f : ChanSt → ChanSt) : (s.modChan n f).tx = s.tx := rfl
@[simp] theorem State.modChan_sent (s : State) (n : Fin 16) (f : ChanSt → ChanSt) : (s.modChan n f).sent = s.sent := rfl
@[simp] theorem State.modChan_sessions (s : State) (n : Fin 16) (f : ChanSt → ChanSt) : (s.modChan n f).sessions = s.sessions := rfl
@[simp] theorem State.modChan_waiting (s : State) (n : Fin 16) (f : ChanSt → ChanSt) : (s.modChan n f).waiting = s.waiting := rfl
@[simp] theorem State.modChan_replies (s : State) (n : Fin 16) (f : ChanSt → ChanSt) : (s.modChan n f).replies = s.replies := rfl
@[simp] theorem State.modChan_kept (s : State) (n : Fin 16) (f : ChanSt → ChanSt) : (s.modChan n f).kept = s.kept := rfl
@[simp] theorem State.modChan_credits (s : State) (n : Fin 16) (f : ChanSt → ChanSt) : (s.modChan n f).credits = s.credits := rfl
@[simp] theorem State.modChan_nocred (s : State) (n : Fin 16) (f : ChanSt → ChanSt) : (s.modChan n f).nocred = s.nocred := rfl
@[simp] theorem State.modChan_fcode (s : State) (n : Fin 16) (f : ChanSt → ChanSt) : (s.modChan n f).fcode = s.fcode := rfl
@[simp] theorem State.modChan_scratch (s : State) (n : Fin 16) (f : ChanSt → ChanSt) : (s.modChan n f).scratch = s.scratch := rfl
@[simp] theorem State.modChan_epoch (s : State) (n : Fin 16) (f : ChanSt → ChanSt) : (s.modChan n f).epoch = s.epoch := rfl
@[simp] theorem State.modChan_draws (s : State) (n : Fin 16) (f : ChanSt → ChanSt) : (s.modChan n f).draws = s.draws := rfl
@[simp] theorem State.modChan_puts (s : State) (n : Fin 16) (f : ChanSt → ChanSt) : (s.modChan n f).puts = s.puts := rfl
@[simp] theorem State.modChan_prov (s : State) (n : Fin 16) (f : ChanSt → ChanSt) : (s.modChan n f).prov = s.prov := rfl
@[simp] theorem State.modChan_openBy (s : State) (n : Fin 16) (f : ChanSt → ChanSt) : (s.modChan n f).openBy = s.openBy := rfl
@[simp] theorem State.modChan_img (s : State) (n : Fin 16) (f : ChanSt → ChanSt) : (s.modChan n f).img = s.img := rfl
@[simp] theorem State.modChan_restored (s : State) (n : Fin 16) (f : ChanSt → ChanSt) : (s.modChan n f).restored = s.restored := rfl
@[simp] theorem State.modChan_wdog (s : State) (n : Fin 16) (f : ChanSt → ChanSt) : (s.modChan n f).wdog = s.wdog := rfl
@[simp] theorem State.modChan_ptpOff (s : State) (n : Fin 16) (f : ChanSt → ChanSt) : (s.modChan n f).ptpOff = s.ptpOff := rfl
@[simp] theorem State.modChan_ptpGood (s : State) (n : Fin 16) (f : ChanSt → ChanSt) : (s.modChan n f).ptpGood = s.ptpGood := rfl
@[simp] theorem State.modChan_hbs (s : State) (n : Fin 16) (f : ChanSt → ChanSt) : (s.modChan n f).hbs = s.hbs := rfl
@[simp] theorem State.modChan_split (s : State) (n : Fin 16) (f : ChanSt → ChanSt) : (s.modChan n f).split = s.split := rfl
@[simp] theorem State.modChan_tripSeen (s : State) (n : Fin 16) (f : ChanSt → ChanSt) : (s.modChan n f).tripSeen = s.tripSeen := rfl
@[simp] theorem State.modChan_devSeq (s : State) (n : Fin 16) (f : ChanSt → ChanSt) : (s.modChan n f).devSeq = s.devSeq := rfl
@[simp] theorem State.modChan_inj (s : State) (n : Fin 16) (f : ChanSt → ChanSt) : (s.modChan n f).inj = s.inj := rfl
@[simp] theorem State.modChan_tripTx (s : State) (n : Fin 16) (f : ChanSt → ChanSt) : (s.modChan n f).tripTx = s.tripTx := rfl
@[simp] theorem State.modChan_tripin (s : State) (n : Fin 16) (f : ChanSt → ChanSt) : (s.modChan n f).tripin = s.tripin := rfl
@[simp] theorem State.modChan_core (s : State) (n : Fin 16) (f : ChanSt → ChanSt) : (s.modChan n f).core = s.core := rfl
@[simp] theorem State.modChan_scrDraws (s : State) (n : Fin 16) (f : ChanSt → ChanSt) : (s.modChan n f).scrDraws = s.scrDraws := rfl
@[simp] theorem State.modChan_tap (s : State) (n : Fin 16) (f : ChanSt → ChanSt) : (s.modChan n f).tap = s.tap := rfl
@[simp] theorem State.modChan_locked (s : State) (n : Fin 16) (f : ChanSt → ChanSt) : (s.modChan n f).locked = s.locked := rfl
@[simp] theorem State.modChan_commit (s : State) (n : Fin 16) (f : ChanSt → ChanSt) : (s.modChan n f).commit = s.commit := rfl
@[simp] theorem State.modChan_grn (s : State) (n : Fin 16) (f : ChanSt → ChanSt) : (s.modChan n f).grn = s.grn := rfl
@[simp] theorem State.modChan_memcCfg (s : State) (n : Fin 16) (f : ChanSt → ChanSt) : (s.modChan n f).memcCfg = s.memcCfg := rfl
@[simp] theorem State.modChan_ao (s : State) (n : Fin 16) (f : ChanSt → ChanSt) : (s.modChan n f).ao = s.ao := rfl
@[simp] theorem State.modChan_cal (s : State) (n : Fin 16) (f : ChanSt → ChanSt) : (s.modChan n f).cal = s.cal := rfl
@[simp] theorem State.modChan_lgr (s : State) (n : Fin 16) (f : ChanSt → ChanSt) : (s.modChan n f).lgr = s.lgr := rfl
@[simp] theorem State.modChan_sec (s : State) (n : Fin 16) (f : ChanSt → ChanSt) : (s.modChan n f).sec = s.sec := rfl
@[simp] theorem State.modChan_uart (s : State) (n : Fin 16) (f : ChanSt → ChanSt) : (s.modChan n f).uart = s.uart := rfl
@[simp] theorem State.modChan_tch (s : State) (n : Fin 16) (f : ChanSt → ChanSt) : (s.modChan n f).tch = s.tch := rfl
@[simp] theorem State.modChan_lcd (s : State) (n : Fin 16) (f : ChanSt → ChanSt) : (s.modChan n f).lcd = s.lcd := rfl

/-! ### `modDom` -/

@[simp] theorem State.modDom_pending (s : State) (n : Fin 3) (f : DomSt → DomSt) : (s.modDom n f).pending = s.pending := rfl
@[simp] theorem State.modDom_now (s : State) (n : Fin 3) (f : DomSt → DomSt) : (s.modDom n f).now = s.now := rfl
@[simp] theorem State.modDom_free (s : State) (n : Fin 3) (f : DomSt → DomSt) : (s.modDom n f).free = s.free := rfl
@[simp] theorem State.modDom_reg (s : State) (n : Fin 3) (f : DomSt → DomSt) : (s.modDom n f).reg = s.reg := rfl
@[simp] theorem State.modDom_flags (s : State) (n : Fin 3) (f : DomSt → DomSt) : (s.modDom n f).flags = s.flags := rfl
@[simp] theorem State.modDom_bank (s : State) (n : Fin 3) (f : DomSt → DomSt) : (s.modDom n f).bank = s.bank := rfl
@[simp] theorem State.modDom_mem (s : State) (n : Fin 3) (f : DomSt → DomSt) : (s.modDom n f).mem = s.mem := rfl
@[simp] theorem State.modDom_upset (s : State) (n : Fin 3) (f : DomSt → DomSt) : (s.modDom n f).upset = s.upset := rfl
@[simp] theorem State.modDom_scrub (s : State) (n : Fin 3) (f : DomSt → DomSt) : (s.modDom n f).scrub = s.scrub := rfl
@[simp] theorem State.modDom_sdram (s : State) (n : Fin 3) (f : DomSt → DomSt) : (s.modDom n f).sdram = s.sdram := rfl
@[simp] theorem State.modDom_tags (s : State) (n : Fin 3) (f : DomSt → DomSt) : (s.modDom n f).tags = s.tags := rfl
@[simp] theorem State.modDom_answer (s : State) (n : Fin 3) (f : DomSt → DomSt) : (s.modDom n f).answer = s.answer := rfl
@[simp] theorem State.modDom_arrived (s : State) (n : Fin 3) (f : DomSt → DomSt) : (s.modDom n f).arrived = s.arrived := rfl
@[simp] theorem State.modDom_aoWait (s : State) (n : Fin 3) (f : DomSt → DomSt) : (s.modDom n f).aoWait = s.aoWait := rfl
@[simp] theorem State.modDom_brcFrom (s : State) (n : Fin 3) (f : DomSt → DomSt) : (s.modDom n f).brcFrom = s.brcFrom := rfl
@[simp] theorem State.modDom_raised (s : State) (n : Fin 3) (f : DomSt → DomSt) : (s.modDom n f).raised = s.raised := rfl
@[simp] theorem State.modDom_evtAt (s : State) (n : Fin 3) (f : DomSt → DomSt) : (s.modDom n f).evtAt = s.evtAt := rfl
@[simp] theorem State.modDom_trk (s : State) (n : Fin 3) (f : DomSt → DomSt) : (s.modDom n f).trk = s.trk := rfl
@[simp] theorem State.modDom_enc (s : State) (n : Fin 3) (f : DomSt → DomSt) : (s.modDom n f).enc = s.enc := rfl
@[simp] theorem State.modDom_alm (s : State) (n : Fin 3) (f : DomSt → DomSt) : (s.modDom n f).alm = s.alm := rfl
@[simp] theorem State.modDom_almc (s : State) (n : Fin 3) (f : DomSt → DomSt) : (s.modDom n f).almc = s.almc := rfl
@[simp] theorem State.modDom_cv (s : State) (n : Fin 3) (f : DomSt → DomSt) : (s.modDom n f).cv = s.cv := rfl
@[simp] theorem State.modDom_ain (s : State) (n : Fin 3) (f : DomSt → DomSt) : (s.modDom n f).ain = s.ain := rfl
@[simp] theorem State.modDom_cmp (s : State) (n : Fin 3) (f : DomSt → DomSt) : (s.modDom n f).cmp = s.cmp := rfl
@[simp] theorem State.modDom_slc (s : State) (n : Fin 3) (f : DomSt → DomSt) : (s.modDom n f).slc = s.slc := rfl
@[simp] theorem State.modDom_dues (s : State) (n : Fin 3) (f : DomSt → DomSt) : (s.modDom n f).dues = s.dues := rfl
@[simp] theorem State.modDom_pair (s : State) (n : Fin 3) (f : DomSt → DomSt) : (s.modDom n f).pair = s.pair := rfl
@[simp] theorem State.modDom_gen (s : State) (n : Fin 3) (f : DomSt → DomSt) : (s.modDom n f).gen = s.gen := rfl
@[simp] theorem State.modDom_lockLow (s : State) (n : Fin 3) (f : DomSt → DomSt) : (s.modDom n f).lockLow = s.lockLow := rfl
@[simp] theorem State.modDom_chan (s : State) (n : Fin 3) (f : DomSt → DomSt) : (s.modDom n f).chan = s.chan := rfl
@[simp] theorem State.modDom_fastFrom (s : State) (n : Fin 3) (f : DomSt → DomSt) : (s.modDom n f).fastFrom = s.fastFrom := rfl
@[simp] theorem State.modDom_linkFree (s : State) (n : Fin 3) (f : DomSt → DomSt) : (s.modDom n f).linkFree = s.linkFree := rfl
@[simp] theorem State.modDom_stops (s : State) (n : Fin 3) (f : DomSt → DomSt) : (s.modDom n f).stops = s.stops := rfl
@[simp] theorem State.modDom_pll (s : State) (n : Fin 3) (f : DomSt → DomSt) : (s.modDom n f).pll = s.pll := rfl
@[simp] theorem State.modDom_brcAt (s : State) (n : Fin 3) (f : DomSt → DomSt) : (s.modDom n f).brcAt = s.brcAt := rfl
@[simp] theorem State.modDom_lcs (s : State) (n : Fin 3) (f : DomSt → DomSt) : (s.modDom n f).lcs = s.lcs := rfl
@[simp] theorem State.modDom_meter (s : State) (n : Fin 3) (f : DomSt → DomSt) : (s.modDom n f).meter = s.meter := rfl
@[simp] theorem State.modDom_port (s : State) (n : Fin 3) (f : DomSt → DomSt) : (s.modDom n f).port = s.port := rfl
@[simp] theorem State.modDom_upstream (s : State) (n : Fin 3) (f : DomSt → DomSt) : (s.modDom n f).upstream = s.upstream := rfl
@[simp] theorem State.modDom_addr (s : State) (n : Fin 3) (f : DomSt → DomSt) : (s.modDom n f).addr = s.addr := rfl
@[simp] theorem State.modDom_mac (s : State) (n : Fin 3) (f : DomSt → DomSt) : (s.modDom n f).mac = s.mac := rfl
@[simp] theorem State.modDom_ptpAdj (s : State) (n : Fin 3) (f : DomSt → DomSt) : (s.modDom n f).ptpAdj = s.ptpAdj := rfl
@[simp] theorem State.modDom_tx (s : State) (n : Fin 3) (f : DomSt → DomSt) : (s.modDom n f).tx = s.tx := rfl
@[simp] theorem State.modDom_sent (s : State) (n : Fin 3) (f : DomSt → DomSt) : (s.modDom n f).sent = s.sent := rfl
@[simp] theorem State.modDom_sessions (s : State) (n : Fin 3) (f : DomSt → DomSt) : (s.modDom n f).sessions = s.sessions := rfl
@[simp] theorem State.modDom_waiting (s : State) (n : Fin 3) (f : DomSt → DomSt) : (s.modDom n f).waiting = s.waiting := rfl
@[simp] theorem State.modDom_replies (s : State) (n : Fin 3) (f : DomSt → DomSt) : (s.modDom n f).replies = s.replies := rfl
@[simp] theorem State.modDom_kept (s : State) (n : Fin 3) (f : DomSt → DomSt) : (s.modDom n f).kept = s.kept := rfl
@[simp] theorem State.modDom_credits (s : State) (n : Fin 3) (f : DomSt → DomSt) : (s.modDom n f).credits = s.credits := rfl
@[simp] theorem State.modDom_nocred (s : State) (n : Fin 3) (f : DomSt → DomSt) : (s.modDom n f).nocred = s.nocred := rfl
@[simp] theorem State.modDom_fcode (s : State) (n : Fin 3) (f : DomSt → DomSt) : (s.modDom n f).fcode = s.fcode := rfl
@[simp] theorem State.modDom_scratch (s : State) (n : Fin 3) (f : DomSt → DomSt) : (s.modDom n f).scratch = s.scratch := rfl
@[simp] theorem State.modDom_epoch (s : State) (n : Fin 3) (f : DomSt → DomSt) : (s.modDom n f).epoch = s.epoch := rfl
@[simp] theorem State.modDom_draws (s : State) (n : Fin 3) (f : DomSt → DomSt) : (s.modDom n f).draws = s.draws := rfl
@[simp] theorem State.modDom_puts (s : State) (n : Fin 3) (f : DomSt → DomSt) : (s.modDom n f).puts = s.puts := rfl
@[simp] theorem State.modDom_prov (s : State) (n : Fin 3) (f : DomSt → DomSt) : (s.modDom n f).prov = s.prov := rfl
@[simp] theorem State.modDom_openBy (s : State) (n : Fin 3) (f : DomSt → DomSt) : (s.modDom n f).openBy = s.openBy := rfl
@[simp] theorem State.modDom_img (s : State) (n : Fin 3) (f : DomSt → DomSt) : (s.modDom n f).img = s.img := rfl
@[simp] theorem State.modDom_restored (s : State) (n : Fin 3) (f : DomSt → DomSt) : (s.modDom n f).restored = s.restored := rfl
@[simp] theorem State.modDom_wdog (s : State) (n : Fin 3) (f : DomSt → DomSt) : (s.modDom n f).wdog = s.wdog := rfl
@[simp] theorem State.modDom_ptpOff (s : State) (n : Fin 3) (f : DomSt → DomSt) : (s.modDom n f).ptpOff = s.ptpOff := rfl
@[simp] theorem State.modDom_ptpGood (s : State) (n : Fin 3) (f : DomSt → DomSt) : (s.modDom n f).ptpGood = s.ptpGood := rfl
@[simp] theorem State.modDom_hbs (s : State) (n : Fin 3) (f : DomSt → DomSt) : (s.modDom n f).hbs = s.hbs := rfl
@[simp] theorem State.modDom_split (s : State) (n : Fin 3) (f : DomSt → DomSt) : (s.modDom n f).split = s.split := rfl
@[simp] theorem State.modDom_tripSeen (s : State) (n : Fin 3) (f : DomSt → DomSt) : (s.modDom n f).tripSeen = s.tripSeen := rfl
@[simp] theorem State.modDom_devSeq (s : State) (n : Fin 3) (f : DomSt → DomSt) : (s.modDom n f).devSeq = s.devSeq := rfl
@[simp] theorem State.modDom_inj (s : State) (n : Fin 3) (f : DomSt → DomSt) : (s.modDom n f).inj = s.inj := rfl
@[simp] theorem State.modDom_tripTx (s : State) (n : Fin 3) (f : DomSt → DomSt) : (s.modDom n f).tripTx = s.tripTx := rfl
@[simp] theorem State.modDom_tripin (s : State) (n : Fin 3) (f : DomSt → DomSt) : (s.modDom n f).tripin = s.tripin := rfl
@[simp] theorem State.modDom_core (s : State) (n : Fin 3) (f : DomSt → DomSt) : (s.modDom n f).core = s.core := rfl
@[simp] theorem State.modDom_scrDraws (s : State) (n : Fin 3) (f : DomSt → DomSt) : (s.modDom n f).scrDraws = s.scrDraws := rfl
@[simp] theorem State.modDom_tap (s : State) (n : Fin 3) (f : DomSt → DomSt) : (s.modDom n f).tap = s.tap := rfl
@[simp] theorem State.modDom_locked (s : State) (n : Fin 3) (f : DomSt → DomSt) : (s.modDom n f).locked = s.locked := rfl
@[simp] theorem State.modDom_commit (s : State) (n : Fin 3) (f : DomSt → DomSt) : (s.modDom n f).commit = s.commit := rfl
@[simp] theorem State.modDom_grn (s : State) (n : Fin 3) (f : DomSt → DomSt) : (s.modDom n f).grn = s.grn := rfl
@[simp] theorem State.modDom_memcCfg (s : State) (n : Fin 3) (f : DomSt → DomSt) : (s.modDom n f).memcCfg = s.memcCfg := rfl
@[simp] theorem State.modDom_ao (s : State) (n : Fin 3) (f : DomSt → DomSt) : (s.modDom n f).ao = s.ao := rfl
@[simp] theorem State.modDom_cal (s : State) (n : Fin 3) (f : DomSt → DomSt) : (s.modDom n f).cal = s.cal := rfl
@[simp] theorem State.modDom_lgr (s : State) (n : Fin 3) (f : DomSt → DomSt) : (s.modDom n f).lgr = s.lgr := rfl
@[simp] theorem State.modDom_sec (s : State) (n : Fin 3) (f : DomSt → DomSt) : (s.modDom n f).sec = s.sec := rfl
@[simp] theorem State.modDom_uart (s : State) (n : Fin 3) (f : DomSt → DomSt) : (s.modDom n f).uart = s.uart := rfl
@[simp] theorem State.modDom_tch (s : State) (n : Fin 3) (f : DomSt → DomSt) : (s.modDom n f).tch = s.tch := rfl
@[simp] theorem State.modDom_lcd (s : State) (n : Fin 3) (f : DomSt → DomSt) : (s.modDom n f).lcd = s.lcd := rfl

/-! ### `modPort` -/

@[simp] theorem State.modPort_pending (s : State) (n : Fin 2) (f : PortLink → PortLink) : (s.modPort n f).pending = s.pending := rfl
@[simp] theorem State.modPort_now (s : State) (n : Fin 2) (f : PortLink → PortLink) : (s.modPort n f).now = s.now := rfl
@[simp] theorem State.modPort_free (s : State) (n : Fin 2) (f : PortLink → PortLink) : (s.modPort n f).free = s.free := rfl
@[simp] theorem State.modPort_reg (s : State) (n : Fin 2) (f : PortLink → PortLink) : (s.modPort n f).reg = s.reg := rfl
@[simp] theorem State.modPort_flags (s : State) (n : Fin 2) (f : PortLink → PortLink) : (s.modPort n f).flags = s.flags := rfl
@[simp] theorem State.modPort_bank (s : State) (n : Fin 2) (f : PortLink → PortLink) : (s.modPort n f).bank = s.bank := rfl
@[simp] theorem State.modPort_mem (s : State) (n : Fin 2) (f : PortLink → PortLink) : (s.modPort n f).mem = s.mem := rfl
@[simp] theorem State.modPort_upset (s : State) (n : Fin 2) (f : PortLink → PortLink) : (s.modPort n f).upset = s.upset := rfl
@[simp] theorem State.modPort_scrub (s : State) (n : Fin 2) (f : PortLink → PortLink) : (s.modPort n f).scrub = s.scrub := rfl
@[simp] theorem State.modPort_sdram (s : State) (n : Fin 2) (f : PortLink → PortLink) : (s.modPort n f).sdram = s.sdram := rfl
@[simp] theorem State.modPort_tags (s : State) (n : Fin 2) (f : PortLink → PortLink) : (s.modPort n f).tags = s.tags := rfl
@[simp] theorem State.modPort_answer (s : State) (n : Fin 2) (f : PortLink → PortLink) : (s.modPort n f).answer = s.answer := rfl
@[simp] theorem State.modPort_arrived (s : State) (n : Fin 2) (f : PortLink → PortLink) : (s.modPort n f).arrived = s.arrived := rfl
@[simp] theorem State.modPort_aoWait (s : State) (n : Fin 2) (f : PortLink → PortLink) : (s.modPort n f).aoWait = s.aoWait := rfl
@[simp] theorem State.modPort_brcFrom (s : State) (n : Fin 2) (f : PortLink → PortLink) : (s.modPort n f).brcFrom = s.brcFrom := rfl
@[simp] theorem State.modPort_raised (s : State) (n : Fin 2) (f : PortLink → PortLink) : (s.modPort n f).raised = s.raised := rfl
@[simp] theorem State.modPort_evtAt (s : State) (n : Fin 2) (f : PortLink → PortLink) : (s.modPort n f).evtAt = s.evtAt := rfl
@[simp] theorem State.modPort_trk (s : State) (n : Fin 2) (f : PortLink → PortLink) : (s.modPort n f).trk = s.trk := rfl
@[simp] theorem State.modPort_enc (s : State) (n : Fin 2) (f : PortLink → PortLink) : (s.modPort n f).enc = s.enc := rfl
@[simp] theorem State.modPort_alm (s : State) (n : Fin 2) (f : PortLink → PortLink) : (s.modPort n f).alm = s.alm := rfl
@[simp] theorem State.modPort_almc (s : State) (n : Fin 2) (f : PortLink → PortLink) : (s.modPort n f).almc = s.almc := rfl
@[simp] theorem State.modPort_cv (s : State) (n : Fin 2) (f : PortLink → PortLink) : (s.modPort n f).cv = s.cv := rfl
@[simp] theorem State.modPort_ain (s : State) (n : Fin 2) (f : PortLink → PortLink) : (s.modPort n f).ain = s.ain := rfl
@[simp] theorem State.modPort_cmp (s : State) (n : Fin 2) (f : PortLink → PortLink) : (s.modPort n f).cmp = s.cmp := rfl
@[simp] theorem State.modPort_slc (s : State) (n : Fin 2) (f : PortLink → PortLink) : (s.modPort n f).slc = s.slc := rfl
@[simp] theorem State.modPort_dues (s : State) (n : Fin 2) (f : PortLink → PortLink) : (s.modPort n f).dues = s.dues := rfl
@[simp] theorem State.modPort_pair (s : State) (n : Fin 2) (f : PortLink → PortLink) : (s.modPort n f).pair = s.pair := rfl
@[simp] theorem State.modPort_gen (s : State) (n : Fin 2) (f : PortLink → PortLink) : (s.modPort n f).gen = s.gen := rfl
@[simp] theorem State.modPort_lockLow (s : State) (n : Fin 2) (f : PortLink → PortLink) : (s.modPort n f).lockLow = s.lockLow := rfl
@[simp] theorem State.modPort_chan (s : State) (n : Fin 2) (f : PortLink → PortLink) : (s.modPort n f).chan = s.chan := rfl
@[simp] theorem State.modPort_dom (s : State) (n : Fin 2) (f : PortLink → PortLink) : (s.modPort n f).dom = s.dom := rfl
@[simp] theorem State.modPort_fastFrom (s : State) (n : Fin 2) (f : PortLink → PortLink) : (s.modPort n f).fastFrom = s.fastFrom := rfl
@[simp] theorem State.modPort_linkFree (s : State) (n : Fin 2) (f : PortLink → PortLink) : (s.modPort n f).linkFree = s.linkFree := rfl
@[simp] theorem State.modPort_stops (s : State) (n : Fin 2) (f : PortLink → PortLink) : (s.modPort n f).stops = s.stops := rfl
@[simp] theorem State.modPort_pll (s : State) (n : Fin 2) (f : PortLink → PortLink) : (s.modPort n f).pll = s.pll := rfl
@[simp] theorem State.modPort_brcAt (s : State) (n : Fin 2) (f : PortLink → PortLink) : (s.modPort n f).brcAt = s.brcAt := rfl
@[simp] theorem State.modPort_lcs (s : State) (n : Fin 2) (f : PortLink → PortLink) : (s.modPort n f).lcs = s.lcs := rfl
@[simp] theorem State.modPort_meter (s : State) (n : Fin 2) (f : PortLink → PortLink) : (s.modPort n f).meter = s.meter := rfl
@[simp] theorem State.modPort_upstream (s : State) (n : Fin 2) (f : PortLink → PortLink) : (s.modPort n f).upstream = s.upstream := rfl
@[simp] theorem State.modPort_addr (s : State) (n : Fin 2) (f : PortLink → PortLink) : (s.modPort n f).addr = s.addr := rfl
@[simp] theorem State.modPort_mac (s : State) (n : Fin 2) (f : PortLink → PortLink) : (s.modPort n f).mac = s.mac := rfl
@[simp] theorem State.modPort_ptpAdj (s : State) (n : Fin 2) (f : PortLink → PortLink) : (s.modPort n f).ptpAdj = s.ptpAdj := rfl
@[simp] theorem State.modPort_tx (s : State) (n : Fin 2) (f : PortLink → PortLink) : (s.modPort n f).tx = s.tx := rfl
@[simp] theorem State.modPort_sent (s : State) (n : Fin 2) (f : PortLink → PortLink) : (s.modPort n f).sent = s.sent := rfl
@[simp] theorem State.modPort_sessions (s : State) (n : Fin 2) (f : PortLink → PortLink) : (s.modPort n f).sessions = s.sessions := rfl
@[simp] theorem State.modPort_waiting (s : State) (n : Fin 2) (f : PortLink → PortLink) : (s.modPort n f).waiting = s.waiting := rfl
@[simp] theorem State.modPort_replies (s : State) (n : Fin 2) (f : PortLink → PortLink) : (s.modPort n f).replies = s.replies := rfl
@[simp] theorem State.modPort_kept (s : State) (n : Fin 2) (f : PortLink → PortLink) : (s.modPort n f).kept = s.kept := rfl
@[simp] theorem State.modPort_credits (s : State) (n : Fin 2) (f : PortLink → PortLink) : (s.modPort n f).credits = s.credits := rfl
@[simp] theorem State.modPort_nocred (s : State) (n : Fin 2) (f : PortLink → PortLink) : (s.modPort n f).nocred = s.nocred := rfl
@[simp] theorem State.modPort_fcode (s : State) (n : Fin 2) (f : PortLink → PortLink) : (s.modPort n f).fcode = s.fcode := rfl
@[simp] theorem State.modPort_scratch (s : State) (n : Fin 2) (f : PortLink → PortLink) : (s.modPort n f).scratch = s.scratch := rfl
@[simp] theorem State.modPort_epoch (s : State) (n : Fin 2) (f : PortLink → PortLink) : (s.modPort n f).epoch = s.epoch := rfl
@[simp] theorem State.modPort_draws (s : State) (n : Fin 2) (f : PortLink → PortLink) : (s.modPort n f).draws = s.draws := rfl
@[simp] theorem State.modPort_puts (s : State) (n : Fin 2) (f : PortLink → PortLink) : (s.modPort n f).puts = s.puts := rfl
@[simp] theorem State.modPort_prov (s : State) (n : Fin 2) (f : PortLink → PortLink) : (s.modPort n f).prov = s.prov := rfl
@[simp] theorem State.modPort_openBy (s : State) (n : Fin 2) (f : PortLink → PortLink) : (s.modPort n f).openBy = s.openBy := rfl
@[simp] theorem State.modPort_img (s : State) (n : Fin 2) (f : PortLink → PortLink) : (s.modPort n f).img = s.img := rfl
@[simp] theorem State.modPort_restored (s : State) (n : Fin 2) (f : PortLink → PortLink) : (s.modPort n f).restored = s.restored := rfl
@[simp] theorem State.modPort_wdog (s : State) (n : Fin 2) (f : PortLink → PortLink) : (s.modPort n f).wdog = s.wdog := rfl
@[simp] theorem State.modPort_ptpOff (s : State) (n : Fin 2) (f : PortLink → PortLink) : (s.modPort n f).ptpOff = s.ptpOff := rfl
@[simp] theorem State.modPort_ptpGood (s : State) (n : Fin 2) (f : PortLink → PortLink) : (s.modPort n f).ptpGood = s.ptpGood := rfl
@[simp] theorem State.modPort_hbs (s : State) (n : Fin 2) (f : PortLink → PortLink) : (s.modPort n f).hbs = s.hbs := rfl
@[simp] theorem State.modPort_split (s : State) (n : Fin 2) (f : PortLink → PortLink) : (s.modPort n f).split = s.split := rfl
@[simp] theorem State.modPort_tripSeen (s : State) (n : Fin 2) (f : PortLink → PortLink) : (s.modPort n f).tripSeen = s.tripSeen := rfl
@[simp] theorem State.modPort_devSeq (s : State) (n : Fin 2) (f : PortLink → PortLink) : (s.modPort n f).devSeq = s.devSeq := rfl
@[simp] theorem State.modPort_inj (s : State) (n : Fin 2) (f : PortLink → PortLink) : (s.modPort n f).inj = s.inj := rfl
@[simp] theorem State.modPort_tripTx (s : State) (n : Fin 2) (f : PortLink → PortLink) : (s.modPort n f).tripTx = s.tripTx := rfl
@[simp] theorem State.modPort_tripin (s : State) (n : Fin 2) (f : PortLink → PortLink) : (s.modPort n f).tripin = s.tripin := rfl
@[simp] theorem State.modPort_core (s : State) (n : Fin 2) (f : PortLink → PortLink) : (s.modPort n f).core = s.core := rfl
@[simp] theorem State.modPort_scrDraws (s : State) (n : Fin 2) (f : PortLink → PortLink) : (s.modPort n f).scrDraws = s.scrDraws := rfl
@[simp] theorem State.modPort_tap (s : State) (n : Fin 2) (f : PortLink → PortLink) : (s.modPort n f).tap = s.tap := rfl
@[simp] theorem State.modPort_locked (s : State) (n : Fin 2) (f : PortLink → PortLink) : (s.modPort n f).locked = s.locked := rfl
@[simp] theorem State.modPort_commit (s : State) (n : Fin 2) (f : PortLink → PortLink) : (s.modPort n f).commit = s.commit := rfl
@[simp] theorem State.modPort_grn (s : State) (n : Fin 2) (f : PortLink → PortLink) : (s.modPort n f).grn = s.grn := rfl
@[simp] theorem State.modPort_memcCfg (s : State) (n : Fin 2) (f : PortLink → PortLink) : (s.modPort n f).memcCfg = s.memcCfg := rfl
@[simp] theorem State.modPort_ao (s : State) (n : Fin 2) (f : PortLink → PortLink) : (s.modPort n f).ao = s.ao := rfl
@[simp] theorem State.modPort_cal (s : State) (n : Fin 2) (f : PortLink → PortLink) : (s.modPort n f).cal = s.cal := rfl
@[simp] theorem State.modPort_lgr (s : State) (n : Fin 2) (f : PortLink → PortLink) : (s.modPort n f).lgr = s.lgr := rfl
@[simp] theorem State.modPort_sec (s : State) (n : Fin 2) (f : PortLink → PortLink) : (s.modPort n f).sec = s.sec := rfl
@[simp] theorem State.modPort_uart (s : State) (n : Fin 2) (f : PortLink → PortLink) : (s.modPort n f).uart = s.uart := rfl
@[simp] theorem State.modPort_tch (s : State) (n : Fin 2) (f : PortLink → PortLink) : (s.modPort n f).tch = s.tch := rfl
@[simp] theorem State.modPort_lcd (s : State) (n : Fin 2) (f : PortLink → PortLink) : (s.modPort n f).lcd = s.lcd := rfl

/-! ### `modUart` -/

@[simp] theorem State.modUart_pending (s : State) (n : Fin 4) (f : UartSt → UartSt) : (s.modUart n f).pending = s.pending := rfl
@[simp] theorem State.modUart_now (s : State) (n : Fin 4) (f : UartSt → UartSt) : (s.modUart n f).now = s.now := rfl
@[simp] theorem State.modUart_free (s : State) (n : Fin 4) (f : UartSt → UartSt) : (s.modUart n f).free = s.free := rfl
@[simp] theorem State.modUart_reg (s : State) (n : Fin 4) (f : UartSt → UartSt) : (s.modUart n f).reg = s.reg := rfl
@[simp] theorem State.modUart_flags (s : State) (n : Fin 4) (f : UartSt → UartSt) : (s.modUart n f).flags = s.flags := rfl
@[simp] theorem State.modUart_bank (s : State) (n : Fin 4) (f : UartSt → UartSt) : (s.modUart n f).bank = s.bank := rfl
@[simp] theorem State.modUart_mem (s : State) (n : Fin 4) (f : UartSt → UartSt) : (s.modUart n f).mem = s.mem := rfl
@[simp] theorem State.modUart_upset (s : State) (n : Fin 4) (f : UartSt → UartSt) : (s.modUart n f).upset = s.upset := rfl
@[simp] theorem State.modUart_scrub (s : State) (n : Fin 4) (f : UartSt → UartSt) : (s.modUart n f).scrub = s.scrub := rfl
@[simp] theorem State.modUart_sdram (s : State) (n : Fin 4) (f : UartSt → UartSt) : (s.modUart n f).sdram = s.sdram := rfl
@[simp] theorem State.modUart_tags (s : State) (n : Fin 4) (f : UartSt → UartSt) : (s.modUart n f).tags = s.tags := rfl
@[simp] theorem State.modUart_answer (s : State) (n : Fin 4) (f : UartSt → UartSt) : (s.modUart n f).answer = s.answer := rfl
@[simp] theorem State.modUart_arrived (s : State) (n : Fin 4) (f : UartSt → UartSt) : (s.modUart n f).arrived = s.arrived := rfl
@[simp] theorem State.modUart_aoWait (s : State) (n : Fin 4) (f : UartSt → UartSt) : (s.modUart n f).aoWait = s.aoWait := rfl
@[simp] theorem State.modUart_brcFrom (s : State) (n : Fin 4) (f : UartSt → UartSt) : (s.modUart n f).brcFrom = s.brcFrom := rfl
@[simp] theorem State.modUart_raised (s : State) (n : Fin 4) (f : UartSt → UartSt) : (s.modUart n f).raised = s.raised := rfl
@[simp] theorem State.modUart_evtAt (s : State) (n : Fin 4) (f : UartSt → UartSt) : (s.modUart n f).evtAt = s.evtAt := rfl
@[simp] theorem State.modUart_trk (s : State) (n : Fin 4) (f : UartSt → UartSt) : (s.modUart n f).trk = s.trk := rfl
@[simp] theorem State.modUart_enc (s : State) (n : Fin 4) (f : UartSt → UartSt) : (s.modUart n f).enc = s.enc := rfl
@[simp] theorem State.modUart_alm (s : State) (n : Fin 4) (f : UartSt → UartSt) : (s.modUart n f).alm = s.alm := rfl
@[simp] theorem State.modUart_almc (s : State) (n : Fin 4) (f : UartSt → UartSt) : (s.modUart n f).almc = s.almc := rfl
@[simp] theorem State.modUart_cv (s : State) (n : Fin 4) (f : UartSt → UartSt) : (s.modUart n f).cv = s.cv := rfl
@[simp] theorem State.modUart_ain (s : State) (n : Fin 4) (f : UartSt → UartSt) : (s.modUart n f).ain = s.ain := rfl
@[simp] theorem State.modUart_cmp (s : State) (n : Fin 4) (f : UartSt → UartSt) : (s.modUart n f).cmp = s.cmp := rfl
@[simp] theorem State.modUart_slc (s : State) (n : Fin 4) (f : UartSt → UartSt) : (s.modUart n f).slc = s.slc := rfl
@[simp] theorem State.modUart_dues (s : State) (n : Fin 4) (f : UartSt → UartSt) : (s.modUart n f).dues = s.dues := rfl
@[simp] theorem State.modUart_pair (s : State) (n : Fin 4) (f : UartSt → UartSt) : (s.modUart n f).pair = s.pair := rfl
@[simp] theorem State.modUart_gen (s : State) (n : Fin 4) (f : UartSt → UartSt) : (s.modUart n f).gen = s.gen := rfl
@[simp] theorem State.modUart_lockLow (s : State) (n : Fin 4) (f : UartSt → UartSt) : (s.modUart n f).lockLow = s.lockLow := rfl
@[simp] theorem State.modUart_chan (s : State) (n : Fin 4) (f : UartSt → UartSt) : (s.modUart n f).chan = s.chan := rfl
@[simp] theorem State.modUart_dom (s : State) (n : Fin 4) (f : UartSt → UartSt) : (s.modUart n f).dom = s.dom := rfl
@[simp] theorem State.modUart_fastFrom (s : State) (n : Fin 4) (f : UartSt → UartSt) : (s.modUart n f).fastFrom = s.fastFrom := rfl
@[simp] theorem State.modUart_linkFree (s : State) (n : Fin 4) (f : UartSt → UartSt) : (s.modUart n f).linkFree = s.linkFree := rfl
@[simp] theorem State.modUart_stops (s : State) (n : Fin 4) (f : UartSt → UartSt) : (s.modUart n f).stops = s.stops := rfl
@[simp] theorem State.modUart_pll (s : State) (n : Fin 4) (f : UartSt → UartSt) : (s.modUart n f).pll = s.pll := rfl
@[simp] theorem State.modUart_brcAt (s : State) (n : Fin 4) (f : UartSt → UartSt) : (s.modUart n f).brcAt = s.brcAt := rfl
@[simp] theorem State.modUart_lcs (s : State) (n : Fin 4) (f : UartSt → UartSt) : (s.modUart n f).lcs = s.lcs := rfl
@[simp] theorem State.modUart_meter (s : State) (n : Fin 4) (f : UartSt → UartSt) : (s.modUart n f).meter = s.meter := rfl
@[simp] theorem State.modUart_port (s : State) (n : Fin 4) (f : UartSt → UartSt) : (s.modUart n f).port = s.port := rfl
@[simp] theorem State.modUart_upstream (s : State) (n : Fin 4) (f : UartSt → UartSt) : (s.modUart n f).upstream = s.upstream := rfl
@[simp] theorem State.modUart_addr (s : State) (n : Fin 4) (f : UartSt → UartSt) : (s.modUart n f).addr = s.addr := rfl
@[simp] theorem State.modUart_mac (s : State) (n : Fin 4) (f : UartSt → UartSt) : (s.modUart n f).mac = s.mac := rfl
@[simp] theorem State.modUart_ptpAdj (s : State) (n : Fin 4) (f : UartSt → UartSt) : (s.modUart n f).ptpAdj = s.ptpAdj := rfl
@[simp] theorem State.modUart_tx (s : State) (n : Fin 4) (f : UartSt → UartSt) : (s.modUart n f).tx = s.tx := rfl
@[simp] theorem State.modUart_sent (s : State) (n : Fin 4) (f : UartSt → UartSt) : (s.modUart n f).sent = s.sent := rfl
@[simp] theorem State.modUart_sessions (s : State) (n : Fin 4) (f : UartSt → UartSt) : (s.modUart n f).sessions = s.sessions := rfl
@[simp] theorem State.modUart_waiting (s : State) (n : Fin 4) (f : UartSt → UartSt) : (s.modUart n f).waiting = s.waiting := rfl
@[simp] theorem State.modUart_replies (s : State) (n : Fin 4) (f : UartSt → UartSt) : (s.modUart n f).replies = s.replies := rfl
@[simp] theorem State.modUart_kept (s : State) (n : Fin 4) (f : UartSt → UartSt) : (s.modUart n f).kept = s.kept := rfl
@[simp] theorem State.modUart_credits (s : State) (n : Fin 4) (f : UartSt → UartSt) : (s.modUart n f).credits = s.credits := rfl
@[simp] theorem State.modUart_nocred (s : State) (n : Fin 4) (f : UartSt → UartSt) : (s.modUart n f).nocred = s.nocred := rfl
@[simp] theorem State.modUart_fcode (s : State) (n : Fin 4) (f : UartSt → UartSt) : (s.modUart n f).fcode = s.fcode := rfl
@[simp] theorem State.modUart_scratch (s : State) (n : Fin 4) (f : UartSt → UartSt) : (s.modUart n f).scratch = s.scratch := rfl
@[simp] theorem State.modUart_epoch (s : State) (n : Fin 4) (f : UartSt → UartSt) : (s.modUart n f).epoch = s.epoch := rfl
@[simp] theorem State.modUart_draws (s : State) (n : Fin 4) (f : UartSt → UartSt) : (s.modUart n f).draws = s.draws := rfl
@[simp] theorem State.modUart_puts (s : State) (n : Fin 4) (f : UartSt → UartSt) : (s.modUart n f).puts = s.puts := rfl
@[simp] theorem State.modUart_prov (s : State) (n : Fin 4) (f : UartSt → UartSt) : (s.modUart n f).prov = s.prov := rfl
@[simp] theorem State.modUart_openBy (s : State) (n : Fin 4) (f : UartSt → UartSt) : (s.modUart n f).openBy = s.openBy := rfl
@[simp] theorem State.modUart_img (s : State) (n : Fin 4) (f : UartSt → UartSt) : (s.modUart n f).img = s.img := rfl
@[simp] theorem State.modUart_restored (s : State) (n : Fin 4) (f : UartSt → UartSt) : (s.modUart n f).restored = s.restored := rfl
@[simp] theorem State.modUart_wdog (s : State) (n : Fin 4) (f : UartSt → UartSt) : (s.modUart n f).wdog = s.wdog := rfl
@[simp] theorem State.modUart_ptpOff (s : State) (n : Fin 4) (f : UartSt → UartSt) : (s.modUart n f).ptpOff = s.ptpOff := rfl
@[simp] theorem State.modUart_ptpGood (s : State) (n : Fin 4) (f : UartSt → UartSt) : (s.modUart n f).ptpGood = s.ptpGood := rfl
@[simp] theorem State.modUart_hbs (s : State) (n : Fin 4) (f : UartSt → UartSt) : (s.modUart n f).hbs = s.hbs := rfl
@[simp] theorem State.modUart_split (s : State) (n : Fin 4) (f : UartSt → UartSt) : (s.modUart n f).split = s.split := rfl
@[simp] theorem State.modUart_tripSeen (s : State) (n : Fin 4) (f : UartSt → UartSt) : (s.modUart n f).tripSeen = s.tripSeen := rfl
@[simp] theorem State.modUart_devSeq (s : State) (n : Fin 4) (f : UartSt → UartSt) : (s.modUart n f).devSeq = s.devSeq := rfl
@[simp] theorem State.modUart_inj (s : State) (n : Fin 4) (f : UartSt → UartSt) : (s.modUart n f).inj = s.inj := rfl
@[simp] theorem State.modUart_tripTx (s : State) (n : Fin 4) (f : UartSt → UartSt) : (s.modUart n f).tripTx = s.tripTx := rfl
@[simp] theorem State.modUart_tripin (s : State) (n : Fin 4) (f : UartSt → UartSt) : (s.modUart n f).tripin = s.tripin := rfl
@[simp] theorem State.modUart_core (s : State) (n : Fin 4) (f : UartSt → UartSt) : (s.modUart n f).core = s.core := rfl
@[simp] theorem State.modUart_scrDraws (s : State) (n : Fin 4) (f : UartSt → UartSt) : (s.modUart n f).scrDraws = s.scrDraws := rfl
@[simp] theorem State.modUart_tap (s : State) (n : Fin 4) (f : UartSt → UartSt) : (s.modUart n f).tap = s.tap := rfl
@[simp] theorem State.modUart_locked (s : State) (n : Fin 4) (f : UartSt → UartSt) : (s.modUart n f).locked = s.locked := rfl
@[simp] theorem State.modUart_commit (s : State) (n : Fin 4) (f : UartSt → UartSt) : (s.modUart n f).commit = s.commit := rfl
@[simp] theorem State.modUart_grn (s : State) (n : Fin 4) (f : UartSt → UartSt) : (s.modUart n f).grn = s.grn := rfl
@[simp] theorem State.modUart_memcCfg (s : State) (n : Fin 4) (f : UartSt → UartSt) : (s.modUart n f).memcCfg = s.memcCfg := rfl
@[simp] theorem State.modUart_ao (s : State) (n : Fin 4) (f : UartSt → UartSt) : (s.modUart n f).ao = s.ao := rfl
@[simp] theorem State.modUart_cal (s : State) (n : Fin 4) (f : UartSt → UartSt) : (s.modUart n f).cal = s.cal := rfl
@[simp] theorem State.modUart_lgr (s : State) (n : Fin 4) (f : UartSt → UartSt) : (s.modUart n f).lgr = s.lgr := rfl
@[simp] theorem State.modUart_sec (s : State) (n : Fin 4) (f : UartSt → UartSt) : (s.modUart n f).sec = s.sec := rfl
@[simp] theorem State.modUart_tch (s : State) (n : Fin 4) (f : UartSt → UartSt) : (s.modUart n f).tch = s.tch := rfl
@[simp] theorem State.modUart_lcd (s : State) (n : Fin 4) (f : UartSt → UartSt) : (s.modUart n f).lcd = s.lcd := rfl

/-! ### `modLgr` -/

@[simp] theorem State.modLgr_pending (s : State) (f : LgrSt → LgrSt) : (s.modLgr f).pending = s.pending := rfl
@[simp] theorem State.modLgr_now (s : State) (f : LgrSt → LgrSt) : (s.modLgr f).now = s.now := rfl
@[simp] theorem State.modLgr_free (s : State) (f : LgrSt → LgrSt) : (s.modLgr f).free = s.free := rfl
@[simp] theorem State.modLgr_reg (s : State) (f : LgrSt → LgrSt) : (s.modLgr f).reg = s.reg := rfl
@[simp] theorem State.modLgr_flags (s : State) (f : LgrSt → LgrSt) : (s.modLgr f).flags = s.flags := rfl
@[simp] theorem State.modLgr_bank (s : State) (f : LgrSt → LgrSt) : (s.modLgr f).bank = s.bank := rfl
@[simp] theorem State.modLgr_mem (s : State) (f : LgrSt → LgrSt) : (s.modLgr f).mem = s.mem := rfl
@[simp] theorem State.modLgr_upset (s : State) (f : LgrSt → LgrSt) : (s.modLgr f).upset = s.upset := rfl
@[simp] theorem State.modLgr_scrub (s : State) (f : LgrSt → LgrSt) : (s.modLgr f).scrub = s.scrub := rfl
@[simp] theorem State.modLgr_sdram (s : State) (f : LgrSt → LgrSt) : (s.modLgr f).sdram = s.sdram := rfl
@[simp] theorem State.modLgr_tags (s : State) (f : LgrSt → LgrSt) : (s.modLgr f).tags = s.tags := rfl
@[simp] theorem State.modLgr_answer (s : State) (f : LgrSt → LgrSt) : (s.modLgr f).answer = s.answer := rfl
@[simp] theorem State.modLgr_arrived (s : State) (f : LgrSt → LgrSt) : (s.modLgr f).arrived = s.arrived := rfl
@[simp] theorem State.modLgr_aoWait (s : State) (f : LgrSt → LgrSt) : (s.modLgr f).aoWait = s.aoWait := rfl
@[simp] theorem State.modLgr_brcFrom (s : State) (f : LgrSt → LgrSt) : (s.modLgr f).brcFrom = s.brcFrom := rfl
@[simp] theorem State.modLgr_raised (s : State) (f : LgrSt → LgrSt) : (s.modLgr f).raised = s.raised := rfl
@[simp] theorem State.modLgr_evtAt (s : State) (f : LgrSt → LgrSt) : (s.modLgr f).evtAt = s.evtAt := rfl
@[simp] theorem State.modLgr_trk (s : State) (f : LgrSt → LgrSt) : (s.modLgr f).trk = s.trk := rfl
@[simp] theorem State.modLgr_enc (s : State) (f : LgrSt → LgrSt) : (s.modLgr f).enc = s.enc := rfl
@[simp] theorem State.modLgr_alm (s : State) (f : LgrSt → LgrSt) : (s.modLgr f).alm = s.alm := rfl
@[simp] theorem State.modLgr_almc (s : State) (f : LgrSt → LgrSt) : (s.modLgr f).almc = s.almc := rfl
@[simp] theorem State.modLgr_cv (s : State) (f : LgrSt → LgrSt) : (s.modLgr f).cv = s.cv := rfl
@[simp] theorem State.modLgr_ain (s : State) (f : LgrSt → LgrSt) : (s.modLgr f).ain = s.ain := rfl
@[simp] theorem State.modLgr_cmp (s : State) (f : LgrSt → LgrSt) : (s.modLgr f).cmp = s.cmp := rfl
@[simp] theorem State.modLgr_slc (s : State) (f : LgrSt → LgrSt) : (s.modLgr f).slc = s.slc := rfl
@[simp] theorem State.modLgr_dues (s : State) (f : LgrSt → LgrSt) : (s.modLgr f).dues = s.dues := rfl
@[simp] theorem State.modLgr_pair (s : State) (f : LgrSt → LgrSt) : (s.modLgr f).pair = s.pair := rfl
@[simp] theorem State.modLgr_gen (s : State) (f : LgrSt → LgrSt) : (s.modLgr f).gen = s.gen := rfl
@[simp] theorem State.modLgr_lockLow (s : State) (f : LgrSt → LgrSt) : (s.modLgr f).lockLow = s.lockLow := rfl
@[simp] theorem State.modLgr_chan (s : State) (f : LgrSt → LgrSt) : (s.modLgr f).chan = s.chan := rfl
@[simp] theorem State.modLgr_dom (s : State) (f : LgrSt → LgrSt) : (s.modLgr f).dom = s.dom := rfl
@[simp] theorem State.modLgr_fastFrom (s : State) (f : LgrSt → LgrSt) : (s.modLgr f).fastFrom = s.fastFrom := rfl
@[simp] theorem State.modLgr_linkFree (s : State) (f : LgrSt → LgrSt) : (s.modLgr f).linkFree = s.linkFree := rfl
@[simp] theorem State.modLgr_stops (s : State) (f : LgrSt → LgrSt) : (s.modLgr f).stops = s.stops := rfl
@[simp] theorem State.modLgr_pll (s : State) (f : LgrSt → LgrSt) : (s.modLgr f).pll = s.pll := rfl
@[simp] theorem State.modLgr_brcAt (s : State) (f : LgrSt → LgrSt) : (s.modLgr f).brcAt = s.brcAt := rfl
@[simp] theorem State.modLgr_lcs (s : State) (f : LgrSt → LgrSt) : (s.modLgr f).lcs = s.lcs := rfl
@[simp] theorem State.modLgr_meter (s : State) (f : LgrSt → LgrSt) : (s.modLgr f).meter = s.meter := rfl
@[simp] theorem State.modLgr_port (s : State) (f : LgrSt → LgrSt) : (s.modLgr f).port = s.port := rfl
@[simp] theorem State.modLgr_upstream (s : State) (f : LgrSt → LgrSt) : (s.modLgr f).upstream = s.upstream := rfl
@[simp] theorem State.modLgr_addr (s : State) (f : LgrSt → LgrSt) : (s.modLgr f).addr = s.addr := rfl
@[simp] theorem State.modLgr_mac (s : State) (f : LgrSt → LgrSt) : (s.modLgr f).mac = s.mac := rfl
@[simp] theorem State.modLgr_ptpAdj (s : State) (f : LgrSt → LgrSt) : (s.modLgr f).ptpAdj = s.ptpAdj := rfl
@[simp] theorem State.modLgr_tx (s : State) (f : LgrSt → LgrSt) : (s.modLgr f).tx = s.tx := rfl
@[simp] theorem State.modLgr_sent (s : State) (f : LgrSt → LgrSt) : (s.modLgr f).sent = s.sent := rfl
@[simp] theorem State.modLgr_sessions (s : State) (f : LgrSt → LgrSt) : (s.modLgr f).sessions = s.sessions := rfl
@[simp] theorem State.modLgr_waiting (s : State) (f : LgrSt → LgrSt) : (s.modLgr f).waiting = s.waiting := rfl
@[simp] theorem State.modLgr_replies (s : State) (f : LgrSt → LgrSt) : (s.modLgr f).replies = s.replies := rfl
@[simp] theorem State.modLgr_kept (s : State) (f : LgrSt → LgrSt) : (s.modLgr f).kept = s.kept := rfl
@[simp] theorem State.modLgr_credits (s : State) (f : LgrSt → LgrSt) : (s.modLgr f).credits = s.credits := rfl
@[simp] theorem State.modLgr_nocred (s : State) (f : LgrSt → LgrSt) : (s.modLgr f).nocred = s.nocred := rfl
@[simp] theorem State.modLgr_fcode (s : State) (f : LgrSt → LgrSt) : (s.modLgr f).fcode = s.fcode := rfl
@[simp] theorem State.modLgr_scratch (s : State) (f : LgrSt → LgrSt) : (s.modLgr f).scratch = s.scratch := rfl
@[simp] theorem State.modLgr_epoch (s : State) (f : LgrSt → LgrSt) : (s.modLgr f).epoch = s.epoch := rfl
@[simp] theorem State.modLgr_draws (s : State) (f : LgrSt → LgrSt) : (s.modLgr f).draws = s.draws := rfl
@[simp] theorem State.modLgr_puts (s : State) (f : LgrSt → LgrSt) : (s.modLgr f).puts = s.puts := rfl
@[simp] theorem State.modLgr_prov (s : State) (f : LgrSt → LgrSt) : (s.modLgr f).prov = s.prov := rfl
@[simp] theorem State.modLgr_openBy (s : State) (f : LgrSt → LgrSt) : (s.modLgr f).openBy = s.openBy := rfl
@[simp] theorem State.modLgr_img (s : State) (f : LgrSt → LgrSt) : (s.modLgr f).img = s.img := rfl
@[simp] theorem State.modLgr_restored (s : State) (f : LgrSt → LgrSt) : (s.modLgr f).restored = s.restored := rfl
@[simp] theorem State.modLgr_wdog (s : State) (f : LgrSt → LgrSt) : (s.modLgr f).wdog = s.wdog := rfl
@[simp] theorem State.modLgr_ptpOff (s : State) (f : LgrSt → LgrSt) : (s.modLgr f).ptpOff = s.ptpOff := rfl
@[simp] theorem State.modLgr_ptpGood (s : State) (f : LgrSt → LgrSt) : (s.modLgr f).ptpGood = s.ptpGood := rfl
@[simp] theorem State.modLgr_hbs (s : State) (f : LgrSt → LgrSt) : (s.modLgr f).hbs = s.hbs := rfl
@[simp] theorem State.modLgr_split (s : State) (f : LgrSt → LgrSt) : (s.modLgr f).split = s.split := rfl
@[simp] theorem State.modLgr_tripSeen (s : State) (f : LgrSt → LgrSt) : (s.modLgr f).tripSeen = s.tripSeen := rfl
@[simp] theorem State.modLgr_devSeq (s : State) (f : LgrSt → LgrSt) : (s.modLgr f).devSeq = s.devSeq := rfl
@[simp] theorem State.modLgr_inj (s : State) (f : LgrSt → LgrSt) : (s.modLgr f).inj = s.inj := rfl
@[simp] theorem State.modLgr_tripTx (s : State) (f : LgrSt → LgrSt) : (s.modLgr f).tripTx = s.tripTx := rfl
@[simp] theorem State.modLgr_tripin (s : State) (f : LgrSt → LgrSt) : (s.modLgr f).tripin = s.tripin := rfl
@[simp] theorem State.modLgr_core (s : State) (f : LgrSt → LgrSt) : (s.modLgr f).core = s.core := rfl
@[simp] theorem State.modLgr_scrDraws (s : State) (f : LgrSt → LgrSt) : (s.modLgr f).scrDraws = s.scrDraws := rfl
@[simp] theorem State.modLgr_tap (s : State) (f : LgrSt → LgrSt) : (s.modLgr f).tap = s.tap := rfl
@[simp] theorem State.modLgr_locked (s : State) (f : LgrSt → LgrSt) : (s.modLgr f).locked = s.locked := rfl
@[simp] theorem State.modLgr_commit (s : State) (f : LgrSt → LgrSt) : (s.modLgr f).commit = s.commit := rfl
@[simp] theorem State.modLgr_grn (s : State) (f : LgrSt → LgrSt) : (s.modLgr f).grn = s.grn := rfl
@[simp] theorem State.modLgr_memcCfg (s : State) (f : LgrSt → LgrSt) : (s.modLgr f).memcCfg = s.memcCfg := rfl
@[simp] theorem State.modLgr_ao (s : State) (f : LgrSt → LgrSt) : (s.modLgr f).ao = s.ao := rfl
@[simp] theorem State.modLgr_cal (s : State) (f : LgrSt → LgrSt) : (s.modLgr f).cal = s.cal := rfl
@[simp] theorem State.modLgr_sec (s : State) (f : LgrSt → LgrSt) : (s.modLgr f).sec = s.sec := rfl
@[simp] theorem State.modLgr_uart (s : State) (f : LgrSt → LgrSt) : (s.modLgr f).uart = s.uart := rfl
@[simp] theorem State.modLgr_tch (s : State) (f : LgrSt → LgrSt) : (s.modLgr f).tch = s.tch := rfl
@[simp] theorem State.modLgr_lcd (s : State) (f : LgrSt → LgrSt) : (s.modLgr f).lcd = s.lcd := rfl

/-! ### `modCal` -/

@[simp] theorem State.modCal_pending (s : State) (f : CalSt → CalSt) : (s.modCal f).pending = s.pending := rfl
@[simp] theorem State.modCal_now (s : State) (f : CalSt → CalSt) : (s.modCal f).now = s.now := rfl
@[simp] theorem State.modCal_free (s : State) (f : CalSt → CalSt) : (s.modCal f).free = s.free := rfl
@[simp] theorem State.modCal_reg (s : State) (f : CalSt → CalSt) : (s.modCal f).reg = s.reg := rfl
@[simp] theorem State.modCal_flags (s : State) (f : CalSt → CalSt) : (s.modCal f).flags = s.flags := rfl
@[simp] theorem State.modCal_bank (s : State) (f : CalSt → CalSt) : (s.modCal f).bank = s.bank := rfl
@[simp] theorem State.modCal_mem (s : State) (f : CalSt → CalSt) : (s.modCal f).mem = s.mem := rfl
@[simp] theorem State.modCal_upset (s : State) (f : CalSt → CalSt) : (s.modCal f).upset = s.upset := rfl
@[simp] theorem State.modCal_scrub (s : State) (f : CalSt → CalSt) : (s.modCal f).scrub = s.scrub := rfl
@[simp] theorem State.modCal_sdram (s : State) (f : CalSt → CalSt) : (s.modCal f).sdram = s.sdram := rfl
@[simp] theorem State.modCal_tags (s : State) (f : CalSt → CalSt) : (s.modCal f).tags = s.tags := rfl
@[simp] theorem State.modCal_answer (s : State) (f : CalSt → CalSt) : (s.modCal f).answer = s.answer := rfl
@[simp] theorem State.modCal_arrived (s : State) (f : CalSt → CalSt) : (s.modCal f).arrived = s.arrived := rfl
@[simp] theorem State.modCal_aoWait (s : State) (f : CalSt → CalSt) : (s.modCal f).aoWait = s.aoWait := rfl
@[simp] theorem State.modCal_brcFrom (s : State) (f : CalSt → CalSt) : (s.modCal f).brcFrom = s.brcFrom := rfl
@[simp] theorem State.modCal_raised (s : State) (f : CalSt → CalSt) : (s.modCal f).raised = s.raised := rfl
@[simp] theorem State.modCal_evtAt (s : State) (f : CalSt → CalSt) : (s.modCal f).evtAt = s.evtAt := rfl
@[simp] theorem State.modCal_trk (s : State) (f : CalSt → CalSt) : (s.modCal f).trk = s.trk := rfl
@[simp] theorem State.modCal_enc (s : State) (f : CalSt → CalSt) : (s.modCal f).enc = s.enc := rfl
@[simp] theorem State.modCal_alm (s : State) (f : CalSt → CalSt) : (s.modCal f).alm = s.alm := rfl
@[simp] theorem State.modCal_almc (s : State) (f : CalSt → CalSt) : (s.modCal f).almc = s.almc := rfl
@[simp] theorem State.modCal_cv (s : State) (f : CalSt → CalSt) : (s.modCal f).cv = s.cv := rfl
@[simp] theorem State.modCal_ain (s : State) (f : CalSt → CalSt) : (s.modCal f).ain = s.ain := rfl
@[simp] theorem State.modCal_cmp (s : State) (f : CalSt → CalSt) : (s.modCal f).cmp = s.cmp := rfl
@[simp] theorem State.modCal_slc (s : State) (f : CalSt → CalSt) : (s.modCal f).slc = s.slc := rfl
@[simp] theorem State.modCal_dues (s : State) (f : CalSt → CalSt) : (s.modCal f).dues = s.dues := rfl
@[simp] theorem State.modCal_pair (s : State) (f : CalSt → CalSt) : (s.modCal f).pair = s.pair := rfl
@[simp] theorem State.modCal_gen (s : State) (f : CalSt → CalSt) : (s.modCal f).gen = s.gen := rfl
@[simp] theorem State.modCal_lockLow (s : State) (f : CalSt → CalSt) : (s.modCal f).lockLow = s.lockLow := rfl
@[simp] theorem State.modCal_chan (s : State) (f : CalSt → CalSt) : (s.modCal f).chan = s.chan := rfl
@[simp] theorem State.modCal_dom (s : State) (f : CalSt → CalSt) : (s.modCal f).dom = s.dom := rfl
@[simp] theorem State.modCal_fastFrom (s : State) (f : CalSt → CalSt) : (s.modCal f).fastFrom = s.fastFrom := rfl
@[simp] theorem State.modCal_linkFree (s : State) (f : CalSt → CalSt) : (s.modCal f).linkFree = s.linkFree := rfl
@[simp] theorem State.modCal_stops (s : State) (f : CalSt → CalSt) : (s.modCal f).stops = s.stops := rfl
@[simp] theorem State.modCal_pll (s : State) (f : CalSt → CalSt) : (s.modCal f).pll = s.pll := rfl
@[simp] theorem State.modCal_brcAt (s : State) (f : CalSt → CalSt) : (s.modCal f).brcAt = s.brcAt := rfl
@[simp] theorem State.modCal_lcs (s : State) (f : CalSt → CalSt) : (s.modCal f).lcs = s.lcs := rfl
@[simp] theorem State.modCal_meter (s : State) (f : CalSt → CalSt) : (s.modCal f).meter = s.meter := rfl
@[simp] theorem State.modCal_port (s : State) (f : CalSt → CalSt) : (s.modCal f).port = s.port := rfl
@[simp] theorem State.modCal_upstream (s : State) (f : CalSt → CalSt) : (s.modCal f).upstream = s.upstream := rfl
@[simp] theorem State.modCal_addr (s : State) (f : CalSt → CalSt) : (s.modCal f).addr = s.addr := rfl
@[simp] theorem State.modCal_mac (s : State) (f : CalSt → CalSt) : (s.modCal f).mac = s.mac := rfl
@[simp] theorem State.modCal_ptpAdj (s : State) (f : CalSt → CalSt) : (s.modCal f).ptpAdj = s.ptpAdj := rfl
@[simp] theorem State.modCal_tx (s : State) (f : CalSt → CalSt) : (s.modCal f).tx = s.tx := rfl
@[simp] theorem State.modCal_sent (s : State) (f : CalSt → CalSt) : (s.modCal f).sent = s.sent := rfl
@[simp] theorem State.modCal_sessions (s : State) (f : CalSt → CalSt) : (s.modCal f).sessions = s.sessions := rfl
@[simp] theorem State.modCal_waiting (s : State) (f : CalSt → CalSt) : (s.modCal f).waiting = s.waiting := rfl
@[simp] theorem State.modCal_replies (s : State) (f : CalSt → CalSt) : (s.modCal f).replies = s.replies := rfl
@[simp] theorem State.modCal_kept (s : State) (f : CalSt → CalSt) : (s.modCal f).kept = s.kept := rfl
@[simp] theorem State.modCal_credits (s : State) (f : CalSt → CalSt) : (s.modCal f).credits = s.credits := rfl
@[simp] theorem State.modCal_nocred (s : State) (f : CalSt → CalSt) : (s.modCal f).nocred = s.nocred := rfl
@[simp] theorem State.modCal_fcode (s : State) (f : CalSt → CalSt) : (s.modCal f).fcode = s.fcode := rfl
@[simp] theorem State.modCal_scratch (s : State) (f : CalSt → CalSt) : (s.modCal f).scratch = s.scratch := rfl
@[simp] theorem State.modCal_epoch (s : State) (f : CalSt → CalSt) : (s.modCal f).epoch = s.epoch := rfl
@[simp] theorem State.modCal_draws (s : State) (f : CalSt → CalSt) : (s.modCal f).draws = s.draws := rfl
@[simp] theorem State.modCal_puts (s : State) (f : CalSt → CalSt) : (s.modCal f).puts = s.puts := rfl
@[simp] theorem State.modCal_prov (s : State) (f : CalSt → CalSt) : (s.modCal f).prov = s.prov := rfl
@[simp] theorem State.modCal_openBy (s : State) (f : CalSt → CalSt) : (s.modCal f).openBy = s.openBy := rfl
@[simp] theorem State.modCal_img (s : State) (f : CalSt → CalSt) : (s.modCal f).img = s.img := rfl
@[simp] theorem State.modCal_restored (s : State) (f : CalSt → CalSt) : (s.modCal f).restored = s.restored := rfl
@[simp] theorem State.modCal_wdog (s : State) (f : CalSt → CalSt) : (s.modCal f).wdog = s.wdog := rfl
@[simp] theorem State.modCal_ptpOff (s : State) (f : CalSt → CalSt) : (s.modCal f).ptpOff = s.ptpOff := rfl
@[simp] theorem State.modCal_ptpGood (s : State) (f : CalSt → CalSt) : (s.modCal f).ptpGood = s.ptpGood := rfl
@[simp] theorem State.modCal_hbs (s : State) (f : CalSt → CalSt) : (s.modCal f).hbs = s.hbs := rfl
@[simp] theorem State.modCal_split (s : State) (f : CalSt → CalSt) : (s.modCal f).split = s.split := rfl
@[simp] theorem State.modCal_tripSeen (s : State) (f : CalSt → CalSt) : (s.modCal f).tripSeen = s.tripSeen := rfl
@[simp] theorem State.modCal_devSeq (s : State) (f : CalSt → CalSt) : (s.modCal f).devSeq = s.devSeq := rfl
@[simp] theorem State.modCal_inj (s : State) (f : CalSt → CalSt) : (s.modCal f).inj = s.inj := rfl
@[simp] theorem State.modCal_tripTx (s : State) (f : CalSt → CalSt) : (s.modCal f).tripTx = s.tripTx := rfl
@[simp] theorem State.modCal_tripin (s : State) (f : CalSt → CalSt) : (s.modCal f).tripin = s.tripin := rfl
@[simp] theorem State.modCal_core (s : State) (f : CalSt → CalSt) : (s.modCal f).core = s.core := rfl
@[simp] theorem State.modCal_scrDraws (s : State) (f : CalSt → CalSt) : (s.modCal f).scrDraws = s.scrDraws := rfl
@[simp] theorem State.modCal_tap (s : State) (f : CalSt → CalSt) : (s.modCal f).tap = s.tap := rfl
@[simp] theorem State.modCal_locked (s : State) (f : CalSt → CalSt) : (s.modCal f).locked = s.locked := rfl
@[simp] theorem State.modCal_commit (s : State) (f : CalSt → CalSt) : (s.modCal f).commit = s.commit := rfl
@[simp] theorem State.modCal_grn (s : State) (f : CalSt → CalSt) : (s.modCal f).grn = s.grn := rfl
@[simp] theorem State.modCal_memcCfg (s : State) (f : CalSt → CalSt) : (s.modCal f).memcCfg = s.memcCfg := rfl
@[simp] theorem State.modCal_ao (s : State) (f : CalSt → CalSt) : (s.modCal f).ao = s.ao := rfl
@[simp] theorem State.modCal_lgr (s : State) (f : CalSt → CalSt) : (s.modCal f).lgr = s.lgr := rfl
@[simp] theorem State.modCal_sec (s : State) (f : CalSt → CalSt) : (s.modCal f).sec = s.sec := rfl
@[simp] theorem State.modCal_uart (s : State) (f : CalSt → CalSt) : (s.modCal f).uart = s.uart := rfl
@[simp] theorem State.modCal_tch (s : State) (f : CalSt → CalSt) : (s.modCal f).tch = s.tch := rfl
@[simp] theorem State.modCal_lcd (s : State) (f : CalSt → CalSt) : (s.modCal f).lcd = s.lcd := rfl

/-! ### `modLcd` -/

@[simp] theorem State.modLcd_pending (s : State) (f : LcdSt → LcdSt) : (s.modLcd f).pending = s.pending := rfl
@[simp] theorem State.modLcd_now (s : State) (f : LcdSt → LcdSt) : (s.modLcd f).now = s.now := rfl
@[simp] theorem State.modLcd_free (s : State) (f : LcdSt → LcdSt) : (s.modLcd f).free = s.free := rfl
@[simp] theorem State.modLcd_reg (s : State) (f : LcdSt → LcdSt) : (s.modLcd f).reg = s.reg := rfl
@[simp] theorem State.modLcd_flags (s : State) (f : LcdSt → LcdSt) : (s.modLcd f).flags = s.flags := rfl
@[simp] theorem State.modLcd_bank (s : State) (f : LcdSt → LcdSt) : (s.modLcd f).bank = s.bank := rfl
@[simp] theorem State.modLcd_mem (s : State) (f : LcdSt → LcdSt) : (s.modLcd f).mem = s.mem := rfl
@[simp] theorem State.modLcd_upset (s : State) (f : LcdSt → LcdSt) : (s.modLcd f).upset = s.upset := rfl
@[simp] theorem State.modLcd_scrub (s : State) (f : LcdSt → LcdSt) : (s.modLcd f).scrub = s.scrub := rfl
@[simp] theorem State.modLcd_sdram (s : State) (f : LcdSt → LcdSt) : (s.modLcd f).sdram = s.sdram := rfl
@[simp] theorem State.modLcd_tags (s : State) (f : LcdSt → LcdSt) : (s.modLcd f).tags = s.tags := rfl
@[simp] theorem State.modLcd_answer (s : State) (f : LcdSt → LcdSt) : (s.modLcd f).answer = s.answer := rfl
@[simp] theorem State.modLcd_arrived (s : State) (f : LcdSt → LcdSt) : (s.modLcd f).arrived = s.arrived := rfl
@[simp] theorem State.modLcd_aoWait (s : State) (f : LcdSt → LcdSt) : (s.modLcd f).aoWait = s.aoWait := rfl
@[simp] theorem State.modLcd_brcFrom (s : State) (f : LcdSt → LcdSt) : (s.modLcd f).brcFrom = s.brcFrom := rfl
@[simp] theorem State.modLcd_raised (s : State) (f : LcdSt → LcdSt) : (s.modLcd f).raised = s.raised := rfl
@[simp] theorem State.modLcd_evtAt (s : State) (f : LcdSt → LcdSt) : (s.modLcd f).evtAt = s.evtAt := rfl
@[simp] theorem State.modLcd_trk (s : State) (f : LcdSt → LcdSt) : (s.modLcd f).trk = s.trk := rfl
@[simp] theorem State.modLcd_enc (s : State) (f : LcdSt → LcdSt) : (s.modLcd f).enc = s.enc := rfl
@[simp] theorem State.modLcd_alm (s : State) (f : LcdSt → LcdSt) : (s.modLcd f).alm = s.alm := rfl
@[simp] theorem State.modLcd_almc (s : State) (f : LcdSt → LcdSt) : (s.modLcd f).almc = s.almc := rfl
@[simp] theorem State.modLcd_cv (s : State) (f : LcdSt → LcdSt) : (s.modLcd f).cv = s.cv := rfl
@[simp] theorem State.modLcd_ain (s : State) (f : LcdSt → LcdSt) : (s.modLcd f).ain = s.ain := rfl
@[simp] theorem State.modLcd_cmp (s : State) (f : LcdSt → LcdSt) : (s.modLcd f).cmp = s.cmp := rfl
@[simp] theorem State.modLcd_slc (s : State) (f : LcdSt → LcdSt) : (s.modLcd f).slc = s.slc := rfl
@[simp] theorem State.modLcd_dues (s : State) (f : LcdSt → LcdSt) : (s.modLcd f).dues = s.dues := rfl
@[simp] theorem State.modLcd_pair (s : State) (f : LcdSt → LcdSt) : (s.modLcd f).pair = s.pair := rfl
@[simp] theorem State.modLcd_gen (s : State) (f : LcdSt → LcdSt) : (s.modLcd f).gen = s.gen := rfl
@[simp] theorem State.modLcd_lockLow (s : State) (f : LcdSt → LcdSt) : (s.modLcd f).lockLow = s.lockLow := rfl
@[simp] theorem State.modLcd_chan (s : State) (f : LcdSt → LcdSt) : (s.modLcd f).chan = s.chan := rfl
@[simp] theorem State.modLcd_dom (s : State) (f : LcdSt → LcdSt) : (s.modLcd f).dom = s.dom := rfl
@[simp] theorem State.modLcd_fastFrom (s : State) (f : LcdSt → LcdSt) : (s.modLcd f).fastFrom = s.fastFrom := rfl
@[simp] theorem State.modLcd_linkFree (s : State) (f : LcdSt → LcdSt) : (s.modLcd f).linkFree = s.linkFree := rfl
@[simp] theorem State.modLcd_stops (s : State) (f : LcdSt → LcdSt) : (s.modLcd f).stops = s.stops := rfl
@[simp] theorem State.modLcd_pll (s : State) (f : LcdSt → LcdSt) : (s.modLcd f).pll = s.pll := rfl
@[simp] theorem State.modLcd_brcAt (s : State) (f : LcdSt → LcdSt) : (s.modLcd f).brcAt = s.brcAt := rfl
@[simp] theorem State.modLcd_lcs (s : State) (f : LcdSt → LcdSt) : (s.modLcd f).lcs = s.lcs := rfl
@[simp] theorem State.modLcd_meter (s : State) (f : LcdSt → LcdSt) : (s.modLcd f).meter = s.meter := rfl
@[simp] theorem State.modLcd_port (s : State) (f : LcdSt → LcdSt) : (s.modLcd f).port = s.port := rfl
@[simp] theorem State.modLcd_upstream (s : State) (f : LcdSt → LcdSt) : (s.modLcd f).upstream = s.upstream := rfl
@[simp] theorem State.modLcd_addr (s : State) (f : LcdSt → LcdSt) : (s.modLcd f).addr = s.addr := rfl
@[simp] theorem State.modLcd_mac (s : State) (f : LcdSt → LcdSt) : (s.modLcd f).mac = s.mac := rfl
@[simp] theorem State.modLcd_ptpAdj (s : State) (f : LcdSt → LcdSt) : (s.modLcd f).ptpAdj = s.ptpAdj := rfl
@[simp] theorem State.modLcd_tx (s : State) (f : LcdSt → LcdSt) : (s.modLcd f).tx = s.tx := rfl
@[simp] theorem State.modLcd_sent (s : State) (f : LcdSt → LcdSt) : (s.modLcd f).sent = s.sent := rfl
@[simp] theorem State.modLcd_sessions (s : State) (f : LcdSt → LcdSt) : (s.modLcd f).sessions = s.sessions := rfl
@[simp] theorem State.modLcd_waiting (s : State) (f : LcdSt → LcdSt) : (s.modLcd f).waiting = s.waiting := rfl
@[simp] theorem State.modLcd_replies (s : State) (f : LcdSt → LcdSt) : (s.modLcd f).replies = s.replies := rfl
@[simp] theorem State.modLcd_kept (s : State) (f : LcdSt → LcdSt) : (s.modLcd f).kept = s.kept := rfl
@[simp] theorem State.modLcd_credits (s : State) (f : LcdSt → LcdSt) : (s.modLcd f).credits = s.credits := rfl
@[simp] theorem State.modLcd_nocred (s : State) (f : LcdSt → LcdSt) : (s.modLcd f).nocred = s.nocred := rfl
@[simp] theorem State.modLcd_fcode (s : State) (f : LcdSt → LcdSt) : (s.modLcd f).fcode = s.fcode := rfl
@[simp] theorem State.modLcd_scratch (s : State) (f : LcdSt → LcdSt) : (s.modLcd f).scratch = s.scratch := rfl
@[simp] theorem State.modLcd_epoch (s : State) (f : LcdSt → LcdSt) : (s.modLcd f).epoch = s.epoch := rfl
@[simp] theorem State.modLcd_draws (s : State) (f : LcdSt → LcdSt) : (s.modLcd f).draws = s.draws := rfl
@[simp] theorem State.modLcd_puts (s : State) (f : LcdSt → LcdSt) : (s.modLcd f).puts = s.puts := rfl
@[simp] theorem State.modLcd_prov (s : State) (f : LcdSt → LcdSt) : (s.modLcd f).prov = s.prov := rfl
@[simp] theorem State.modLcd_openBy (s : State) (f : LcdSt → LcdSt) : (s.modLcd f).openBy = s.openBy := rfl
@[simp] theorem State.modLcd_img (s : State) (f : LcdSt → LcdSt) : (s.modLcd f).img = s.img := rfl
@[simp] theorem State.modLcd_restored (s : State) (f : LcdSt → LcdSt) : (s.modLcd f).restored = s.restored := rfl
@[simp] theorem State.modLcd_wdog (s : State) (f : LcdSt → LcdSt) : (s.modLcd f).wdog = s.wdog := rfl
@[simp] theorem State.modLcd_ptpOff (s : State) (f : LcdSt → LcdSt) : (s.modLcd f).ptpOff = s.ptpOff := rfl
@[simp] theorem State.modLcd_ptpGood (s : State) (f : LcdSt → LcdSt) : (s.modLcd f).ptpGood = s.ptpGood := rfl
@[simp] theorem State.modLcd_hbs (s : State) (f : LcdSt → LcdSt) : (s.modLcd f).hbs = s.hbs := rfl
@[simp] theorem State.modLcd_split (s : State) (f : LcdSt → LcdSt) : (s.modLcd f).split = s.split := rfl
@[simp] theorem State.modLcd_tripSeen (s : State) (f : LcdSt → LcdSt) : (s.modLcd f).tripSeen = s.tripSeen := rfl
@[simp] theorem State.modLcd_devSeq (s : State) (f : LcdSt → LcdSt) : (s.modLcd f).devSeq = s.devSeq := rfl
@[simp] theorem State.modLcd_inj (s : State) (f : LcdSt → LcdSt) : (s.modLcd f).inj = s.inj := rfl
@[simp] theorem State.modLcd_tripTx (s : State) (f : LcdSt → LcdSt) : (s.modLcd f).tripTx = s.tripTx := rfl
@[simp] theorem State.modLcd_tripin (s : State) (f : LcdSt → LcdSt) : (s.modLcd f).tripin = s.tripin := rfl
@[simp] theorem State.modLcd_core (s : State) (f : LcdSt → LcdSt) : (s.modLcd f).core = s.core := rfl
@[simp] theorem State.modLcd_scrDraws (s : State) (f : LcdSt → LcdSt) : (s.modLcd f).scrDraws = s.scrDraws := rfl
@[simp] theorem State.modLcd_tap (s : State) (f : LcdSt → LcdSt) : (s.modLcd f).tap = s.tap := rfl
@[simp] theorem State.modLcd_locked (s : State) (f : LcdSt → LcdSt) : (s.modLcd f).locked = s.locked := rfl
@[simp] theorem State.modLcd_commit (s : State) (f : LcdSt → LcdSt) : (s.modLcd f).commit = s.commit := rfl
@[simp] theorem State.modLcd_grn (s : State) (f : LcdSt → LcdSt) : (s.modLcd f).grn = s.grn := rfl
@[simp] theorem State.modLcd_memcCfg (s : State) (f : LcdSt → LcdSt) : (s.modLcd f).memcCfg = s.memcCfg := rfl
@[simp] theorem State.modLcd_ao (s : State) (f : LcdSt → LcdSt) : (s.modLcd f).ao = s.ao := rfl
@[simp] theorem State.modLcd_cal (s : State) (f : LcdSt → LcdSt) : (s.modLcd f).cal = s.cal := rfl
@[simp] theorem State.modLcd_lgr (s : State) (f : LcdSt → LcdSt) : (s.modLcd f).lgr = s.lgr := rfl
@[simp] theorem State.modLcd_sec (s : State) (f : LcdSt → LcdSt) : (s.modLcd f).sec = s.sec := rfl
@[simp] theorem State.modLcd_uart (s : State) (f : LcdSt → LcdSt) : (s.modLcd f).uart = s.uart := rfl
@[simp] theorem State.modLcd_tch (s : State) (f : LcdSt → LcdSt) : (s.modLcd f).tch = s.tch := rfl

/-! ### `modTch` -/

@[simp] theorem State.modTch_pending (s : State) (f : TouchSt → TouchSt) : (s.modTch f).pending = s.pending := rfl
@[simp] theorem State.modTch_now (s : State) (f : TouchSt → TouchSt) : (s.modTch f).now = s.now := rfl
@[simp] theorem State.modTch_free (s : State) (f : TouchSt → TouchSt) : (s.modTch f).free = s.free := rfl
@[simp] theorem State.modTch_reg (s : State) (f : TouchSt → TouchSt) : (s.modTch f).reg = s.reg := rfl
@[simp] theorem State.modTch_flags (s : State) (f : TouchSt → TouchSt) : (s.modTch f).flags = s.flags := rfl
@[simp] theorem State.modTch_bank (s : State) (f : TouchSt → TouchSt) : (s.modTch f).bank = s.bank := rfl
@[simp] theorem State.modTch_mem (s : State) (f : TouchSt → TouchSt) : (s.modTch f).mem = s.mem := rfl
@[simp] theorem State.modTch_upset (s : State) (f : TouchSt → TouchSt) : (s.modTch f).upset = s.upset := rfl
@[simp] theorem State.modTch_scrub (s : State) (f : TouchSt → TouchSt) : (s.modTch f).scrub = s.scrub := rfl
@[simp] theorem State.modTch_sdram (s : State) (f : TouchSt → TouchSt) : (s.modTch f).sdram = s.sdram := rfl
@[simp] theorem State.modTch_tags (s : State) (f : TouchSt → TouchSt) : (s.modTch f).tags = s.tags := rfl
@[simp] theorem State.modTch_answer (s : State) (f : TouchSt → TouchSt) : (s.modTch f).answer = s.answer := rfl
@[simp] theorem State.modTch_arrived (s : State) (f : TouchSt → TouchSt) : (s.modTch f).arrived = s.arrived := rfl
@[simp] theorem State.modTch_aoWait (s : State) (f : TouchSt → TouchSt) : (s.modTch f).aoWait = s.aoWait := rfl
@[simp] theorem State.modTch_brcFrom (s : State) (f : TouchSt → TouchSt) : (s.modTch f).brcFrom = s.brcFrom := rfl
@[simp] theorem State.modTch_raised (s : State) (f : TouchSt → TouchSt) : (s.modTch f).raised = s.raised := rfl
@[simp] theorem State.modTch_evtAt (s : State) (f : TouchSt → TouchSt) : (s.modTch f).evtAt = s.evtAt := rfl
@[simp] theorem State.modTch_trk (s : State) (f : TouchSt → TouchSt) : (s.modTch f).trk = s.trk := rfl
@[simp] theorem State.modTch_enc (s : State) (f : TouchSt → TouchSt) : (s.modTch f).enc = s.enc := rfl
@[simp] theorem State.modTch_alm (s : State) (f : TouchSt → TouchSt) : (s.modTch f).alm = s.alm := rfl
@[simp] theorem State.modTch_almc (s : State) (f : TouchSt → TouchSt) : (s.modTch f).almc = s.almc := rfl
@[simp] theorem State.modTch_cv (s : State) (f : TouchSt → TouchSt) : (s.modTch f).cv = s.cv := rfl
@[simp] theorem State.modTch_ain (s : State) (f : TouchSt → TouchSt) : (s.modTch f).ain = s.ain := rfl
@[simp] theorem State.modTch_cmp (s : State) (f : TouchSt → TouchSt) : (s.modTch f).cmp = s.cmp := rfl
@[simp] theorem State.modTch_slc (s : State) (f : TouchSt → TouchSt) : (s.modTch f).slc = s.slc := rfl
@[simp] theorem State.modTch_dues (s : State) (f : TouchSt → TouchSt) : (s.modTch f).dues = s.dues := rfl
@[simp] theorem State.modTch_pair (s : State) (f : TouchSt → TouchSt) : (s.modTch f).pair = s.pair := rfl
@[simp] theorem State.modTch_gen (s : State) (f : TouchSt → TouchSt) : (s.modTch f).gen = s.gen := rfl
@[simp] theorem State.modTch_lockLow (s : State) (f : TouchSt → TouchSt) : (s.modTch f).lockLow = s.lockLow := rfl
@[simp] theorem State.modTch_chan (s : State) (f : TouchSt → TouchSt) : (s.modTch f).chan = s.chan := rfl
@[simp] theorem State.modTch_dom (s : State) (f : TouchSt → TouchSt) : (s.modTch f).dom = s.dom := rfl
@[simp] theorem State.modTch_fastFrom (s : State) (f : TouchSt → TouchSt) : (s.modTch f).fastFrom = s.fastFrom := rfl
@[simp] theorem State.modTch_linkFree (s : State) (f : TouchSt → TouchSt) : (s.modTch f).linkFree = s.linkFree := rfl
@[simp] theorem State.modTch_stops (s : State) (f : TouchSt → TouchSt) : (s.modTch f).stops = s.stops := rfl
@[simp] theorem State.modTch_pll (s : State) (f : TouchSt → TouchSt) : (s.modTch f).pll = s.pll := rfl
@[simp] theorem State.modTch_brcAt (s : State) (f : TouchSt → TouchSt) : (s.modTch f).brcAt = s.brcAt := rfl
@[simp] theorem State.modTch_lcs (s : State) (f : TouchSt → TouchSt) : (s.modTch f).lcs = s.lcs := rfl
@[simp] theorem State.modTch_meter (s : State) (f : TouchSt → TouchSt) : (s.modTch f).meter = s.meter := rfl
@[simp] theorem State.modTch_port (s : State) (f : TouchSt → TouchSt) : (s.modTch f).port = s.port := rfl
@[simp] theorem State.modTch_upstream (s : State) (f : TouchSt → TouchSt) : (s.modTch f).upstream = s.upstream := rfl
@[simp] theorem State.modTch_addr (s : State) (f : TouchSt → TouchSt) : (s.modTch f).addr = s.addr := rfl
@[simp] theorem State.modTch_mac (s : State) (f : TouchSt → TouchSt) : (s.modTch f).mac = s.mac := rfl
@[simp] theorem State.modTch_ptpAdj (s : State) (f : TouchSt → TouchSt) : (s.modTch f).ptpAdj = s.ptpAdj := rfl
@[simp] theorem State.modTch_tx (s : State) (f : TouchSt → TouchSt) : (s.modTch f).tx = s.tx := rfl
@[simp] theorem State.modTch_sent (s : State) (f : TouchSt → TouchSt) : (s.modTch f).sent = s.sent := rfl
@[simp] theorem State.modTch_sessions (s : State) (f : TouchSt → TouchSt) : (s.modTch f).sessions = s.sessions := rfl
@[simp] theorem State.modTch_waiting (s : State) (f : TouchSt → TouchSt) : (s.modTch f).waiting = s.waiting := rfl
@[simp] theorem State.modTch_replies (s : State) (f : TouchSt → TouchSt) : (s.modTch f).replies = s.replies := rfl
@[simp] theorem State.modTch_kept (s : State) (f : TouchSt → TouchSt) : (s.modTch f).kept = s.kept := rfl
@[simp] theorem State.modTch_credits (s : State) (f : TouchSt → TouchSt) : (s.modTch f).credits = s.credits := rfl
@[simp] theorem State.modTch_nocred (s : State) (f : TouchSt → TouchSt) : (s.modTch f).nocred = s.nocred := rfl
@[simp] theorem State.modTch_fcode (s : State) (f : TouchSt → TouchSt) : (s.modTch f).fcode = s.fcode := rfl
@[simp] theorem State.modTch_scratch (s : State) (f : TouchSt → TouchSt) : (s.modTch f).scratch = s.scratch := rfl
@[simp] theorem State.modTch_epoch (s : State) (f : TouchSt → TouchSt) : (s.modTch f).epoch = s.epoch := rfl
@[simp] theorem State.modTch_draws (s : State) (f : TouchSt → TouchSt) : (s.modTch f).draws = s.draws := rfl
@[simp] theorem State.modTch_puts (s : State) (f : TouchSt → TouchSt) : (s.modTch f).puts = s.puts := rfl
@[simp] theorem State.modTch_prov (s : State) (f : TouchSt → TouchSt) : (s.modTch f).prov = s.prov := rfl
@[simp] theorem State.modTch_openBy (s : State) (f : TouchSt → TouchSt) : (s.modTch f).openBy = s.openBy := rfl
@[simp] theorem State.modTch_img (s : State) (f : TouchSt → TouchSt) : (s.modTch f).img = s.img := rfl
@[simp] theorem State.modTch_restored (s : State) (f : TouchSt → TouchSt) : (s.modTch f).restored = s.restored := rfl
@[simp] theorem State.modTch_wdog (s : State) (f : TouchSt → TouchSt) : (s.modTch f).wdog = s.wdog := rfl
@[simp] theorem State.modTch_ptpOff (s : State) (f : TouchSt → TouchSt) : (s.modTch f).ptpOff = s.ptpOff := rfl
@[simp] theorem State.modTch_ptpGood (s : State) (f : TouchSt → TouchSt) : (s.modTch f).ptpGood = s.ptpGood := rfl
@[simp] theorem State.modTch_hbs (s : State) (f : TouchSt → TouchSt) : (s.modTch f).hbs = s.hbs := rfl
@[simp] theorem State.modTch_split (s : State) (f : TouchSt → TouchSt) : (s.modTch f).split = s.split := rfl
@[simp] theorem State.modTch_tripSeen (s : State) (f : TouchSt → TouchSt) : (s.modTch f).tripSeen = s.tripSeen := rfl
@[simp] theorem State.modTch_devSeq (s : State) (f : TouchSt → TouchSt) : (s.modTch f).devSeq = s.devSeq := rfl
@[simp] theorem State.modTch_inj (s : State) (f : TouchSt → TouchSt) : (s.modTch f).inj = s.inj := rfl
@[simp] theorem State.modTch_tripTx (s : State) (f : TouchSt → TouchSt) : (s.modTch f).tripTx = s.tripTx := rfl
@[simp] theorem State.modTch_tripin (s : State) (f : TouchSt → TouchSt) : (s.modTch f).tripin = s.tripin := rfl
@[simp] theorem State.modTch_core (s : State) (f : TouchSt → TouchSt) : (s.modTch f).core = s.core := rfl
@[simp] theorem State.modTch_scrDraws (s : State) (f : TouchSt → TouchSt) : (s.modTch f).scrDraws = s.scrDraws := rfl
@[simp] theorem State.modTch_tap (s : State) (f : TouchSt → TouchSt) : (s.modTch f).tap = s.tap := rfl
@[simp] theorem State.modTch_locked (s : State) (f : TouchSt → TouchSt) : (s.modTch f).locked = s.locked := rfl
@[simp] theorem State.modTch_commit (s : State) (f : TouchSt → TouchSt) : (s.modTch f).commit = s.commit := rfl
@[simp] theorem State.modTch_grn (s : State) (f : TouchSt → TouchSt) : (s.modTch f).grn = s.grn := rfl
@[simp] theorem State.modTch_memcCfg (s : State) (f : TouchSt → TouchSt) : (s.modTch f).memcCfg = s.memcCfg := rfl
@[simp] theorem State.modTch_ao (s : State) (f : TouchSt → TouchSt) : (s.modTch f).ao = s.ao := rfl
@[simp] theorem State.modTch_cal (s : State) (f : TouchSt → TouchSt) : (s.modTch f).cal = s.cal := rfl
@[simp] theorem State.modTch_lgr (s : State) (f : TouchSt → TouchSt) : (s.modTch f).lgr = s.lgr := rfl
@[simp] theorem State.modTch_sec (s : State) (f : TouchSt → TouchSt) : (s.modTch f).sec = s.sec := rfl
@[simp] theorem State.modTch_uart (s : State) (f : TouchSt → TouchSt) : (s.modTch f).uart = s.uart := rfl
@[simp] theorem State.modTch_lcd (s : State) (f : TouchSt → TouchSt) : (s.modTch f).lcd = s.lcd := rfl

end Sys2Proof.Machine
end

