-- ==== Sys2Proof/Machine/Bias.lean ====
section
/-!
DEFINITION. Machine/Bias.lean: the body bias, the supply of the SRAM arrays and the SRAM assist of each domain (R510), which
hardware sets and no register does.
-/
namespace Sys2Proof.Machine

/-- The assist of an SRAM (R510). -/
inductive SramAssist
  | none | write | retention
  deriving DecidableEq, Repr

/-- What R510 sets for a domain: the body bias of its logic and of its retention flops in tenths of a volt, none where they
are unpowered (a forward bias is above 0); the supply of its SRAM arrays in mV, 0 where they are unpowered; the assist. -/
structure BiasSt where
  logic : Option Int
  flops : Option Int
  array : Nat
  assist : SramAssist
  deriving DecidableEq, Repr

/-- The settings of a switched domain at hold level `l` (R510). -/
def biasOf (l : Nat) : BiasSt :=
  if l ≤ 1 then { logic := some 3, flops := some 3, array := 800, assist := .write }
  else if l = 2 then { logic := some (-6), flops := some (-6), array := 550, assist := .retention }
  else if l = 3 then { logic := none, flops := some (-6), array := 0, assist := .none }
  else { logic := none, flops := none, array := 0, assist := .none }

/-- The settings of domain `d` (R510): those of the level reached, of H0 while it descends. -/
def State.domBias (s : State) (d : Fin 3) : BiasSt := biasOf (s.dom[d]).level

/-- The settings of the always-on domain (R510). Outside Barn an AOC that sleeps has those of one that runs, and a domain
without supply is unpowered (DESIGN CHOICE: the table names neither). -/
def State.aoBias (s : State) : BiasSt :=
  if s.ao.phase = .off then { logic := none, flops := none, array := 0, assist := .none }
  else if s.mode = mCellar then { logic := none, flops := some (-9), array := 0, assist := .none }
  else if s.mode = mBarn && !s.aocAwake then { logic := some (-9), flops := some (-9), array := 550, assist := .retention }
  else { logic := some 0, flops := some 0, array := 800, assist := .write }

end Sys2Proof.Machine
end

