-- ==== Sys2Proof/Machine/Pins.lean ====
section
/-!
DEFINITION. Machine/Pins.lean: what the signal pins show (R617, R625) and the waveforms behind them: the gate, trip and
excitation outputs (07, 03), the encoder interfaces (R118, R386), the serial ports (R566, R567), the touch pins (R583 to R585)
and the display pins (R598 to R600, R604, R608). Nothing here changes the state.
-/
namespace Sys2Proof.Machine

/-- What a pin shows: a driven level; a level in units of 2^-64 of full scale about mid-scale; an input; high impedance, with
a weak pull or without; electrical idle; high for so many microseconds in each sample (R386), low else. -/
inductive PinState
  | drive (level : Bool)
  | analogue (level : Int)
  | input
  | weakUp
  | weakDown
  | highZ
  | idle
  | strobe (us : Nat)
  deriving DecidableEq, Repr

/-- The domain is in reset or below H0 (R617): it has left H0 and has not returned to it. -/
def State.below (s : State) (d : Dom) : Bool :=
  decide ((s.dom[domIx d]).phase = .down ∨ (s.dom[domIx d]).phase = .returning)

/-! ### Pins of the fast and link domains (R617) -/

/-- G00 to G63: inactive at the polarity of `STRAP_GPOL` while the fast domain is below H0 (R241). -/
def State.gatePin (s : State) (k : Fin 64) : PinState := .drive (if s.below .fast then s.ao.gpol else s.gateLevel k)

/-- `GEN_n` (R268). -/
def State.genPin (s : State) : PinState := .drive !s.genLow

/-- `LOCKUP_n` (R493). -/
def State.lockupPin (s : State) : PinState := .drive !(s.lockLow && !s.below .fast)

/-- EXC0 to EXC7 (R106). -/
def State.excPin (s : State) (k : Fin 8) : PinState := if s.below .fast then .weakDown else .analogue (s.excOutput k)

/-- The transmit lines of the ports: electrical idle while the link domain is below H0. -/
def State.serdesIdle (s : State) : Bool := s.below .link

/-- Interface `i` belongs to the parked-motion counter (R386). -/
def State.parked (s : State) (i : Nat) : Bool :=
  s.aoOn && decide (s.mode = mBarn) && s.on LGR_PM_CFG.EN && s.get LGR_PM_CFG.IFACE == i

/-- ENCiA: the frame clock of an SSI track, else an input (R118). -/
def State.encAPin (s : State) (i : Fin 8) : PinState :=
  if !s.below .fast && (List.finRange 16).any (fun n => s.ssiDrives n && s.get (TRK_CTRL.IFACE n) == i.val) then
    .drive (s.ssiClock i)
  else .input

/-- ENCiB. -/
def State.encBPin (_ : State) (_ : Fin 8) : PinState := .input

/-- ENCiZ: the strobe of the parked-motion counter, else an input (R386). -/
def State.encZPin (s : State) (i : Fin 8) : PinState :=
  if s.parked i && s.on LGR_PM_CFG.STRB then .strobe (4 * s.get LGR_PM_CFG.STRB) else .input

/-! ### Serial ports (R565 to R567, R571, R617) -/

/-- `UnTX` between characters: high; of U2 and U3 pulled up while the fast domain is below H0. Without a supply the
always-on pins float (DESIGN CHOICE: R617 gives their level while the domain is powered). -/
def State.txPin (s : State) (n : Fin 4) : PinState :=
  if n.val < 2 then (if s.ao.phase = .off then .highZ else .drive true) else if s.below .fast then .weakUp else .drive true

/-- `UnRTS_n`. -/
def State.rtsPin (s : State) (n : Fin 4) : PinState :=
  if n.val < 2 then (if s.ao.phase = .off then .highZ else if s.aoOn then .drive (s.uart[n]).rts else .drive true)
  else if s.below .fast then .weakUp else .drive (s.uart[n]).rts

/-- The levels of a transmitted character, a bit time each: start bit, 8 or 9 data bits least significant first, parity (1 even,
2 odd), 1 or 2 stop bits (R567). -/
def State.txFrame (s : State) (n : Fin 4) (e : Nat) : List Bool :=
  let nd := if s.on (U_CTRL.DATA9 n) || s.on (U_CTRL.ADDR9 n) then 9 else 8
  let data := (List.range nd).map (fun i => e.testBit i)
  let odd : Bool := decide ((data.filter (fun b => b)).length % 2 = 1)
  let par := s.get (U_CTRL.PAR n)
  [false] ++ data ++ (if par = 1 then [odd] else if par = 2 then [!odd] else []) ++
    List.replicate (if s.on (U_CTRL.STOP2 n) then 2 else 1) true

/-- A bit time of the transmitter, in sixteenths of a cycle of its clock (R565, R566). -/
def State.txBitTime (s : State) (n : Fin 4) : Nat := max 128 (s.get (U_BAUD.DIV n))

/-! ### Touch pins (R583 to R585, R594) -/

/-- What a sensor pin or TGUARD does in a measurement. -/
inductive TouchPin
  | low | measured | guard | transmit | receive
  deriving DecidableEq, Repr

/-- Pin TSp while key `k` is measured (R583, R585). -/
def State.touchPin (s : State) (k : Fin 64) (p : Fin 16) : TouchPin :=
  if s.on TCH_CTRL.MODE then
    if p.val = k.val / 8 then .transmit else if p.val = 8 + k.val % 8 then .receive else .low
  else if p.val = k.val then .measured
  else if s.on TCH_CTRL.GUARD then .guard else .low

/-- TGUARD while a key is measured (R585); it is low while the wet channel is (R594). -/
def State.guardPin (s : State) : TouchPin := if !s.on TCH_CTRL.MODE && s.on TCH_CTRL.GUARD then .guard else .low

/-- The charge pulses of a measurement, and its scan frequency in Hz at the `i`-th divider: 0 in a normal scan, 0, 1 and 2 in
turn in charger-noise mode (R584, R595). -/
def State.touchPulses (s : State) : Nat := 16 * 2 ^ s.get TCH_FREQ.NP
def State.touchHz (s : State) (i : Nat) : Nat :=
  s.brcHz / (2 * (s.get (if i = 0 then TCH_FREQ.F0 else if i = 1 then TCH_FREQ.F1 else TCH_FREQ.F2) + 1))

/-! ### Display pins (R598 to R600, R604, R608) -/

/-- VLCD in mV (R600, R627). -/
def State.vlcd (s : State) : Nat := min 5500 (2500 + 50 * s.get (LCD_BAND.CODE (s.get LCD_STAT.BAND)))

/-- B: the number of steps of VLCD (R598). -/
def State.lcdSteps (s : State) : Nat := if s.on LCD_CTRL.BIAS then 4 else 3

/-- The commons and segments in use (R598). -/
def State.lcdComs (s : State) : Nat := if s.on LCD_CTRL.MUX then 8 else 4
def State.lcdSegs (s : State) : Nat := if s.on LCD_CTRL.MUX then 44 else 48

/-- A level of `j` steps in the first frame of a pair; the second frame inverts it (R599). -/
def State.lcdLevel (s : State) (second : Bool) (j : Nat) : Nat := if second then s.lcdSteps - j else j

/-- Common `c` in the slot of common `slot`, in steps of VLCD / B (PRESUMED: the levels of the conventional waveforms that
R598 names); 0 is VSS. -/
def State.comPin (s : State) (second : Bool) (slot c : Fin 8) : Nat :=
  if s.lcd.driving && decide (s.mode ≠ mCellar) && decide (c.val < s.lcdComs) then
    s.lcdLevel second (if c = slot then s.lcdSteps else 1)
  else 0

/-- Segment `g` in cycle `t` of the slot of common `slot`: an on segment is at its select level for the cycles that its trim
code gives it (R598, R601, R604; PRESUMED: the levels, as in `comPin`). -/
def State.segPin (s : State) (second : Bool) (slot : Fin 8) (g t : Nat) : Nat :=
  if s.lcd.driving && decide (s.mode ≠ mCellar) && decide (g < s.lcdSegs) then
    s.lcdLevel second (if s.lcd.lit slot g && decide (t < s.lcdDrive (s.lcd.code slot g)) then 0 else 2)
  else 0

end Sys2Proof.Machine
end

