-- ==== Sys2Proof/Tests/Slice0.lean ====
section
/-!
SUPPORT. Tests/Slice0.lean: the checks of `WellFormed` each refuse a term, commands give what the spec's own words
and tables say, and for the statements with hypotheses a state and operands that meet them.
-/
namespace Sys2Proof.Tests
open Sys2Proof Sys2Proof.Machine

-- One theorem at a time: the many kernel evaluations below would each hold a thread while they wait.
set_option Elab.async false

/-! ### Well-formed terms: one that each check refuses -/

/-- A request for device 5 on port A. -/
def rq : Req :=
  { port := .pa, seq := 1, tag := 0, mac := 0x020000000001, dst := 5, auth := false, express := false,
    ackReq := false, epoch := 0, vlan := none }

def words (n : Nat) : List Word := List.replicate n 0
def bytes (n : Nat) : List Byte := List.replicate n 0

theorem test_wf_stageWrite : (Instr.stageWrite rq 0 (words 2287)).wf = false := by decide +kernel
theorem test_wf_imageWrite : (Instr.imageWrite rq 0 1 0 (bytes 12)).wf = false := by decide +kernel
theorem test_wf_mbxPut : (Instr.mbxPut rq 0 (words 256)).wf = false := by decide +kernel
theorem test_wf_frameReceive : (Instr.frameReceive .pa (bytes 13) true).wf = false ∧
    (Instr.frameReceive .pa (bytes 9213) true).wf = false := by decide +kernel
theorem test_wf_angleShareReceive : (Instr.angleShareReceive 6 (AngleShare.mk 0 [])).wf = false := by decide +kernel
theorem test_wf_touchScan : (Instr.touchScan [65536]).wf = false ∧ (Instr.touchScan (List.replicate 196 0)).wf = false := by
  decide +kernel
theorem test_wf_uartCharReceived :
    (Instr.uartCharReceived 0 (SerialChar.mk false (List.replicate 13 (Sample3.mk true true true)) 0)).wf = false := by
  decide +kernel
theorem test_wf_vocSample : (Instr.vocSample 65536).wf = false := by decide +kernel
theorem test_wf_good : (Instr.imageWrite rq 0 1 0 (bytes 8)).wf = true ∧ (Instr.mbxPut rq 0 (words 8)).wf = true := by
  decide +kernel

/-! ### States -/

/-- The device in operation: every domain at H0, clocks enabled, the always-on domain started, all cores released. -/
def up : State :=
  let s : State := { State.reset with now := 1000, dom := Vector.replicate 3 ⟨.up, 0, true, 0⟩ }
  let s : State := { s with ao := { s.ao with phase := .on }, core := s.core.set 3 (CoreSt.reset false) }
  let s := (s.set CPM_CLKEN.BLOCKS 0x3FF).set CPM_CLKRUN.BLOCKS 0x3FF
  let s := (s.set (CPM_PAIR_RST.HOLD 0) 0).set (CPM_PAIR_RST.HOLD 1) 0
  (s.set APM_CLKSTAT.BRCRUN 1).set APM_CLKEN.BLOCKS 0xF

/-- MGT0 of the operating device, its code in the line buffer, after `f`. -/
def mgt (f : CoreSt → CoreSt) : State := up.modCore 2 (fun k => f { k with line := some 0 })

/-- MGT0 with `v` in `g5` and capability `c` in `c3`. -/
def mgtV (v : Word) (c : Cap) : State := mgt (fun k => { k with regs := k.regs.set 5 v, caps := k.caps.set 3 c })

/-- A megabyte of L2 with every permission. -/
def l2 : Cap := Cap.make 0x20000000 0x200FFFFF 0xFFF 0 true

/-- A long operation that writes `g7`. -/
def longOp : LongOp :=
  { word := 0, offs := 0, rd := 7, srcs := [8, 9], result := 5, flags := 1, due := 3 }

/-- A branch at offset `o` that waits for its slot. -/
def branch (o : Word) (b : Bool) : Transfer :=
  { offs := o, target := 64, taken := b, code := none, cost := 0, cond := some b, oldLink := none, oldCap := Cap.null,
    oldStack := [], missed := false }

/-! ### Witnesses: cores -/

theorem witness_RegisterAluResults : up.ready .mgt0 (Obligations.shape3 1 2 3) = true ∧
    up.ready .aoc (Obligations.shape3 0 31 31) = true := by decide +kernel
theorem witness_ImmediateResults : up.ready .ctl1 (Obligations.shape2 31 0) = true ∧
    up.ready .mgt0 { reads := [], writes := [0] } = true := by decide +kernel
theorem witness_MultiplyResults : up.ready .mgt1 (Obligations.shape3Late 1 2 3) = true := by decide +kernel

theorem witness_InstructionFrames :
    let busy := mgt (fun k => { k with long := some longOp })
    (up.ready .mgt0 (Obligations.shape3 1 2 3) = true ∧ (up.core[2]).long = none) ∧
    (busy.ready .mgt0 (Obligations.shape3 7 2 3) = true ∧ (busy.core[2]).long = some longOp ∧
      (Obligations.shape3 7 2 3).waitsFor longOp = true) ∧
    (up.core[2]).slot = none ∧ ((mgt (fun k => { k with slot := some (branch 0 true) })).core[2]).pc = (branch 0 true).offs ∧
    ((mgt (fun k => { k with slot := some (branch 4 true) })).core[2]).pc ≠ (branch 4 true).offs := by decide +kernel

theorem witness_DerivationFaults :
    let op := Obligations.shapeDerive 4 3 5
    let g (v : Word) (c : Cap) (p : Cap → Nat → CoreSt → Bool) : Prop := (mgtV v c).ready .mgt0 op = true ∧
      p (((mgtV v c).issued .mgt0 op).cap 2 3) (((mgtV v c).issued .mgt0 op).gr 2 5).toNat
        ((mgtV v c).issued .mgt0 op).core[2] = true
    g 0 Cap.null (fun k _ _ => !k.tag) ∧ g 0 { l2 with bits := l2.bits + 2 ^ 92 } (fun k _ _ => k.tag && k.sl == 1) ∧
    g 0x100000 l2 (fun k v _ => k.tag && k.sl == 0 && decide (k.limit < k.base + v)) ∧
    g 0 l2 (fun k v _ => k.tag && k.sl == 0 && v == 0) ∧
    g 0x100001 l2 (fun k v _ => k.tag && k.sl == 0 && decide (k.limit < k.base + v - 1)) ∧
    g 256 l2 (fun k v _ => k.tag && k.sl == 0 && v % 256 == 0) ∧
    (let s := (mgtV 1 l2).modCore 2 (fun k => { k with sealmask := Vector.replicate 8 1 })
     s.ready .mgt0 op = true ∧ ((s.issued .mgt0 op).core[2]).sealBit 1 = false) := by decide +kernel

theorem witness_CapabilityOperations :
    let op := Obligations.shapeDerive 4 3 5
    let s := mgtV 0x10 l2
    let u := s.issued .mgt0 op
    let top := mgtV 0x100000 l2
    s.ready .mgt0 (Obligations.shapeCopy 4 3) = true ∧ s.ready .mgt0 { reads := [35], writes := [1] } = true ∧
    s.ready .mgt0 op = true ∧ (u.cap 2 3).tag = true ∧ (u.cap 2 3).sl = 0 ∧
    (u.cap 2 3).base + (u.gr 2 5).toNat ≤ (u.cap 2 3).limit ∧ (u.core[2]).sealBit 16 = true ∧
    (u.core[2]).sealBit (u.cap 2 3).sl = true ∧
    ((top.issued .mgt0 op).cap 2 3).base + ((top.issued .mgt0 op).gr 2 5).toNat - 1 = ((top.issued .mgt0 op).cap 2 3).limit := by
  decide +kernel

/-- A control pair whose only shadow entry and link agree. -/
def withStack (l : List ShadowEntry) (g28 : Word) : State :=
  mgt (fun k => { k with shadow := k.shadow.set k.stackIx l, regs := k.regs.set 28 g28, caps := k.caps.set 6 l2 })

/-- A descriptor table whose only valid descriptor is number `e`: level 0, offset 16 in L2. -/
def table (e : Nat) : HdtCopy :=
  { bytes := (List.range 2048).map (fun n => if n / 32 = e then
      (if n % 32 = 0 then 16#8 else if n % 32 = 4 then 128#8 else if 6 ≤ n % 32 ∧ n % 32 < 14 ∧ n % 32 ≠ 7 then 0xFE#8
       else 0#8) else 0#8),
    vault := [l2] }

/-- A load and its operands whose checks pass for 4 bytes at `a`; a store likewise. -/
def loads (s : State) (need sz a : Nat) : Bool :=
  let op := Obligations.shapeLoad 1 3 5
  s.ready .mgt0 op && decide ((s.issued .mgt0 op).access 2 3 need (((s.issued .mgt0 op).gr 2 5 +
    (0 : BitVec 12).signExtend 32).toNat) sz false = .ok a)
def stores (s : State) (need sz a : Nat) : Bool :=
  let op := Obligations.shapeStore 1 3 5
  s.ready .mgt0 op && decide ((s.issued .mgt0 op).access 2 3 need (((s.issued .mgt0 op).gr 2 5 +
    (0 : BitVec 12).signExtend 32).toNat) sz true = .ok a)

theorem witness_LoadsAndStores : isRegAddr 0x200FFFFC = false ∧ loads (mgtV 0xFFFFF l2) pRD 1 0x200FFFFF = true ∧
    loads (mgtV 0xFFFFE l2) pRD 2 0x200FFFFE = true ∧ loads (mgtV 0xFFFFC l2) pRD 4 0x200FFFFC = true ∧
    stores (mgtV 0 l2) pWR 1 0x20000000 = true ∧ stores (mgtV 2 l2) pWR 2 0x20000002 = true ∧
    stores (mgtV 0xFFFFC l2) pWR 4 0x200FFFFC = true := by decide +kernel

/-- Track 0's registers, with every permission. -/
def trackRegs : Cap := Cap.make 0x30000000 0x3000FFFF 0xFFF 0 true

theorem witness_RegisterLoadsAndStores :
    let opL := Obligations.shapeLoad 1 3 5
    let opS := Obligations.shapeStore 1 3 5
    let s := mgtV (BitVec.ofNat 32 (TRK_OFFS.adr 0 - 0x30000000)) trackRegs
    isRegAddr (TRK_OFFS.adr 0) = true ∧ loads s pRD 4 (TRK_OFFS.adr 0) = true ∧ stores s pWR 4 (TRK_OFFS.adr 0) = true ∧
    ((s.issued .mgt0 opL).busRead (.core .mgt0) (TRK_OFFS.adr 0)).1.isSome = true ∧
    ((s.issued .mgt0 opL).core[2]).cycle ≤
      ((((s.issued .mgt0 opL).busRead (.core .mgt0) (TRK_OFFS.adr 0)).2).core[2]).cycle ∧
    ((s.issued .mgt0 opS).core[2]).cycle ≤
      ((((s.issued .mgt0 opS).busWrite (.core .mgt0) (TRK_OFFS.adr 0) 7).2).core[2]).cycle := by decide +kernel

theorem witness_AccessChecks :
    let g (c : Cap) (offs : Nat) (p : Cap → Nat → Bool) : Prop := p ((mgtV 0 c).cap 2 3) (((mgtV 0 c).cap 2 3).base + offs) = true
    let perm (k : Cap) (a : Nat) : Bool := k.holds pRD && (!isRegAddr a || k.holds pBLK)
    let fine (k : Cap) (a : Nat) : Bool := k.tag && k.sl == 0 && perm k a
    g Cap.null 0 (fun k _ => !k.tag) ∧ g { l2 with bits := l2.bits + 2 ^ 92 } 0 (fun k _ => k.tag && k.sl != 0) ∧
    g (Cap.make 0x20000000 0x200FFFFF 0 0 true) 0 (fun k a => k.tag && k.sl == 0 && !perm k a) ∧
    g l2 0xFFFFD (fun k a => fine k a && decide (k.limit < a + 3)) ∧
    g l2 0x2 (fun k a => fine k a && decide (a + 3 ≤ k.limit ∧ a % 4 = 2)) ∧
    g l2 0xFFFFC (fun k a => fine k a && decide (a + 3 ≤ k.limit ∧ a % 4 = 0) &&
      ((mgtV 0 l2).reach6 2 a 4 false).isNone) ∧
    (let far := Cap.make 0x20400000 0x204FFFFF 0xFFF 0 true
     g far 0 (fun k a => fine k a && ((mgtV 0 far).reach6 2 a 4 false).isSome) ∧
     loads (mgtV 0 far) pRD 4 0x20400000 = false ∧ (mgtV 0 far).ready .mgt0 (Obligations.shapeLoad 1 3 5) = true) := by
  decide +kernel

theorem witness_AtomicsAndCapabilities :
    let op1 : Op := { reads := [5, 35, 2], writes := [1], late := [1] }
    let op2 : Op := { reads := [5, 35, 2, 4], writes := [1], late := [1] }
    let s := mgtV 0xFFFFC l2
    let need := pRD ||| pWR ||| pATOM
    s.ready .mgt0 op1 = true ∧ s.ready .mgt0 op2 = true ∧ amoRegion 0x200FFFFC = true ∧ isRegAddr 0x200FFFFC = false ∧
    (s.issued .mgt0 op1).access 2 3 need ((s.issued .mgt0 op1).gr 2 5).toNat 4 true = .ok 0x200FFFFC ∧
    (s.issued .mgt0 op2).access 2 3 need ((s.issued .mgt0 op2).gr 2 5).toNat 4 true = .ok 0x200FFFFC := by decide +kernel

theorem witness_AtomicsAndCapabilities_memory :
    let opL : Op := { reads := [5, 35], writes := [36], late := [36] }
    let opS : Op := { reads := [5, 35, 36], writes := [] }
    let s := (mgtV 0xFFFF0 l2).setCap 2 4 l2
    s.ready .mgt0 opL = true ∧ s.ready .mgt0 opS = true ∧ hasTags 0x200FFFF0 = true ∧
    ((s.issued .mgt0 opS).cap 2 4).tag = true ∧ ((s.issued .mgt0 opS).cap 2 4).holds pSHARE = true ∧
    (s.issued .mgt0 opL).access 2 3 pRD 0xFFFF0 16 false = .ok 0x200FFFF0 ∧
    (s.issued .mgt0 opS).access 2 3 (pWR ||| pPUT) 0xFFFF0 16 true = .ok 0x200FFFF0 := by decide +kernel

theorem witness_LongOperations : up.ready .mgt0 (Obligations.shapeLong 1 [2, 0]) = true := by decide +kernel
theorem witness_FloatResults : up.ready .ctl0 (Obligations.shapeLong 1 [2, 3]) = true ∧
    up.ready .ctl0 (Obligations.shapeLong 1 [2, 0]) = true ∧ up.ready .ctl0 (Obligations.shapeLong 1 [2, 3, 4]) = true := by
  decide +kernel
theorem witness_NoFloatOnAoc : up.ready .aoc (Obligations.shapeLong 1 [2, 3]) = true ∧
    up.ready .aoc (Obligations.shapeLong 1 [2, 0]) = true ∧ up.ready .aoc (Obligations.shapeLong 1 [2, 3, 4]) = true := by
  decide +kernel

theorem witness_LongOperations_completes :
    let s := mgt (fun k => { k with long := some longOp })
    s.coreUp 2 = true ∧ (s.core[2]).flip = false ∧ (s.core[2]).long = some longOp := by decide +kernel

theorem witness_BranchResults :
    let op := Obligations.shapeFlow [1, 2] []
    let u := up.issued .mgt0 op
    up.ready .mgt0 op = true ∧ u.gr 2 1 = u.gr 2 2 ∧ targetTrouble (u.cap 2 0) 0 ((u.core[2]).pc + 0x1FFFC) = none ∧
    (let v := (mgtV 1 l2).issued .mgt0 (Obligations.shapeFlow [5, 2] [])
     (mgtV 1 l2).ready .mgt0 (Obligations.shapeFlow [5, 2] []) = true ∧ v.gr 2 5 ≠ v.gr 2 2) := by decide +kernel

theorem witness_JumpsAndReturns :
    let flow (r w : List Nat) : Op := Obligations.shapeFlow r w
    let calls := mgtV 8 l2
    let u := calls.issued .mgt0 (flow [5] [28])
    (calls.ready .mgt0 (flow [5] [28]) = true ∧ targetTrouble (u.cap 2 0) 0 (u.gr 2 5) = none ∧
      (u.core[2]).stack.length < (u.core[2]).stackMax) ∧
    (calls.ready .mgt0 (flow [5, 35] [28, 38]) = true ∧ targetTrouble l2 3 8 = none) ∧
    (let s := withStack [{ offs := 32, cap := none }] 32
     let v := s.issued .mgt0 (flow [28] [])
     s.ready .mgt0 (flow [28] []) = true ∧ targetTrouble (v.cap 2 0) 0 (v.gr 2 28) = none ∧
       (v.core[2]).stack = { offs := v.gr 2 28, cap := none } :: []) ∧
    (let e : ShadowEntry := { offs := 32, cap := some (BitVec.ofNat 40 l2.base, BitVec.ofNat 40 l2.limit) }
     let s := withStack [e] 32
     let v := s.issued .mgt0 (flow [28, 38] [32])
     s.ready .mgt0 (flow [28, 38] [32]) = true ∧ targetTrouble (v.cap 2 6) 6 (v.gr 2 28) = none ∧
       (v.core[2]).stack = [e] ∧ ((withStack [] 32).core[2]).stack = [] ∧
       ((withStack [e] 36).core[2]).stack ≠ [{ offs := 36, cap := none }]) ∧
    (let s := mgtV 0x20000 l2
     s.ready .mgt0 (flow [5] []) = true ∧
       targetTrouble ((s.issued .mgt0 (flow [5] [])).cap 2 0) 0 ((s.issued .mgt0 (flow [5] [])).gr 2 5) ≠ none) := by
  decide +kernel

theorem witness_FaultEntry :
    let s := mgt (fun k => { k with hdt := some (table 3) })
    let k := s.core[2]
    let v : SaveSt := { spc := k.pc, sstat := sstatOf k 3 0 0 false, scap := k.caps[0], replay0 := 0, replay1 := 0, faddr := 0 }
    (k.long = none ∧ k.slot = none ∧ k.df = false ∧ k.flip = false ∧ s.lockedUp 2 = false ∧
      (k.descriptor 3 true).any (fun d => decide ((s.modCore 2 (fun k => k.enter d v)).fetchTrouble 2 = none)) = true) ∧
    ((up.core[0]).descriptor 3 true = none ∧ up.lockedUp 0 = false ∧ (up.core[0]).long = none ∧ (up.core[0]).slot = none) ∧
    (let t := mgt (fun k => { k with hdt := some (table 0) })
     (t.core[2]).descriptor 3 true = none ∧ ((t.core[2]).descriptor 0 false).any (fun d =>
       decide ((t.modCore 2 (fun k => { k with caps := d.install k.caps, pc := d.offs })).fetchTrouble 2 = none)) = true) := by
  decide +kernel

theorem witness_InterruptsAndServiceCalls :
    let s := up.modCore 0 (fun k => { k with hdt := some (table 24), tm := true, ien := 0x100 })
    let k := s.core[0]
    let v : SaveSt := { spc := k.pc, sstat := sstatOf k 24 0 0 false, scap := k.caps[0], replay0 := 0, replay1 := 0, faddr := 0 }
    s.coreUp 0 = true ∧ s.request 0 = some (24, 0) ∧ k.long = none ∧ k.slot = none ∧ k.flip = false ∧
    (k.descriptor 24 false).any (fun d => decide ((s.modCore 0 (fun k => k.enter d v)).fetchTrouble 0 = none)) = true ∧
    up.request 0 = none := by decide +kernel

theorem witness_InterruptsAndServiceCalls_calls : up.ready .mgt0 (Obligations.shapeFlow [] []) = true := by decide +kernel

/-- MGT0 in level 0, entered from a boundary whose replay slot holds a `DIV`. -/
def inLevel (f : CoreSt → CoreSt) : State :=
  mgt (fun k => f { k with cur := 0, save := k.save.set 0 { SaveSt.reset with replay0 := wordLR 0x14 1 2 3 4, replay1 := 1 } })

theorem witness_SystemInstructions :
    let plain : Op := { reads := [], writes := [] }
    let wait : Op := { reads := [], writes := [], slotOk := false }
    let inv : Op := { reads := [5, 35], writes := [] }
    let low := mgt (fun k => { k with caps := k.caps.set 0 (Cap.make 0 0x1FFFF pRUN 0 true) })
    let s := mgtV 0xFFFFF l2
    (up.ready .mgt0 plain = true ∧ up.ready .mgt0 wait = true ∧ s.ready .mgt0 inv = true ∧
      (s.issued .mgt0 inv).code 2 pPRIV = true ∧ low.ready .mgt0 plain = true ∧
      (low.issued .mgt0 plain).code 2 pPRIV = false) ∧
    (((s.issued .mgt0 inv).cap 2 3).base + ((s.issued .mgt0 inv).gr 2 5).toNat = ((s.issued .mgt0 inv).cap 2 3).limit) ∧
    (let s := inLevel (fun k => k)
     let op : Op := { reads := [], writes := [], sys := true, slotOk := false, long := (s.core[2]).replays }
     let k := (s.issued .mgt0 op).core[2]
     s.ready .mgt0 op = true ∧ k.cur = 0 ∧ k.df = false ∧ (s.issued .mgt0 op).code 2 pPRIV = true ∧ k.stack = [] ∧
       (k.save[0]).replay1.getLsbD 0 = true ∧
       (longOf (fieldOf (k.save[0]).replay0 30 25) (fieldOf (k.save[0]).replay0 9 0) 7 0 0).isSome = true) ∧
    (let s := inLevel (fun k => { k with df := true })
     let op : Op := { reads := [], writes := [], sys := true, slotOk := false, long := (s.core[2]).replays }
     s.ready .mgt0 op = true ∧ ((s.issued .mgt0 op).core[2]).df = true ∧ 4 ≤ (up.core[2]).cur) ∧
    (let s := inLevel (fun k => { k with shadow := k.shadow.set k.stackIx [{ offs := 0, cap := none }] })
     let op : Op := { reads := [], writes := [], sys := true, slotOk := false, long := (s.core[2]).replays }
     s.ready .mgt0 op = true ∧ ((s.issued .mgt0 op).core[2]).stack ≠ []) := by decide +kernel

theorem witness_CsrResults :
    let op (r : List Nat) (b : Bool) : Op := { reads := r, writes := [1], sys := b }
    let u := up.issued .mgt0 (op [2] true)
    up.ready .mgt0 (op [] false) = true ∧ up.ready .mgt0 (op [2] true) = true ∧ up.ready .mgt0 (op [0] false) = true ∧
    csrMask 2 0x002 = none ∧ csrMask 2 0x010 = some 0 ∧ csrMask 2 0x153 = some 0xFFFFFFFF ∧
    u.code 2 pSYS = true ∧ u.code 2 pKEY = true ∧
    (let low := mgt (fun k => { k with caps := k.caps.set 0 (Cap.make 0 0x1FFFF pRUN 0 true) })
     low.ready .mgt0 (op [2] true) = true ∧ (low.issued .mgt0 (op [2] true)).code 2 pSYS = false) ∧
    (let mid := mgt (fun k => { k with caps := k.caps.set 0 (Cap.make 0 0x1FFFF (pRUN ||| pSYS) 0 true) })
     mid.ready .mgt0 (op [2] true) = true ∧ (mid.issued .mgt0 (op [2] true)).code 2 pSYS = true ∧
       (mid.issued .mgt0 (op [2] true)).code 2 pKEY = false) := by decide +kernel

theorem witness_SystemRegisters :
    let op : Op := { reads := [], writes := [], sys := true }
    let s := mgtV 0 l2
    let u := s.issued .mgt0 op
    (s.core[2]).cur < 16 ∧ s.ready .mgt0 op = true ∧ u.code 2 pSYS = true ∧ u.code 2 pKEY = true ∧
    (match u.hdtGranules 2 3 0 160 0 [] with
     | .ok r => decide ((u.core[2]).cycle ≤ ((r.2).core[2]).cycle)
     | .error _ => false) = true ∧
    (match u.hdtGranules 2 4 0 160 0 [] with
     | .ok _ => false
     | .error _ => true) = true := by decide +kernel

theorem witness_CoreEvents : up.coreUp 0 = true ∧ up.coreUp 1 = true ∧ up.coreUp 2 = true ∧ (up.core[2]).tagged = true ∧
    (up.core[2]).drawn = false ∧ up.locked[0] = false ∧ up.locked[1] = false := by decide +kernel

theorem witness_PairedOperations :
    let add := shortOf 0x0822
    let sub := shortOf 0x0C83
    let dep := shortOf 0x0C23
    let bad := shortOf 0x6000
    let op := Obligations.shapePair add sub
    add.legal = true ∧ sub.legal = true ∧ bad.legal = false ∧ dependent add sub = false ∧ dependent add dep = true ∧
    add.isMem = false ∧ sub.isMem = false ∧ up.ready .mgt0 op = true ∧ up.ready .mgt0 (Obligations.shapePair add dep) = true := by
  decide +kernel

/-- A fill of words from `g1` through `c3`. -/
def fill : Word := BitVec.ofNat 32 (0x27 * 2 ^ 25 + 3 * 2 ^ 22 + 2 ^ 16 + 2 * 2 ^ 14 + 2 ^ 8)

theorem witness_BlockRepeat :
    let op := Obligations.shapeRepeat fill
    let n (v : Word) (g31 : Word) : State := mgt (fun k => { k with regs := (k.regs.set 29 v).set 31 g31, caps := k.caps.set 3 l2 })
    let x : Str := { cd := 3, cs := 0, kind := 1, size := 2, down := false, rd := 1 }
    strOf fill = some x ∧ strOf 0 = none ∧ (n 0 0).ready .mgt0 op = true ∧ ((n 0 0).issued .mgt0 op).fetchNext 2 = none ∧
    ((n 0 0).issued .mgt0 op).gr 2 29 = 0 ∧
    (let r := (up.modCore 0 (fun k => { k with regs := k.regs.set 29 2, caps := k.caps.set 3 l2 })).blockLoop 0 x 2
     r.1 = true ∧ r.2.2 = none) ∧
    (let r := (up.modCore 0 (fun k => { k with regs := (k.regs.set 29 1).set 31 0x100000, caps := k.caps.set 3 l2 })).blockLoop 0 x 1
     r.1 = false ∧ r.2.2.isSome = true) ∧
    (let s := n 2 0xFFFF8
     (s.core[2]).ien = 0 ∧ (s.gr 2 29).toNat = 2 ∧ (s.gr 2 31).toNat = 0xFFFF8 ∧
       s.access 2 3 pWR 0xFFFF8 4 true = .ok 0x200FFFF8 ∧ s.access 2 3 pWR 0xFFFFC 4 true = .ok 0x200FFFFC) := by
  decide +kernel

/-! ### Witnesses: registers and tracks -/

/-- MGT0 as an agent of the bus; `reach` says that it reads and writes the register at `a`. -/
def m0 : Agent := .core .mgt0
def reach (s : State) (a : Nat) : Bool := s.busOk m0 a true && s.busOk m0 a false &&
  (!onAoBus a || s.on APM_CLKSTAT.BRCRUN)

theorem witness_RegisterAccess : reach up (TRK_OFFS.adr 15) = true ∧ reach up APM_MODE.adr = true ∧
    up.busOk m0 0x30000002 true = false ∧ up.busOk (.core .ctl0) SEC_DBG.adr false = false ∧
    (let s := up.set APM_CLKSTAT.BRCRUN 0
     s.busOk m0 APM_MODE.adr true = true ∧ onAoBus APM_MODE.adr = true ∧ s.on APM_CLKSTAT.BRCRUN = false) ∧
    (let l : List FieldSpec := [⟨31, 31, .rw, 0⟩, ⟨30, 30, .lk, 0⟩, ⟨29, 29, .cd, 0⟩, ⟨28, 28, .w1c, 0⟩, ⟨27, 27, .w1s, 0⟩,
       ⟨0, 0, .ro, 0⟩]
     (accMask l .rw).getLsbD 31 = true ∧ (accMask l .lk).getLsbD 30 = true ∧ (accMask l .cd).getLsbD 29 = true ∧
       (accMask l .w1c).getLsbD 28 = true ∧ (accMask l .w1s).getLsbD 27 = true ∧ (accMask l .ro).getLsbD 0 = true ∧
       (accMask l .rw).getLsbD 0 = false) := by decide +kernel

/-- Track 15 enabled with source type `ty`, in the state `t`. -/
def track (ty : Nat) (t : TrkSt) : State :=
  ((up.set (TRK_CTRL.EN 15) 1).set (TRK_CTRL.TYPE 15) ty).modTrk 15 (fun _ => t)

/-- A seeded, valid track that turns. -/
def turning : TrkSt := { TrkSt.reset with seeded := true, valid := true, vel := 0x1000000 }
def meas : Meas := { m := 7, ts := 15990, due := 1000, lowAmp := false }
def seen (lineB level : Bool) (ts : Nat) : SeenEdge := { lineB := lineB, level := level, ts := ts }
def frame (start until_ : Nat) (live : Bool) : SsiFrame := { start := start, bits := 13, per := 4, until_ := until_, live := live }

theorem witness_TrackSources_measurements :
    let q (t : TrkSt) : State := (track 2 t).set (TRK_SRCB.GLITCH 15) 3
    let e (l : List SeenEdge) : State := q { turning with edges := l }
    let w := q { turning with waiting := [meas] }
    let b := (q { turning with src := 0x800000000000 }).set (TRK_SRCA.CPT 15) 4
    (up.nextDue 15 = none ∧ (w.nextDue 15).isSome = true ∧ (w.trk[15]).waiting = [meas] ∧ meas.due ≤ w.now ∧
      (w.trk[15]).seeded = true ∧ (w.trk[15]).lost = false ∧ (w.trk[15]).coast = false ∧ w.trkType 15 = 2 ∧
      (track 1 turning).trkType 15 = 1) ∧
    (let s := e [seen false true 995]
     (s.trk[15]).edges = [seen false true 995] ∧ s.edgeDue 15 995 ≤ s.now ∧ s.trkEn 15 = true ∧ s.trkType 15 = 2 ∧
       (s.trk[15]).waiting = [] ∧ (s.trk[15]).shares = [] ∧ (quadIx true false + 4 - quadIx false false) % 4 = 1 ∧
       (quadIx false true + 4 - quadIx false false) % 4 = 3 ∧ (s.trk[15]).lineA = false ∧ (s.trk[15]).lineB = false) ∧
    (up.now < 1000 + 2 ∧ (∀ k : Fin 16, (up.trk[k]).edges = []) ∧
      (let s := e [seen false false 998]
       1000 < 998 + s.get (TRK_SRCB.GLITCH 15) ∧ (∀ k : Fin 16, k ≠ 15 → (s.trk[k]).edges = []) ∧
         s.enc[(Fin.ofNat 8 (s.get (TRK_CTRL.IFACE 15)) : Fin 8)] = ⟨false, false⟩)) ∧
    (b.beyond 15 = true ∧ (b.trk[15]).passed ≠ some (b.farBoundary 15) ∧ (b.trk[15]).gate ≠ some b.now ∧
      (b.trk[15]).checked ≠ some b.now ∧ (b.trk[15]).edges = [] ∧ (q turning).beyond 15 = false) := by decide +kernel

theorem witness_TrackSources_index :
    let e (cnt : Int) (h : Bool) (zen zhome : Nat) : State :=
      (((track 2 { turning with cnt := cnt, homed := h }).set (TRK_SRCA.ZEN 15) zen).set (TRK_SRCA.ZHOME 15) zhome).set
        (TRK_SRCB.IDXTOL 15) 1
    let u (s : State) : State := s.reach (990 + 2 + s.get (TRK_SRCB.GLITCH 15))
    let far (s : State) : Bool :=
      let r := (s.trk[15]).cnt % (s.cpt 15 : Int)
      decide (s.get (TRK_SRCB.IDXTOL 15) ≠ 0 ∧ (s.get (TRK_SRCB.IDXTOL 15) : Int) < min r (s.cpt 15 - r))
    (let s := u (e 0 false 1 0)
     s.on (TRK_SRCA.ZEN 15) = true ∧ s.on (TRK_SRCA.ZHOME 15) = false ∧ s.trkType 15 = 2 ∧ s.trkEn 15 = true) ∧
    (u (e 0 false 0 0)).on (TRK_SRCA.ZEN 15) = false ∧
    (let s := u (e 0 false 0 1)
     s.on (TRK_SRCA.ZHOME 15) = true ∧ (s.trk[15]).homed = false ∧ (s.trk[15]).lost = false) ∧
    (let s := u ((e 0 false 0 1).modTrk 15 (fun t => { t with lost := true }))
     (s.trk[15]).homed = false ∧ (s.trk[15]).lost = true) ∧
    (let s := u (e 2 true 0 1)
     (s.trk[15]).homed = true ∧ far s = true) ∧ far (u (e 1 true 0 1)) = false ∧ up.trkEn 15 = false := by decide +kernel

theorem witness_TrackSources_ssi :
    let q (f : Option SsiFrame) : State :=
      ((track 3 { turning with ssi := f }).set (TRK_SRCB.POLL 15) 1).set (TRK_SRCB.JUMP 15) 0
    let s := q none
    (s.arrived = [] ∧ s.ssiDrives 15 = true ∧ s.on (TRK_SRCB.POLL 15) = true ∧ s.pollAt 15 ≤ s.now ∧
      (s.trk[15]).ssiBusy s.now = false ∧ (s.trk[15]).ssi = none ∧ up.ssiDrives 15 = false) ∧
    (let b := q (some (frame 999 2000 true))
     b.pollAt 15 ≤ b.now ∧ (b.trk[15]).ssiBusy b.now = true) ∧
    ((frame 946 2000 false).live = false ∧ (frame 946 2000 true).start + 13 * 4 + 2 ≤ s.now ∧
      (q (some (frame 946 2000 true))).ssiPeers 15 = [15] ∧ s.on (TRK_SRCA.GRAY 15) = false ∧
      s.get (TRK_SRCB.JUMP 15) = 0) := by decide +kernel

theorem witness_TrackMotion_prediction :
    let l : CoreLoad := { cycle := 999, ang := 5, vel := 6, acc := 7 }
    let s := track 5 { turning with vel := 0x7FFFFFFFFFFF, acc := 1 }
    let d := track 5 { turning with load := some l }
    (s.trk[15]).seeded = true ∧ (s.trk[15]).lost = false ∧ s.trkEn 15 = true ∧ s.loadDue 15 = false ∧ s.trkType 15 = 5 ∧
    (track 1 turning).trkType 15 = 1 ∧ d.loadDue 15 = true ∧ (d.trk[15]).load = some l ∧ l.cycle < d.now ∧
    (up.trk[15]).seeded = false ∧ (track 4 { turning with lost := true }).trkType 15 = 4 := by decide +kernel

theorem witness_TrackMotion_loss :
    let w (ty c : Nat) (t : TrkSt) : State := (track ty t).set (TRK_FILT.COAST 15) c
    let s := w 1 1 turning
    (s.trkEn 15 = true ∧ s.trkType 15 = lossType .amplitude ∧ (s.trk[15]).valid = true ∧ (s.trk[15]).coast = false ∧
      s.get (TRK_FILT.COAST 15) ≠ 0 ∧ (w 1 0 turning).get (TRK_FILT.COAST 15) = 0 ∧ up.trkEn 15 = false ∧
      ((w 1 1 { turning with valid := false }).trk[15]).valid = false) ∧
    (let p := w 4 1 { turning with lock := true }
     p.trkType 15 = 4 ∧ (p.trk[15]).lock = true ∧ ((w 4 1 turning).trk[15]).lock = false) ∧
    (let h : State := { w 6 1 turning with now := 3125 }
     (h.trk[15]).staleAt ≤ h.now ∧ (h.trk[15]).loss = false ∧ (w 6 1 turning).now < ((w 6 1 turning).trk[15]).staleAt) ∧
    (let c (n : Nat) : State := w 1 n { turning with coast := true }
     ((c 1).trk[15]).coast = true ∧ (c 1).now < ((c 1).trk[15]).coastAt + 1250 * min 1000 ((c 1).get (TRK_FILT.COAST 15)) ∧
     ((c 0).trk[15]).coastAt + 1250 * min 1000 ((c 0).get (TRK_FILT.COAST 15)) ≤ (c 0).now) := by decide +kernel

theorem witness_TrackRegisters :
    let x (a b : Word) : CtlChange := { cycle := 999, ctrl0 := a, srca0 := 0, ctrl1 := b, srca1 := 0 }
    let d (a b : Word) : State := track 0 { turning with ctl := [x a b] }
    (reach up (TRK_ANG.adr 15) = true ∧ reach up (TRK_OBS_ANG.adr 15) = true ∧ reach up (TRK_FLAGS.adr 15) = true ∧
      reach up (TRK_CTRL.adr 15) = true ∧ (∀ p : Fin 32, up.pairState p ≠ pRun)) ∧
    (up.trkEn 15 = false ∧ (track 0 turning).trkEn 15 = true ∧
      (up.get (TRK_CTRL.MULT 15) ≠ (3#7).toNat) ∧
      ((track 1 { turning with loss := true }).trk[15]).loss = true ∧
      ((track 1 { TrkSt.reset with lost := true }).trk[15]).loss = false ∧
      (track 1 turning).clearable (TRK_FLAGS.LOST 15) = true ∧
      ((track 1 turning).raise (TRK_FLAGS.LOST 15)).clearable (TRK_FLAGS.LOST 15) = false) ∧
    (((d 1 0).trk[15]).ctl = [x 1 0] ∧ (x 1 0).cycle < (d 1 0).now ∧ fieldOf (x 1 0).ctrl0 0 0 = 1 ∧
      fieldOf (x 1 0).ctrl1 0 0 = 0 ∧ fieldOf (x 0 1).ctrl0 0 0 = 0 ∧ fieldOf (x 0 1).ctrl1 0 0 = 1) := by decide +kernel

/-! ### Witnesses: Almanac, fabric and mailboxes -/

/-- The entry `i` of the Almanac, armed at position 0 for track 15 with mode `m`. -/
def armed (i m : Nat) (s : State) : State := s.wr (almAddr i 1) (BitVec.ofNat 32 (0x8000 + 15 + 64 * m))

theorem witness_AlmanacCommands :
    let near := (track 0 { turning with oang := 0xFFFFFFFF, turn := 0xFFFF, ovel := 0x20000 }).set (ALM_TRK_CFG.HOLD 15) 0
    let a : AlmSt := { frontier := 0xFFFFFFFFFFFF, queue := [], lastIssue := some 999, scanned := none }
    let s : State := { armed 1023 1 near with alm := near.alm.set 15 a }
    let e : State := { near with alm := near.alm.set 15 { a with frontier := 5 } }
    let f : Firing := { t := 16 * 1001, entry := 7, tasks := [0xA0], fork := none }
    let q : State := { near with alm := near.alm.set 15 { a with queue := [f] } }
    ((∀ m : Fin 4, fieldOf ((armed 1023 m up).almWord 1023 1) 7 6 = m) ∧ up.almc.cycle ≠ up.now ∧
      (let l := up.wr (almAddr 1023 1) (BitVec.ofNat 32 (0x80CF + 2 ^ 16 * 1023))
       fieldOf (l.almWord 1023 1) 25 16 = 1023 ∧ fieldOf (l.almWord 1023 1) 7 6 = 3)) ∧
    ((up.alm[15]).scanned ≠ some up.now ∧ up.takes blkALM = true ∧
      (up.set (ALM_TRK_CFG.HOLD 15) 1).on (ALM_TRK_CFG.HOLD 15) = true ∧ (State.reset).takes blkALM = false) ∧
    (e.almScans 15 = true ∧ e.commit = none ∧ e.upset = [] ∧ e.almCandidates 15 false 5 = [] ∧ near.trkEn 15 = true ∧
      near.on (ALM_TRK_CFG.HOLD 15) = false) ∧
    (s.almScans 15 = true ∧ s.commit = none ∧ s.upset = [] ∧ s.almCandidates 15 false 0xFFFFFFFFFFFF = [(1, 1023)] ∧
      (crossAt false (posAhead false 0xFFFFFFFFFFFF 1) (s.trk[15]).pos (s.trk[15]).ovel.toInt 2 s.now).isSome = true) ∧
    (nextFiring [f] = some f ∧ q.runs blkALM = true ∧ (q.alm[15]).queue = [f] ∧ f.t / 16 ≤ q.now + 1 ∧ 999 < q.now ∧
      (e.alm[15]).queue = []) ∧
    reach up ALM_ARM.adr = true ∧ up.runs blkALM = true ∧ up.bit CPM_CLKEN.BLOCKS blkALM = true ∧
      (∀ j : TrackId, (up.alm[j]).queue = []) := by
  decide +kernel

theorem witness_FabricAndMailboxes :
    let bit := up.setBitOf (EVF_CORE_PEND.PEND 3) 7 true
    let q (host : Bool) (l : List Word) : State := up.setQueue 15 host l
    ((up.set APM_CLKSTAT.BRCRUN 0).on APM_CLKSTAT.BRCRUN = false ∧ up.bit (EVF_CORE_PEND.PEND 0) 0 = false ∧
      bit.bit (EVF_CORE_PEND.PEND ((0xBF - 0xA0) / 8)) (0xBF % 8) = true ∧ SMap.get (fun _ => 0) bit.evtAt 0xBF ≠ bit.now + 1 ∧
      up.on APM_CLKSTAT.BRCRUN = true) ∧
    (let w := { q true [7] with upset := [(eccWord (mbxCell 15 true), 2)] }
     w.spoilt (mbxCell 15 true) = true ∧ w.mbxQueue 15 true = [7] ∧ (q true [7]).upset = []) ∧
    reach up EVF_SWEV.adr = true ∧ reach up EVF_AO_SWEV.adr = true ∧ reach up (MBX_HPUSH.adr 15) = true ∧
    reach up (MBX_DPUSH.adr 15) = true ∧ reach up (MBX_HPOP.adr 15) = true ∧ reach up (MBX_DPOP.adr 15) = true ∧
    reach up MBX_BELL_SET.adr = true ∧ up.mbxQueue 15 true = [] ∧ (q true (words 8)).mbxQueue 15 true = words 8 ∧
    (q false (words 7)).mbxQueue 15 false = words 7 ∧ up.bit CPM_CLKEN.BLOCKS blkEVF = true ∧
    up.bit CPM_CLKEN.BLOCKS blkMBX = true := by decide +kernel

/-! ### Witnesses: converters, comparators and slices -/

/-- A task that arrived in cycle `c`. -/
def arrival (task c : Nat) : Arrival := { task := task, inst := none, cycle := c }
def arrives (s : State) (task : Nat) : State := { s with arrived := [arrival task 1000] }

theorem witness_ConverterSampling :
    let on := ((up.set (CV_CFG.EN 23) 1).set (CV_CFG.BURST 23) 0).set (CV_SEQ.AUTO 23) 0
    let s (task c : Nat) : State := { on with arrived := [arrival task c] }
    let busy := (s 23 999).modCv 23 (fun c => { c with busyFrom := 0, busyTo := 20000 })
    let free := on.set (CV_CFG.MODE 23) 1
    let odd : State := { free with now := 1001 }
    (up.arrived = [] ∧ (s 23 999).arrived = [arrival 23 999] ∧ on.cvEn 23 = true ∧ on.on (CV_CFG.MODE 23) = false ∧
      on.get (CV_CFG.BURST 23) = 0 ∧ on.on (CV_SEQ.AUTO 23) = false ∧ (arrival 23 999).cycle ≤ on.now) ∧
    (let x := sampleAt none 999
     ¬ ((on.cv[23]).busyFrom ≤ x.1 ∧ x.1 < (on.cv[23]).busyTo) ∧ x.1 / 16 ≤ on.now ∧ (busy.cv[23]).busyFrom ≤ x.1 ∧
       x.1 < (busy.cv[23]).busyTo) ∧
    (free.cvEn 23 = true ∧ free.on (CV_CFG.MODE 23) = true ∧ free.evenPhase free.now = true ∧
      (free.cv[23]).lastFree ≠ some free.now ∧ free.on (CV_SEQ.AUTO 23) = false ∧ odd.evenPhase odd.now = false ∧
      up.cvEn 23 = false) ∧
    ((s (0x18 + 23) 1000).arrived = [arrival 0x2F 1000] ∧ (s (0x30 + 23) 1000).arrived = [arrival 0x47 1000] ∧
      (on.cv[23]).rewound ≠ some on.now ∧ (on.cv[23]).advanced ≠ some on.now ∧ (on.cv[23]).selWritten ≠ some on.now) := by
  decide +kernel

theorem witness_ConverterResults :
    let x : Sample := { inst := 15760, tag := 7, ain := 63, gain := 3, trim := 2, tail := false }
    let r : CvResult := { val := -2048, tag := 7, ovr := false, avg := false, tail := false, inst := 16000, taken := false }
    let s := up.modCv 23 (fun c => { c with flight := [x], raw := some r })
    (up.cv[23]).flight = [] ∧ (s.cv[23]).flight = [x] ∧ x.inst / 16 + 15 ≤ s.now ∧ s.get (CV_AVG.K 23) = 0 ∧ (s.cv[23]).raw = some r ∧ r.tag < 8 ∧
    (up.cv[23]).raw = none ∧ reach up (CV_SEL.adr 23) = true ∧ reach up (CV_DATA.adr 23) = true ∧
    reach up (CV_CFG.adr 23) = true ∧ (∀ p : Fin 32, up.pairState p ≠ pRun) ∧ (up.set (CV_CFG.EN 23) 1).get (CV_CFG.EN 23) = 1 := by
  decide +kernel

theorem witness_Comparators :
    let on := up.set (CMP_CFG.EN 31) 1
    let held (since : Nat) : State := (on.set (CMP_STAT.BLANK 31) 1).modCmp 31 (fun c => { c with blankAt := since })
    let filt := on.set (CMP_CFG.FILT 31) 5
    (up.cmpEn 31 = false ∧ (held 1000).cmpEn 31 = true ∧ (held 1000).on (CMP_STAT.BLANK 31) = true ∧
      filt.cmpEn 31 = true ∧ filt.on (CMP_STAT.BLANK 31) = false ∧ filt.get (CMP_CFG.FILT 31) ≠ 0 ∧
      on.get (CMP_CFG.FILT 31) = 0) ∧
    ((on.cmp[31]).outAbove = on.on (CMP_STAT.ABOVE 31) ∧ (on.cmp[31]).outBelow = on.on (CMP_STAT.BELOW 31) ∧
      (on.cmp[31]).outOutside = (on.on (CMP_STAT.ABOVE 31) || on.on (CMP_STAT.BELOW 31))) ∧
    ((filt.set (CMP_STAT.ABOVE 31) 1).cmpPassAt 31).isSome = true ∧
    ((held 975).cmp[31]).blankAt + 25 ≤ (held 975).now ∧ (held 976).now < ((held 976).cmp[31]).blankAt + 25 := by
  decide +kernel

theorem witness_SliceCommands :
    let on := up.set (SLC_CTRL.EN 15) 1
    let t : Trig := { inst := 16000, cycle := 1000 }
    let s := on.modSlc 15 (fun x => { x with trigs := [t] })
    let timer (n from_ : Nat) : State := ({ on.set (SLC_TRIG.MODE 15) 2 with now := n } : State).modSlc 15 (fun x =>
      { x with timerFrom := from_, timerPer := 625 })
    (up.arrived = [] ∧ (up.slc[15]).trigs = [] ∧ (s.slc[15]).trigs = [t] ∧ s.slcMode 15 ≠ 2 ∧ s.upset = [] ∧
      up.on (SLC_CTRL.EN 15) = false) ∧
    ((timer 1000 375).slcMode 15 = 2 ∧ (timer 1000 375).on (SLC_CTRL.EN 15) = true ∧ (timer 1000 375).takes blkSLC = true ∧
      375 + 625 ≤ (timer 1000 375).now ∧ (timer 1000 375).trigOk 15 = true ∧ (timer 999 375).now < 375 + 625 ∧
      ((timer 1000 375).set (SLC_STAT.TWIN 15) 1).trigOk 15 = false) ∧
    (reach up (SLC_STAT.adr 15) = true ∧ reach up (SLC_REF.adr 15 31) = true ∧ reach up (SLC_CMD.adr 15) = true ∧
      reach up (SLC_CTRL.adr 15) = true ∧ reach up (storeAddr 15 7 31 1) = true ∧ reach up (SLC_ENERGY_LO.adr 15) = true) ∧
    (up.slcDisarmed 15 = true ∧ (∀ p : Fin 32, up.pairState p ≠ pRun) ∧ (up.slc[15]).refs = [] ∧
      (up.slc[15]).switched.1 ≠ up.now ∧ (up.set (SLC_STAT.TWIN 15) 1).get (SLC_STAT.TWIN 15) = 1 ∧
      (up.set (SLC_STAT.TWIN 15) 1).clearable (SLC_STAT.TWIN 15) = true ∧
      (up.raise (SLC_STAT.TWIN 15)).clearable (SLC_STAT.TWIN 15) = false) ∧
    (let w := up.modSlc 15 (fun x => { x with switched := (1000, [31]) })
     (w.slc[15]).switched.1 = w.now ∧ (w.slc[15]).switched.2.contains 31 = true) ∧
    (let z := arrives on 0x67
     z.arrived = [arrival (0x58 + 15) 1000] ∧ z.runs blkSLC = true) := by decide +kernel

theorem witness_MicroOps : ∀ op ∈ [0x01, 0x02, 0x03, 0x04, 0x06, 0x07, 0x08, 0x0A],
    let w0 : Word := BitVec.ofNat 32 (op * 2 ^ 26 + 15 * 2 ^ 21 + 3 * 2 ^ 16 + 4 * 2 ^ 11)
    fieldOf w0 31 26 = op ∧ fieldOf w0 25 21 = 15 ∧ fieldOf w0 20 16 = 3 ∧ fieldOf w0 15 11 = 4 := by decide +kernel

/-! ### Witnesses: gates and Granary -/

/-- Pair 31 in state `st`. -/
def gate (st : Nat) (s : State) : State := s.set (GOU_PAIR_STAT.STATE 31) st

theorem witness_ArmingAndTrips :
    let field := up.set APM_MODE.MODE mField
    let run := gate pRun field
    let safe := gate pSafe field
    let trip := safe.set (GOU_PAIR_STAT.TRIP 31) 1
    let asks (b : Bool) : State := field.modPair 31 (fun q => { q with ask := some b })
    (reach up GOU_ARMREQ.adr = true ∧ reach up GOU_DISARM.adr = true ∧ reach up GOU_TRIPCLR.adr = true ∧
      (0x80000000#32).getLsbD 31 = true) ∧
    (field.pairState 31 ≠ pRun ∧ field.on (GOU_PAIR_STAT.TRIP 31) = false ∧ (field.pair[31]).disarmAt ≠ some field.now ∧
      ((asks true).pair[31]).ask = some true ∧ ((asks false).pair[31]).ask = some false ∧
      run.pairState 31 = pRun ∧ safe.pairState 31 = pSafe ∧ safe.on (GOU_PAIR_STAT.TRIP 31) = false ∧
      trip.on (GOU_PAIR_STAT.TRIP 31) = true ∧ trip.causeGone 31 = true) ∧
    (let x := (((up.modTrk 15 (fun t => { t with lost := true })).set (GOU_PAIR_CFG.GRP 31) 128).wr (GOU_ROUTE.adr 13)
        0x8000)
     x.fastUp = true ∧ x.inputLevel (38 + 15) = true ∧
       x.routeOf (38 + 15) &&& x.get (GOU_PAIR_CFG.GRP 31) ≠ 0) ∧
    (∀ m : Fin 4, (safe.set (GOU_PAIR_CFG.SAFE 31) m).get (GOU_PAIR_CFG.SAFE 31) = m) ∧
    (safe.pair[31]).lo = false ∧ (safe.pair[31]).hi = false := by decide +kernel

theorem witness_GateEvents :
    let run := gate pRun (up.set APM_MODE.MODE mField)
    let on (m : Nat) : State := gate pRun ((((track 0 turning).set APM_MODE.MODE mField).set (GOU_PAIR_CFG.TRACK 31) 15).set
      (GOU_PAIR_CFG.MODE 31) m)
    ((up.pair[31]).scanned ≠ some up.now ∧ up.pairScans 31 = false ∧ up.gMode 31 = gmCarrier ∧
      up.trkType (up.pairTrack 31) = 0 ∧
      (let c := (track 1 turning).set (GOU_PAIR_CFG.TRACK 31) 15
       c.gMode 31 = gmCarrier ∧ c.trkType (c.pairTrack 31) ≠ 0 ∧ c.fastUp = true ∧ c.runs blkGOU = true)) ∧
    ((on gmCarrier).pairScans 31 = true ∧ (on gmCarrier).gMode 31 = gmCarrier ∧ (on gmCarrier).trkType 15 = 0 ∧
      (on gmPattern).pairScans 31 = true ∧ (on gmPattern).gMode 31 = gmPattern) ∧
    (let o := run.modPair 31 (fun q => { q with owed := some (16015, true) })
     let e (t : Nat) : State := (run.modPair 31 (fun q => { q with edges := [{ t := t, lvl := true }] })).set
       (GOU_PAIR_DEAD.TIME 31) 1
     (run.pair[31]).edges = [] ∧ (run.pair[31]).owed = none ∧ (o.pair[31]).owed = some (16015, true) ∧ 16015 / 16 ≤ o.now ∧
       ((e 16015).pair[31]).edges = [{ t := 16015, lvl := true }] ∧ ((e 16015).pair[31]).owed = none ∧
       ((e 16015).pair[31]).lastT = none ∧ true ≠ (e 16015).on (GOU_PAIR_STAT.HCMD 31) ∧
       (e 16015).get (GOU_PAIR_DEAD.TIME 31) ≠ 0 ∧ (e 16016).now < 16016 / 16 + 1 ∧ (e 16032).now < 16032 / 16) ∧
    (let d := arrives ((run.set (GOU_PAIR_CFG.MODE 31) gmDirect).set (GOU_PAIR_WORD.WORD 31) 7) 0x87
     d.arrived = [arrival (0x68 + 31) 1000] ∧ d.runs blkGOU = true ∧ d.pairState 31 = pRun ∧ d.gMode 31 = gmDirect ∧
       (d.pair[31]).pulse = none ∧ (d.rd (GOU_PAIR_WORD.adr 31)).toNat ≠ 0) ∧
    ((up.tripin[3]).level = false ∧ up.bit CPM_CLKEN.BLOCKS blkGOU = true ∧ (∀ q : Fin 32, up.pairState q = pOff)) := by
  decide +kernel

theorem witness_GranaryCommands :
    let at_ (n : Nat) : State := up.set GRN_STAT.STATE n
    let runs := at_ gRun
    let post (n : Nat) : State :=
      let s := (at_ gPost).wr GRN_POST.adr 64
      { s with grn := { s.grn with post := n } }
    let b : GBlock := { stream := 0, kind := 1, first := 16000, elems := [], drops := 0, trig := false, frozen := false, seq := 0 }
    (reach up GRN_CMD.adr = true ∧ runs.grnState = gRun ∧ (runs.set GRN_POST.KB 1).on GRN_POST.KB = true) ∧
    ((arrives runs 0x98).arrived = [arrival 0x98 1000] ∧ (arrives runs 0x99).arrived = [arrival 0x99 1000] ∧
      runs.runs blkGRN = true) ∧
    ((arrives runs 0x9F).arrived = [arrival (0x9A + 5) 1000] ∧ runs.grnOpen = true ∧ runs.grn.marks.length < 64 ∧
      64 ≤ (List.replicate 64 (2, 3)).length) ∧
    ((post 1).grnState = gPost ∧ ((post 1).rd GRN_POST.adr).toNat ≤ 64 * (post 1).grn.post ∧
      64 * (post 0).grn.post < ((post 0).rd GRN_POST.adr).toNat) ∧
    (let a (t : Nat) : State :=
       let s := runs.wr GRN_FRZTIME_LO.adr (BitVec.ofNat 32 t)
       { s with grn := { s.grn with armed := true } }
     (a 800).grn.armed = true ∧ (a 800).cycleOfPtp (a 800).grnFrzTime ≤ (a 800).now ∧ (a 800).grnState = gRun ∧
       (a 801).now < (a 801).cycleOfPtp (a 801).grnFrzTime) ∧
    (let g := GStream.mk 0 0x01000000 0 none 0
     let w := { runs with grn := { runs.grn with queue := [b], size := 1, streams := [g] } }
     w.grn.queue = [b] ∧ w.grn.stream 0 = some g ∧ 0 < w.grn.size ∧ w.upset = [] ∧
       (w.blockHeader g b (b.payload g.glean).length ++ b.payload g.glean).length ≤ 65536 ∧
       ({ w with upset := [(eccWord (grnCell 0), 2)] } : State).spoilt (grnCell 0) = true) ∧
    (up.bit CPM_CLKEN.BLOCKS blkGRN = true ∧ up.grnState ≠ gRun ∧ up.grnState ≠ gPost ∧ up.grn.queue = []) := by
  decide +kernel

/-! ### Witnesses: power, clocks, supplies and resets -/

/-- Domain `d` in phase `p`. -/
def phase (d : Fin 3) (p : DomPhase) : State := up.modDom d (fun x => { x with phase := p, since := 1000 })

theorem witness_ModesAndVotes :
    (reach up APM_MODE.adr = true ∧ reach up APM_VOTE_SET.adr = true ∧ reach up APM_VOTE_CLR.adr = true ∧
      reach up CPM_CLKEN.adr = true) ∧
    (up.mode = mBarn ∧ (gate pRun (up.set APM_MODE.MODE mField)).anyArmed = true ∧ up.anyArmed = false ∧
      (up.set APM_MODE.MODE mField).mode = mField ∧ (up.set APM_MODE.MODE mYard).mode = mYard) ∧
    (let d := (phase 1 .descending).reach 1001
     (d.dom[1]).phase = .descending ∧ d.grn.queue = []) ∧
    (let f : State := (phase 0 .descending).set CPM_CLKRUN.BLOCKS 0
     ((f.reach 1001).dom[0]).phase = .descending ∧ (f.reach 1001).rd CPM_CLKRUN.adr = 0) ∧
    (((phase 2 .returning).dom[2]).phase = .returning ∧ (phase 2 .returning).mayRise 2 = true ∧
      ((phase 0 .returning).dom[0]).phase = .returning ∧ (phase 0 .returning).mayRise 0 = true ∧
      (phase 0 .returning).ao.toField = false ∧ (up.dom[0]).phase = .up) ∧
    (up.aoOn = true ∧ up.mode ≠ mCellar ∧ (up.set APM_WAKE_EN.SRC 0x7FF).bit APM_WAKE_EN.SRC 10 = true ∧
      (up.set APM_WAKE_EN.SRC 0).bit APM_WAKE_EN.SRC 10 = false ∧ (up.set APM_MODE.MODE mCellar).mode = mCellar ∧ State.reset.aoOn = false) ∧
    ((phase 2 .down).domUp .link = false ∧ (phase 2 .down).aoOn = true ∧ up.domUp .link = true) ∧
    (let w : State := { up with port := up.port.set 1 { PortLink.reset with pattern := true } }
     (w.port[1]).pattern = true ∧ (up.port[0]).pattern = false) ∧
    (let b : State := { up.setBitOf CPM_CLKEN.BLOCKS 9 false with stops := 512 }
     b.stops.testBit 9 = true ∧ b.blockIdle 9 = true ∧ b.bit CPM_CLKEN.BLOCKS 9 = false ∧ up.stops.testBit 9 = false) := by
  decide +kernel

theorem witness_Clocks :
    let slew := up.set CPM_CLK_STAT.SLEW 1
    let rec_ := up.set CPM_CLK_CTRL.SRC 1
    let hold := rec_.set CPM_CLK_STAT.HOLD 1
    let en := (up.set CPM_CLK_CTRL.HRCEN 1).set CPM_CLK_STAT.HRCRDY 0
    let xo := (up.set APM_CLK.XOEN 1).set APM_CLKSTAT.XORDY 0
    (reach up CPM_CLK_CTRL.adr = true ∧ rec_.get CPM_CLK_CTRL.SRC = 1 ∧ (rec_.set (readyFlag 0) 1).on (readyFlag 0) = true ∧
      (rec_.set (readyFlag 2) 0).on (readyFlag 2) = false) ∧
    (slew.on CPM_CLK_STAT.SLEW = true ∧ up.on CPM_CLK_STAT.SLEW = false) ∧
    (rec_.fastUp = true ∧ rec_.on CPM_CLK_STAT.HOLD = false ∧ 2 ≤ (up.set CPM_CLK_CTRL.SRC 2).get CPM_CLK_CTRL.SRC) ∧
    (hold.on CPM_CLK_STAT.HOLD = true ∧ hold.pll.waitHrc = false) ∧
    (en.fastUp = true ∧ en.on CPM_CLK_CTRL.HRCEN = true ∧ en.on CPM_CLK_STAT.HRCRDY = false) ∧
    (xo.aoOn = true ∧ xo.on APM_CLK.XOEN = true ∧ xo.on APM_CLKSTAT.XORDY = false ∧
      (xo.set APM_CLKSTAT.XORDY 1).on APM_CLKSTAT.XORDY = true) ∧
    up.brcAt = none := by decide +kernel

theorem witness_Supplies :
    let low : State := { up with ao := { up.ao with vsys := false } }
    let off : State := { low with ao := { low.ao with phase := .off } }
    let cellar := low.set APM_MODE.MODE mCellar
    let start : State := { up with ao := { up.ao with phase := .starting, full := true } }
    up.ao.vsys = true ∧ low.ao.vsys = false ∧ off.ao.phase = .off ∧ low.ao.phase ≠ .off ∧ low.mode ≠ mCellar ∧
    cellar.mode = mCellar ∧ cellar.ao.phase ≠ .off ∧ (up.set APM_MODE.MODE mCellar).mode = mCellar ∧
    (let full := cellar.set HRV_VSTORE.MV 65535
     full.vexit ≤ full.vstore) ∧ start.ao.phase = .starting ∧ start.ao.full = true ∧ start.ao.vsys = true ∧
    up.ao.phase ≠ .starting := by decide +kernel

theorem witness_ResetsAndBoot :
    let dog := up.set CPM_WDOG.EN 1
    let gone : State := { dog.set CPM_WDOG.RSTEN 1 with wdog := { since := 0, expired := some 1000 } }
    let ran := up.set CPM_BOOT.FWST 2
    (partyOf (.core .aoc) = .aoc ∧ (partyOf m0).isMgt = true ∧ reach up APM_RSTREQ.adr = true ∧ reach up CPM_WDOG.adr = true ∧
      reach up CPM_BOOT.adr = true ∧ reach up (CPM_PAIR_RST.adr 1) = true ∧ up.inBootRom m0 = true) ∧
    (up.on (CPM_PAIR_RST.HOLD 1) = false ∧ up.anyArmed = false ∧ up.on HRV_STAT.SEALING = false ∧
      (up.set HRV_STAT.SEALING 1).on HRV_STAT.SEALING = true) ∧
    (dog.fastUp = true ∧ dog.on CPM_WDOG.EN = true ∧ dog.wdog.expired = none ∧ gone.on CPM_WDOG.RSTEN = true ∧
      gone.wdog.expired = some 1000) ∧
    (up.get CPM_BOOT.FWST = 1 ∧ up.wdog.expired = none ∧ up.bootOrder.find? (fun (j : Fin 2) => up.slotOk j) = none) ∧
    ((let v := up.setImg 1 2
      (v.img[1]).state = 2) ∧ (up.img[1]).state ≠ 2) ∧
    (up.aocAwake = true ∧ (∀ j : Fin 2, up.headerOk j = false)) ∧
    (ran.fastUp = true ∧ 2 ≤ ran.get CPM_BOOT.FWST ∧ ran.recovering = false ∧ ran.restored = false ∧ ran.newestCopy = none) := by
  decide +kernel

theorem witness_CoresAfterReset : reach up APM_RSTREQ.adr = true ∧ reach up (CPM_PAIR_RST.adr 0) = true ∧
    (partyOf m0).isMgt = true ∧ up.ao.phase ≠ .off ∧ up.on HRV_STAT.SEALING = false := by decide +kernel

/-! ### Witnesses: calendar, purse and ledger -/

theorem witness_Calendar :
    let c : State := { up with cal := { CalSt.reset with sub := 32767, sec := 59 } }
    let w := (c.set RTC_PWAKE.EN 1).set RTC_PWAKE.COUNT 1
    let x : Shadow := { time := 1, date := 2, sub := 3, wday := 4, seen := 7, age := 32767 }
    let f : State := { up with cal := { CalSt.reset with shadow := some x } }
    (c.ao.phase ≠ .off ∧ c.on APM_CLKSTAT.XORDY = false ∧ c.cal.sub < 32768 ∧ c.cal.sec < 60) ∧
    ((c.set APM_CLKSTAT.XORDY 1).on APM_CLKSTAT.XORDY = true ∧ c.cal.counts < 2 ^ 20) ∧
    (w.on RTC_PWAKE.EN = true ∧ w.mode ≠ mCellar ∧ w.cal.part < 1 ∧ w.cal.units < max 1 (w.get RTC_PWAKE.COUNT)) ∧
    (reach up RTC_APPLY.adr = true ∧ setValid 0x173B3B (BitVec.ofNat 32 (2024 * 65536 + 2 * 256 + 29)) false 0 = true ∧
      setValid 0 0 false 0 = false) ∧
    (∀ k : Fin 4, reach up (RTC_TIME.adr + 4 * k) = true) ∧ reach up RTC_RELEASE.adr = true ∧
    (f.cal.shadow = some x ∧ x.age < 32768 ∧ up.cal.shadow = none) := by decide +kernel

theorem witness_PurseAndGrants :
    let store := (up.set HRV_STAT.SRC 0).set HRV_PURSE.UJ 1000
    let had := store.set (HRV_GRANT.GRANTED 3) 1
    let sealing := store.set HRV_STAT.SEALING 1
    let low : State := (up.set HRV_STAT.SRC 0).set HRV_PURSE.UJ 60
    (store.aoOn = true ∧ store.on (HRV_GRANT.GRANTED 3) = false ∧ store.on HRV_STAT.SEALING = false ∧
      store.on HRV_STAT.SRC = false ∧ 940 = store.get HRV_PURSE.UJ - max 60 (store.get HRV_TITHE.TITHE) - store.ao.reserved.toList.sum) ∧
    (had.on (HRV_GRANT.GRANTED 3) = true ∧ sealing.on HRV_STAT.SEALING = true ∧ (up.set HRV_STAT.SRC 1).on HRV_STAT.SRC = true) ∧
    ((up.set HRV_CTRL.HEN 1).on HRV_CTRL.HEN = true ∧ up.mode ≠ mCellar) ∧
    (low.warnCause = true ∧ low.ao.warned = false ∧ low.purse ≤ low.tithe ∧ low.on HRV_STAT.SEALING = false) ∧
    (let fin : State := { sealing with ao := { sealing.ao with vsys := false } }
     fin.on HRV_STAT.SEALING = true ∧ fin.ao.vsys = false ∧ fin.ao.restart = false) := by decide +kernel

theorem witness_HourLedger :
    let d : State := { up with lcs := .deployed, lgr := { LgrSt.reset with recovered := true } }
    let d := d.set HRV_STAT.SRC 1
    let e : LEvent := { type := 0x40, code := 1, payload := [], tick := 0 }
    let q : State := { d with lgr := { d.lgr with queue := [e] } }
    let h : State := { d with lgr := { d.lgr with hourDue := some (0, [1, 2]) } }
    let l : State := { d with lgr := { d.lgr with seals := [7] } }
    (d.lgrRuns = true ∧ d.on HRV_STAT.SRC = true ∧ d.lgr.hourDue = none ∧ d.lgr.queue = [] ∧ q.lgr.queue = [e] ∧
      h.lgr.hourDue = some (0, [1, 2]) ∧ l.lgr.seals = [7] ∧ l.lgrRuns = true ∧ up.lgrRuns = false) ∧
    (d.lgrTakes = true ∧ d.on LGR_STAT.FULL = false ∧ d.on HRV_STAT.SEALING = false ∧
      (d.set LGR_CTRL.TYPE 0x40).get LGR_CTRL.TYPE ≠ 0x24 ∧ 7 ∉ d.lgr.seals ∧ d.busOk (.core .aoc) LGR_CTRL.adr true = true) ∧
    (up.aoOn = true ∧ State.reset.lgr.recovered = false ∧ ({ up with lgr := LgrSt.reset } : State).aoOn = true ∧
      up.lcs = .maker) ∧
    ((up.set (LGR_TAMP_CFG.EN 3) 1).on (LGR_TAMP_CFG.EN 3) = true ∧ up.on (LGR_TAMP_CFG.EN 0) = false ∧
      (up.set LGR_PM_CFG.EN 1).on LGR_PM_CFG.EN = true ∧ up.mode = mBarn ∧ up.get LGR_PM_CFG.THR = 0) := by decide +kernel

/-! ### Witnesses: serial ports, touch, display, provisioning -/

theorem witness_SerialPorts :
    let on := (((up.set (U_CTRL.RXEN 3) 1).set (U_CTRL.TXEN 3) 1).set (U_CTRL.ABEN 3) 0).set (U_CTRL.ADDR9 3) 0
    let char (n : Nat) (b : Bool) : SerialChar := SerialChar.mk b (List.replicate n (Sample3.mk true true true)) 0
    let full := on.modUart 3 (fun u => { u with rx := List.replicate (on.rxSize 3) 1, tx := List.replicate (on.txSize 3) 1 })
    let nine := on.set (U_CTRL.ADDR9 3) 1
    let all := ((nine.set (U_CTRL.PAR 3) 0).set (U_CTRL.STOP2 3) 0)
    (on.uartListens 3 = true ∧ on.on (U_CTRL.ABEN 3) = false ∧ on.on (U_CTRL.ADDR9 3) = false ∧ (on.uart[3]).rx.length < on.rxSize 3 ∧
      (char 9 false).startHigh = false ∧ (char 9 true).startHigh = true ∧ on.on (U_CTRL.SH210 3) = false ∧
      up.uartListens 3 = false) ∧
    ((char 9 false).samples.length = 9 ∧ (on.on (U_CTRL.DATA9 3) || on.on (U_CTRL.ADDR9 3)) = false ∧
      on.get (U_CTRL.PAR 3) = 0 ∧ on.on (U_CTRL.STOP2 3) = false) ∧
    (full.rxSize 3 ≤ (full.uart[3]).rx.length ∧ full.txSize 3 ≤ (full.uart[3]).tx.length ∧ (full.uart[3]).rx ≠ [] ∧
      full.uartClock 3 = true ∧ full.on (U_CTRL.TXEN 3) = true ∧ full.on (U_CTRL.RXEN 3) = true) ∧
    (nine.uartListens 3 = true ∧ nine.on (U_CTRL.ADDR9 3) = true ∧ (all.rxChar 3 (char 10 false)).testBit 8 = true ∧
      (nine.uart[3]).matched = false) ∧
    (reach up (U_DATA.adr 3) = true ∧ reach up (U_CTRL.adr 3) = true ∧ reach up (U_QCFG.adr 0) = true ∧
      reach up (U_QCFG.adr 3) = true ∧ (up.uart[3]).tx = [] ∧ (up.uart[3]).rx = []) := by decide +kernel

theorem witness_TouchAndDisplay :
    let on := ((up.set TCH_CTRL.EN 1).set TCH_CTRL.KEYEN 0x8000).set TCH_CAL.DEB 1
    let rep (q : List TReport) : State := { up with tch := { TouchSt.reset with reports := q } }
    let lcd : State := { up.set LCD_CTRL.EN 1 with lcd := { LcdSt.reset with driving := true, load := some 0x3FE80 } }
    (on.tchClock = true ∧ on.on TCH_CTRL.EN = true ∧ up.on TCH_CTRL.EN = false ∧ on.tch.nextScan ≤ on.cal.ticks ∧
      on.on APM_CLKSTAT.BRCRUN = true ∧ (on.set TCH_STAT.CAL 1).on TCH_STAT.CAL = true) ∧
    (on.tchNoise = false ∧ on.on TCH_CTRL.MODE = false ∧ on.on TCH_CTRL.WETEN = false ∧ on.on TCH_STAT.WET = false ∧
      on.on TCH_STAT.CAL = false ∧ on.tch.recal = 0 ∧ on.get TCH_CAL.DEB ≤ 1) ∧
    (on.tchKeys = [15] ∧ on.tchPressed 15 = false ∧ on.get (TCH_KEY.BASE 15) < 65535 ∧
      on.get (TCH_KEY.BASE 15) + on.get TCH_THR.TTH ≤ 65535 ∧ on.tch.reports.length < 8) ∧
    (reach up TCH_RECAL_HI.adr = true ∧ reach up TCH_RECAL_LO.adr = true ∧ reach up TCH_REPORT.adr = true ∧
      reach up TCH_CTRL.adr = true ∧ up.tch.reports = [] ∧ (rep [{ key := 63, kind := 7 }]).tch.reports = [{ key := 63, kind := 7 }]) ∧
    ((arrives up 0xC8).arrivalsOf 0xC8 = [arrival 0xC8 1000] ∧ (arrives up 0xC9).arrivalsOf 0xC9 = [arrival 0xC9 1000] ∧
      (arrives up 0xC9).arrivalsOf 0xC8 = [] ∧ up.tchClock = true) ∧
    (reach up LCD_UPD.adr = true ∧ reach up LCD_TRIM.adr = true ∧ reach up LCD_CTRL.adr = true ∧ lcd.on LCD_CTRL.EN = true ∧
      lcd.lcd.driving = true ∧ lcd.lcdActive = true ∧ up.lcdActive = false ∧ lcd.lcd.load = some 0x3FE80 ∧
      up.lcd.driving = false ∧ up.lcd.load = none) ∧
    (up.on LCD_STAT.TRIMBUSY = false ∧ ¬ 0x40000 < fieldOf (0x3FE80#32) 17 0 + 384 ∧ 0x40000 < fieldOf (0x3FE81#32) 17 0 + 384) := by
  decide +kernel

theorem witness_ProvisioningAndDebug :
    let fw := up.set CPM_BOOT.FWST 2
    let put (n : Fin 16) (l : List Word) (p : PutInfo) : State :=
      { fw.setQueue n false l with puts := (fw.puts.set 0 (some p)).set 1 (some p),
                                   sessions := [{ tag := 7, key := 0, rights := 0x0FFF, last := none, count := 0, cycle := 0 }] }
    let p : PutInfo := { tag := 7, auth := true, life := true, count := 1 }
    let shut : State := { put 13 [0x44424755] p with lcs := .provisioned }
    (fw.firmwareUp = true ∧ fw.prov ++ (fw.chan[14]).dev = [] ∧ up.firmwareUp = false) ∧
    (let s := put 14 [0x00010002, 1] p
     s.prov ++ (s.chan[14]).dev = [0x00010002, 1] ∧ [1].length < fieldOf (0x00010002#32) 15 0) ∧
    (let s := put 14 [0x00020001, 1] p
     s.prov ++ (s.chan[14]).dev = [0x00020001, 1] ∧ fieldOf (0x00020001#32) 15 0 ≤ [1].length ∧ (s.chan[14]).host.length < 8) ∧
    (shut.firmwareUp = true ∧ shut.dbgChan = false ∧ (shut.chan[13]).dev = [0x44424755] ∧ shut.puts[0] = some p ∧
      (shut.session 7).isSome = true ∧ fw.dbgChan = true) ∧
    (let s := put 13 [0x00000000, 0x20000000] p
     let w := put 13 [0x80000000, 0x20000000, 9] p
     s.mbxOpen = true ∧ s.dbgChan = true ∧ (s.chan[13]).dev = [0, 0x20000000] ∧ (s.chan[13]).host.length < 8 ∧
       isRegAddr 0x20000000 = false ∧ s.debugMem 0x20000000 false = true ∧ (0x80000000#32).getLsbD 31 = true ∧
       (w.chan[13]).dev = [0x80000000, 0x20000000, 9] ∧ s.debugMem 0x20000000 true = true ∧ s.debugMem 0x20400000 false = false) ∧
    (fw.lcs ≠ .deployed ∧ fw.dbgOpen = true ∧ shut.dbgOpen = false ∧ shut.lcs ≠ .deployed) := by decide +kernel

/-! ### Witnesses: host commands -/

/-- The device on the ring as device 5, its firmware running, both ports up, and a session 7 with every right. -/
def host : State :=
  let s : State := { up with addr := some 5, restored := true, port := Vector.replicate 2 { PortLink.reset with up := true } }
  let x : Session := { tag := 7, key := 5, rights := 0xFFFF, last := none, count := 0, cycle := 1000 }
  { (s.set CPM_BOOT.FWST 2).set RING_CFG.ROOT 0 with sessions := [x] }

/-- A request in session 7. -/
def rqA : Req := { rq with auth := true, tag := 7 }

/-- The state in which a command is carried out. -/
def begun (s : State) (rq : Req) : State :=
  { (if rq.auth then s.useSession rq.tag rq.seq else s) with credits := s.credits - 1 }

/-- What a waiting request of session 7, or of none, is. -/
def waits (rq : Req) (c : HostCmd) : Waiting :=
  { rq := rq, op := hostOp c, key := if rq.auth then some 5 else none }

/-- What `Obligations.hosted` asks of the state and the command beside the judgement of the link responder. -/
def fits (s : State) (rq : Req) (c : HostCmd) : Bool :=
  (Obligations.asInstr rq c).wf && s.portUp rq.port && decide (rq.dst.toNat < 64) && s.addr == some rq.dst.toNat &&
    !s.on RING_CFG.ROOT && (begun s rq).hostCheck (waits rq c) (hostParams c) c == 0 && !rq.ackReq &&
    s.sessions.all (fun x => decide (x.count < 65534))

/-- What the judgement of the link responder asks of them. -/
def judged (s : State) (rq : Req) (c : HostCmd) : Bool :=
  s.kept == [] && s.fwst == 2 && s.credits != 0 && !isWindow (hostOp c) &&
    (!rq.auth || (match s.session rq.tag with | some x => x.key == 5 && seqFollows x.last rq.seq | none => false))

def taken (s : State) (rq : Req) (c : HostCmd) : Bool := fits s rq c && judged s rq c

/-- So the command is judged a command, and waits as `waits` says. -/
theorem taken_judge {s : State} {rq : Req} {c : HostCmd} (h : taken s rq c = true) :
    s.judge (s.incoming rq c) = .command ∧ s.waitingOf (s.incoming rq c) = waits rq c := by
  simp only [taken, judged, Bool.and_eq_true, beq_iff_eq, bne_iff_ne, Bool.not_eq_true', Bool.or_eq_true] at h
  obtain ⟨-, ⟨⟨⟨hk, hf⟩, hc⟩, hw⟩, ha⟩ := h
  cases hr : rq.auth
  · exact ⟨State.judge_plain hr hk hf hc hw, by
      rw [State.waitingOf, State.authBy_plain c hr]; simp [waits, hr, State.incoming]⟩
  · rw [hr] at ha
    cases hx : s.session rq.tag with
    | none => simp [hx] at ha
    | some x =>
      simp only [hx, Bool.and_eq_true, beq_iff_eq] at ha
      have ha := ha.resolve_left (by simp)
      exact ⟨State.judge_session hr hx ha.2 hk hf hc hw, by simp [State.waitingOf_session hr hx, waits, hr, ha.1]⟩

theorem witness_HostCommandRoundTrip :
    (Obligations.asInstr rq (.stageWrite 0x30000000 (words 2286))).wf = true ∧
      (Obligations.asInstr rqA (.returnRequest 1 2 3)).wf = true ∧ (0x88B5 : Nat) < 65536 ∧ (0x88B5 : Nat) ≠ 0x8100 := by
  decide +kernel

theorem witness_HostRequests :
    let down : State := { host with port := Vector.replicate 2 PortLink.reset }
    let st (n : Nat) : State := host.set CPM_BOOT.FWST n
    let w (s : State) (rq : Req) (c : HostCmd) : Waiting := s.waitingOf (s.incoming rq c)
    let code (s : State) (rq : Req) (c : HostCmd) : Nat := (begun s rq).hostCheck (w s rq c) (hostParams c) c
    let bad : Req := { rq with auth := true, tag := 9 }
    let r : Reply := { cmd := waits rq .identify, status := 0, params := [], credit := true }
    let again : State := { host with kept := [{ seq := 1, op := hostOp .identify, tag := 0, mac := rq.mac, reply := r }] }
    (fits host rq .identify = true ∧ down.portUp rq.port = false) ∧
    again.keptReply (again.incoming rq .identify) = some r ∧ host.keptReply (host.incoming rq .identify) = none ∧
    (host.keptReply (host.incoming bad .identify) = none ∧ host.authOk (host.incoming bad .identify) = false ∧
      host.authOk (host.incoming bad (.windowRead 0 1)) = false ∧ host.authOk (host.incoming rq .identify) = true) ∧
    ((st 1).fwst < 2 ∧ (st 4).fwst = 4 ∧ host.fwst = 2 ∧ (st 3).fwst = 3 ∧ host.credits ≠ 0 ∧
      ({ host with credits := 0 } : State).credits = 0) ∧
    (code host rq .identify = 0 ∧ code host rq (.captureRead 0 0) ≠ 0) ∧
    (host.authOk (host.incoming rq (.windowRead 0x2C 1)) = true ∧
      host.authOk (host.incoming rq (.windowRead 0 12)) = true ∧ host.lcs = .maker) := by decide +kernel

/-- `host` in DEPLOYED, with a calendar that is set and a ledger of four entries. -/
def fieldUnit : State :=
  { ((host.set LGR_NEWEST.INDEX 3).set RTC_STAT.SET 1) with
      lcs := .deployed, lgr := { LgrSt.reset with recovered := true, next := 4 }, sec := { SecSt.reset with oemLedger := some 1 } }

theorem witness_HostReplies :
    let grn (n : Nat) : State := host.set GRN_STAT.STATE n
    let start : State := (host.set GRN_BASE.BASE 0x100000).set GRN_SIZE.SIZE 1
    let frozen : State := (grn gFrozen).wr GRN_RECLEN_LO.adr 40
    let busy : State := { host with commit := some { epoch := 3, bound := 0, flags := 0, arg := 0, accepted := 900, limit := 9000,
                                                     switchAt := some 2000, switched := false, parts := [], ready := [],
                                                     aborted := false, readySent := 0 } }
    let cold : State := { host.set (GOU_PAIR_STAT.STATE 0) pRun with bank := [(GOU_PAIR_CFG.adr 0, (0xFFFFFFFF, 0xFFFFFFFF))] }
    let img (n : Nat) : State := { host with img := Vector.replicate 2 { state := n, owner := 0 } }
    let four : State := { host with sessions := [8, 9, 10, 11].map (fun t =>
      { tag := t, key := 5, rights := 0, last := none, count := 0, cycle := 1000 }) }
    let item := BitVec.ofNat 32 (TRK_OFFS.adr 0)
    (taken host rq .identify = true ∧ taken host rq (.sessionOpen 0xFFFF 1) = true ∧ taken four rq (.sessionOpen 0xFFFF 1) = true ∧
      host.sessionRoot.isSome = true ∧ taken host rqA .sessionClose = true) ∧
    (taken host rq (.stageWrite item [1]) = true ∧ taken busy rq (.stageWrite item [1]) = true ∧
      taken host rq (.stageRead item 1 1) = true ∧ (host.stageWords item.toNat [1]).bank.length ≤ 65536) ∧
    (taken host rq (.commit 1 0 0 1 0) = true ∧ taken cold rq (.commit 1 0 0 10000 0) = true ∧ cold.bankCold = true ∧
      host.bankCold = false ∧ taken busy rq .abort = true ∧ busy.cancelable.isSome = true ∧ taken host rq .queryEpoch = true) ∧
    (taken start rq (.captureStart 1 64) = true ∧ ((begun start rq).grnStart 1 64).1 = .ok ∧
      taken (grn gRun) rq .captureTrigger = true ∧ taken frozen rq (.captureRead 39 9152) = true ∧
      taken (grn gRun) rq (.captureFreeze 0 0) = true ∧ taken (grn gPost) rq (.captureFreeze 1 5000) = true) ∧
    (taken fieldUnit rq (.ledgerRead 3 1) = true ∧ taken fieldUnit rq .ledgerStatus = true ∧ taken host rq .ledgerStatus = true ∧
      taken fieldUnit rqA (.ledgerAck 3 0 1 1) = true ∧ fieldUnit.sec.oemLedger.isSome = true) ∧
    (taken host rq (.imageWrite 1 1 0 (bytes 8)) = true ∧ (host.img[1]).state ≠ 1 ∧ taken (img 3) rq (.imageActivate 0) = true ∧
      (img 3).recovering = false ∧ taken (img 1) rq (.imageActivate 1) = true ∧ taken host rq .imageStatus = true) := by
  decide +kernel

theorem witness_HostActions :
    let yard : State := host.set APM_MODE.MODE mYard
    let field : State := host.set APM_MODE.MODE mField
    let hold : State := yard.set RING_STAT.VERHOLD 1
    let run : State := field.set (GOU_PAIR_STAT.STATE 31) pRun
    let cal : CalFields := { year := 2024, month := 2, day := 29, hour := 23, min := 59, sec := 59, sub := 32767, wday := 6, flags := 1 }
    let first : State := { host with addr := none }
    let all : SecSt := { mac := some 1, etype := some 0x88B5, oemSession := some 5, oemImage := some 4, oemLedger := some 6, identity := true }
    let prov : State := { (yard.set RTC_STAT.SET 1) with lcs := .provisioned, ao := { yard.ao with vsys := true } }
    (taken field rq (.arm 0x80000001) = true ∧ field.armCold 0x80000001 = false ∧ taken run rq (.disarm 0x80000000) = true ∧
      taken host rq (.setReference 15 31 7) = true ∧ host.commit = none ∧ taken run rq (.tripClear 0xFFFFFFFF) = true) ∧
    (taken host rq (.timeSet cal) = true ∧ (host.timeSet cal).1 = true ∧ (host.timeSet { cal with month := 13 }).1 = false ∧
      host.on APM_CLKSTAT.BRCRUN = true ∧ taken host rq (.timeSet { cal with month := 13 }) = true ∧ taken host rq .timeQuery = true) ∧
    (taken field rq (.modeRequest 1) = true ∧ field.mode = mField ∧ field.anyArmed = false ∧ taken field rq (.modeRequest 0) = true ∧
      taken hold rq (.modeRequest 0) = true ∧ hold.mode = mYard ∧ hold.on RING_STAT.VERHOLD = true ∧ taken host rq (.vote 2 1) = true ∧ taken host rq (.vote 0 0) = true) ∧
    (taken host rq (.mbxPut 15 (words 8)) = true ∧ taken host rq (.mbxGet 15 8) = true ∧ (host.chan[15]).dev = []) ∧
    (judged first { rq with dst := 0xFF } (.enumerate 63) = true ∧ first.addr = none ∧ first.portUp .pa = true ∧
      (begun first { rq with dst := 0xFF }).hostCheck (waits { rq with dst := 0xFF } (.enumerate 63)) (hostParams (.enumerate 63))
        (.enumerate 63) = 0 ∧ taken host rq .ringStatus = true) ∧
    (taken host rq (.faultInject 1 4 4 0 0 0) = true ∧ taken host rq (.faultInject 0 0 0 0 0 0) = true) ∧
    (taken { host with sec := all } rq (.lcAdvance 1) = true ∧ taken prov rqA (.lcAdvance 2) = true ∧ prov.ao.phase ≠ .off ∧
      prov.on HRV_STAT.SEALING = false) ∧
    (taken fieldUnit rqA (.replaceHandover 5 3 0 1 1) = true ∧ fieldUnit.lgrTakes = true ∧ fieldUnit.lgr.queue.length < 16 ∧
      fieldUnit.on LGR_STAT.FULL = false ∧ fieldUnit.on HRV_STAT.SEALING = false) := by decide +kernel

/-- The nonce of R392. -/
def ownHash : BitVec 128 := BitVec.ofNat 128 (ofBeBytes identityHash)

theorem ownHash_bytes : beBytes 16 ownHash.toNat = identityHash := by
  have h : identityHash.length = 16 := by simp [identityHash, sha256_length]
  have hl := ofBeBytes_lt identityHash
  rw [h] at hl
  rw [ownHash, BitVec.toNat_ofNat, Nat.mod_eq_of_lt (by simpa using hl)]
  simpa [h] using beBytes_ofBeBytes identityHash

/-- `fieldUnit` in Yard, with its supply. -/
def idle : State :=
  let s := fieldUnit.set APM_MODE.MODE mYard
  { s with ao := { s.ao with vsys := true } }

theorem passes_return {s : State} {w : Waiting} {n : BitVec 128} {x y : BitVec 256} (ho : w.op = 0x0A01) (he : w.rq.epoch = 0)
    (hx : w.rq.express = false) (hn : beBytes 16 n.toNat = identityHash) (h1 : s.lifeOk 0x0A01 (.returnRequest n x y) = true)
    (h2 : s.rightOk w = true) (h3 : s.modeOk 0x0A01 (.returnRequest n x y) = true) (h4 : s.ledgerBusy 0x0A01 = false) :
    s.hostCheck w (hostParams (.returnRequest n x y)) (.returnRequest n x y) = 0 := by
  simp [State.hostCheck, State.paramsOk, ho, he, hx, hn, h1, h2, h3, h4]

theorem witness_HostActions_return : taken idle rqA (.returnRequest ownHash 1 1) = true := by
  have hc : (begun idle rqA).hostCheck (waits rqA (.returnRequest ownHash 1 1)) (hostParams (.returnRequest ownHash 1 1))
      (.returnRequest ownHash 1 1) = 0 :=
    passes_return rfl rfl rfl ownHash_bytes (by decide +kernel) (by decide +kernel) (by decide +kernel) (by decide +kernel)
  have hw : (Obligations.asInstr rqA (.returnRequest ownHash 1 1)).wf = true := by decide +kernel
  simp only [taken, fits, hc, hw]
  decide +kernel

/-! A signature that verifies, chosen so that r = s is the digest and both scalars of the check are 1. -/

def signedAck : Nat := 0x3411cc025e7a82ce3521fe07c50f4283dfb3c8b253a07cac1d2c927b4fdc1b26
def ackKey : BitVec 512 :=
  0x88913a3604a5fb8faf25b056851c8cb24cd0384e9b2dbe2405da53bced1cfb03b118af4d8106951194f665a370592e87f87a017b32f48e2c36b9d8f4755f8471
def signedOver : Nat := 0xef89611e583c9b6c8115b614c6facb4e8c11c69d1a21e46abfcfa7134903f5fb
def overKey : BitVec 512 :=
  0x3b57e539c2b9674a819db31b53e494d54316651d3033ddbd65df86ffc3c9df75cc5055eff3bb871a27d7704d76c69e33ddbf644999c1804980b634210c4fd3af

theorem witness_signatures :
    let key (k : BitVec 512) : State := { fieldUnit with sec := { SecSt.reset with oemLedger := some k } }
    let a := BitVec.ofNat 256 signedAck
    let o := BitVec.ofNat 256 signedOver
    taken (key ackKey) rqA (.ledgerAck 2 0 a a) = true ∧ taken (key overKey) rqA (.replaceHandover 5 5 0 o o) = true ∧
    (begun (key ackKey) rqA).ledgerSigned (beBytes 4 2 ++ beBytes 16 0) a a = true ∧
    (begun (key overKey) rqA).ledgerSigned ([5#8, 0#8, 0#8, 0#8] ++ beBytes 4 5 ++ beBytes 16 0) o o = true := by
  decide +kernel

/-- The examples of FIPS 180-4 ("abc") and RFC 4493 (the empty message). -/
theorem test_sha256 : ofBeBytes (sha256 [0x61#8, 0x62#8, 0x63#8]) =
    0xba7816bf8f01cfea414140de5dae2223b00361a396177a9cb410ff61f20015ad := by decide +kernel
theorem test_cmac : ofBeBytes (cmac 0x2b7e151628aed2a6abf7158809cf4f3c []) = 0xbb1d6929e95937287fa37d129b756746 := by
  decide +kernel

/-! ### Witnesses: link, ring and commits -/

/-- The grandmaster is heard only on the port that is not upstream. -/
def far (s : State) : State :=
  { s with upstream := 0, port := (s.port.set 0 { s.port[0] with hears := false }).set 1 { s.port[1] with hears := true } }

/-- A frame of `n` payload bytes with an ethertype of no meaning to the device. -/
def other (n : Nat) : List Byte := bytes 12 ++ [0x08, 0x00] ++ bytes n

theorem witness_FramesAndReplies :
    let r : Reply := { cmd := waits rq .identify, status := 0, params := [], credit := true }
    let off : State := { host with dom := host.dom.map (fun d => { d with phase := .down, level := 5 }) }
    let out : OutFrame := { port := .pa, bytes := other 0, express := false, fcsOk := true, rsErr := 0, rsFirst := 0 }
    let inj : State := { host with inj := host.inj.set 0 { InjSt.reset with held := some (out, 2, 1000) } }
    let delay : List Byte := bytes 12 ++ [0x88#8, 0xF7#8, 0x03#8] ++ bytes 43
    (host.portUp .pa = true ∧ (other 0).length = 14 ∧ (other 9198).length = 9212 ∧ stackedTags (other 0) = false ∧
      frameEtype (other 0) ≠ 0x8808 ∧ frameEtype (other 0) ≠ 0x88F7 ∧ frameEtype (other 0) ≠ host.get ETH_ETYPE.VALUE ∧
      host.portUp .pb = true ∧ up.portUp .pa = false ∧ (other 9199).length = 9213 ∧
      (let one : State := { host with port := host.port.set 1 PortLink.reset }
       one.portUp .pa = true ∧ one.portUp .pb = false)) ∧
    (frameEtype delay = 0x88F7 ∧ (pByte (frameContent delay) 0).toNat % 16 = 3 ∧ 14 ≤ delay.length ∧
      stackedTags delay = false) ∧
    (host.domUp .link = true ∧ off.domUp .link = false ∧ host.replies = [] ∧
      ({ host with replies := [r] } : State).replies = [r] ∧ (host.port[portIx (host.replyPort r.cmd.rq)]).up = true) ∧
    ((inj.inj[0]).held.isSome = true ∧ (host.inj[1]).held = none ∧ (host.session 7).isSome = true ∧ host.session 9 = none) := by
  decide +kernel

theorem witness_DeviceFrames :
    let hb : Heartbeat := ⟨0, 0, 0, 0, 0, 0, 0, 0, 0, 0, 0⟩
    let heard (n : Nat) : State := { host with hbs := [{ sender := n, mac := 3, hb := hb, cycle := 1000 }] }
    let trk : State := (((host.set (TRK_CTRL.EN 15) 1).set (TRK_CTRL.TYPE 15) 6).set (TRK_SRCA.RDEV 15) 63).set (TRK_SRCA.RTRK 15) 15
    let rec1 : ShareRecord := ⟨15, 0, 0, 0, 0⟩
    let off : State := { host with dom := host.dom.map (fun d => { d with phase := .down, level := 5 }) }
    let share : State := { (host.set RING_SHARE.TRACKS 0x8000).modTrk 15 (fun t => { t with valid := true }) with now := 999 }
    let trip (k : Nat) : TripTx := { groups := 1, cause := 0, time := 0, cycle := 1000, rep := k }
    let acc := host.set RING_CFG.TRIPACC 0x80
    (off.domUp .link = false ∧ host.domUp .link = true ∧ host.addr = some (5#8).toNat ∧ host.mac ≠ 3 ∧
      host.addr ≠ some (63#8).toNat ∧ (63#8).toNat < 64 ∧ host.split = none ∧ up.addr = none) ∧
    (host.on RING_STAT.VERHOLD = false ∧ host.sharedTracks = [] ∧ share.fastUp = true ∧ share.sharedTracks = [15] ∧
      share.on RING_STAT.VERHOLD = false ∧ share.on RING_STAT.DUPADDR = false ∧ share.addr ≠ none) ∧
    ((heard 63).hbs.map (·.sender) = [63] ∧ host.hbs = [] ∧ (∀ h ∈ (heard 63).hbs, h.sender ≠ 0) ∧
      (heard 63).addr ≠ some 63) ∧
    (trk.takes blkTRK = true ∧ trk.trkEn 15 = true ∧ trk.trkType 15 = 6 ∧ trk.get (TRK_SRCA.RDEV 15) = (63#8).toNat ∧
      (∀ j : TrackId, 15 ≠ j → trk.trkEn j = false) ∧ rec1.track.toNat = trk.get (TRK_SRCA.RTRK 15) ∧ trk.ptpOff = false ∧
      rec1.flags.getLsbD 1 = false ∧ trk.shareFresh 15 trk.ptp = true ∧ trk.shareFresh 15 0 = false ∧
      host.trkEn 15 = false) ∧
    (firstRepeat [trip 1] = some (trip 1) ∧ firstRepeat [trip 2] = some (trip 2) ∧ host.tripTx = [] ∧
      host.get RING_CFG.TRIPACC &&& 0 = 0 ∧ acc.get RING_CFG.TRIPACC &&& 0x80 ≠ 0 ∧
      ((63, 0) : Nat × Nat) ∉ acc.tripSeen ∧ acc.fastUp = true ∧
      ({ acc with dom := acc.dom.set 0 ⟨.down, 5, true, 0⟩ } : State).fastUp = false) := by
  decide +kernel

theorem witness_PortsAndTime :
    let one (f : PortLink → PortLink) : State := { host with port := host.port.set 0 (f host.port[0]), linkFree := true }
    let root := host.set RING_CFG.ROOT 1
    (up.portUp .pa = false ∧ host.portUp .pa = true ∧ host.portUp .pb = true ∧ host.on RING_CFG.ROOT = false ∧
      root.on RING_CFG.ROOT = true ∧ root.domUp .link = true ∧ (50 : Int).natAbs ≤ 50 ∧ 50 < (-51 : Int).natAbs ∧
      portIx .pa = (far host).upstream ∧ portIx .pb ≠ (far host).upstream) ∧
    (((far host).port[(far host).upstream]).hears = false ∧ ((far host).port[1 - (far host).upstream]).hears = true ∧
      (let x := one (fun x => { x with hears := true })
       x.upstream = 0 ∧ (x.port[0]).up = true ∧ (x.port[0]).hears = true)) ∧
    (((one (fun x => { x with training := true })).port[0]).training = true ∧ (host.port[0]).training = false ∧
      (one id).linkFree = true ∧ up.linkFree = false ∧ (host.port[0]).up = true ∧ (up.port[0]).up = false ∧
      host.fastUp = true ∧ ((one (fun x => { x with cfg := 1 })).port[0]).cfg.getLsbD 0 = true ∧
      ((one (fun x => { x with cfg := 2 })).port[0]).cfg.getLsbD 0 = false) := by
  decide +kernel

/-- The operating device with the commit `c`. -/
def commits (c : CommitSt) : State := { host with commit := some c }

/-- A two-phase commit for a time to come. -/
def later3 : CommitSt :=
  { epoch := 3, bound := 3, flags := 2, arg := 1000000, accepted := 900, limit := 9000000, switchAt := none,
    switched := false, parts := [6], ready := [], aborted := false, readySent := 0 }

theorem witness_CommitVotes :
    let c := later3
    let s := commits c
    (host.commit = none ∧ s.commit = some c ∧ c.flags.testBit 1 = true ∧ s.addr ≠ none ∧
      s.now ≤ s.cycleOfPtp (c.arg - 20000) ∧ s.domUp .link = true ∧
      (commits { c with aborted := true }).commit = some { c with aborted := true }) ∧
    (c.epoch = 3 ∧ c.arg = (1000000#64).toNat ∧ s.now ≤ s.cycleOfPtp (c.arg - 4000) ∧ (6#8).toNat ∈ c.parts ∧
      (6#8).toNat ∉ c.ready ∧ (7#8).toNat ∉ c.parts ∧ c.epoch ≠ 4) ∧
    (let d := { c with readySent := 2, ready := [6] }
     d.aborted = false ∧ 0 < d.readySent ∧ 2 ≤ d.readySent ∧ (∀ n ∈ d.parts, n ∈ d.ready) ∧ ¬ (0 < c.readySent)) := by
  decide +kernel

theorem witness_CommitPhases :
    let c (b : Nat) (k : Option Nat) : CommitSt := { later3 with bound := b, flags := 0, arg := 0, switchAt := k }
    let at_ (b : Nat) (k : Option Nat) : State := commits (c b k)
    (host.commit = none ∧ (at_ 0 (some 1000)).commit = some (c 0 (some 1000)) ∧ (at_ 0 (some 1000)).now = 1000) ∧
    ((at_ 1 none).switchCycle (c 1 none) = none ∧ (at_ 2 (some 9000000)).switchCycle (c 2 (some 9000000)) = some 9000000 ∧
      (at_ 2 (some 9000001)).switchCycle (c 2 (some 9000001)) = some 9000001 ∧ (c 2 none).limit = 9000000 ∧
      (let e : State := (at_ 1 none).modSlc 0 (fun x => { x with periodEnd := 1000 })
       e.switchCycle (c 1 none) = some 1000)) ∧
    ((at_ 0 (some 1000)).boundaryHere (c 0 (some 1000)) = true ∧ (c 0 (some 1000)).switched = false ∧
      (1 : Nat).testBit 0 = true ∧ (2 : Nat).testBit 0 = false) := by
  decide +kernel

theorem witness_MemoryForm :
    let s : State := { up with mem := [(0x20000000, 1)], pending := [.abort rq] }
    Memory.wf s = true ∧ Memory.wf up = true ∧ (match step s with | .next t => Memory.wf t | _ => false) = true := by decide +kernel

/-- `fieldUnit`'s ledger with all its slots in use by entries of type 0, none acknowledged. -/
def crowded : State :=
  let d : State := { up with lcs := .deployed, lgr := { LgrSt.reset with recovered := true, next := 131072 } }
  d.set HRV_STAT.SRC 1

theorem crowded_slot (i : Nat) : crowded.slotBytes i = List.replicate 64 0 := by
  have h : ∀ a, crowded.byte a = 0 := fun a => rfl
  simp only [State.slotBytes, State.bytes, h]
  rfl

theorem crowded_spoilt (i : Nat) : crowded.slotSpoilt i = false := by
  simp [State.slotSpoilt, State.spoiltAny, show crowded.upset = [] from rfl]

theorem crowded_span (n i : Nat) (g : Bool) : ∀ b ∈ crowded.spanEntries n i g, slotType b = 0 := by
  induction n generalizing i g with
  | zero => simp [State.spanEntries]
  | succ n ih =>
    cases g
    · simp only [State.spanEntries, crowded_slot, Bool.false_eq_true, if_false, List.forall_mem_cons]
      exact ⟨by rw [crowded_spoilt]; decide, ih _ _⟩
    · simpa [State.spanEntries] using ih _ _

theorem crowded_filter (p : List Byte → Bool) (h : ∀ b, slotType b = 0 → p b = false) (n i : Nat) (g : Bool) :
    (crowded.spanEntries n i g).filter p = [] :=
  List.filter_eq_nil_iff.2 (fun b hb => by simp [h b (crowded_span n i g b hb)])

theorem witness_HourLedger_condense : crowded.condenseSpan.isSome = true ∧ crowded.lgrRuns = true ∧
    crowded.on HRV_STAT.SRC = true := by
  refine ⟨?_, by decide +kernel, by decide +kernel⟩
  have ha : crowded.get LGR_OLDUNACK.INDEX = 0 := by decide +kernel
  have he : crowded.spanEnd 0 = 8191 := by simp only [State.spanEnd, crowded_slot]; decide
  have hf : crowded.freeSlots < 4097 := by decide +kernel
  have hn : crowded.lgr.next = 131072 := by decide +kernel
  simp only [State.condenseSpan, ha, he, hn, hf]
  rw [crowded_filter _ (fun b h => by simp [h]), crowded_filter _ (fun b h => by simp [copied, h])]
  simp

/-! ### The numbers of the spec's worked examples -/

/-- The state after a command. -/
def after (i : Instr) (s : State) : State := match exec i s with | .next t => t | _ => s

/-- MGT0 of the worked example of 12: `c2` holds the whole L2, `g5` the offset 0x12000, `g6` 256 and `g1` 1. -/
def copyExample : State :=
  let c := Cap.make 0x20000000 0x203FFFFF 0x073 0 true
  mgt (fun k => { k with regs := ((k.regs.set 5 0x12000).set 6 256).set 1 1, caps := k.caps.set 2 c })

theorem test_craise : ((after (.craise .mgt0 3 2 5) copyExample).cap 2 3).base = 0x20012000 := by decide +kernel
theorem test_ctrim :
    ((after (.ctrim .mgt0 3 3 6) (copyExample.setCap 2 3 (Cap.make 0x20012000 0x203FFFFF 0x073 0 true))).cap 2 3).limit =
      0x200120FF := by decide +kernel
theorem test_cmaskp : ((after (.cmaskp .mgt0 3 2 1) copyExample).cap 2 3).perm = 0x001 := by decide +kernel
theorem test_lui : (after (.lui .mgt0 7 0x12) copyExample).gr 2 7 = 0x12000 := by decide +kernel
theorem test_addi : (after (.addi .mgt0 7 0 256) copyExample).gr 2 7 = 256 := by decide +kernel

/-- The example of 18: four commons at 32 Hz give a slot of 256 cycles; code 40 drives 195 of them, code 20 drives 141. -/
theorem test_lcdDrive :
    let s := ((up.set LCD_CTRL.TRIMEN 1).set LCD_STAT.BAND 3).set (LCD_BAND.RATE 3) 2
    (s.lcdSlot, s.lcdDrive 40, s.lcdDrive 20) = (256, 195, 141) := by decide +kernel

/-- The example of 03: at 2 kHz and 1,525.9 cycles between measurements the gains are 0.021694 and 0.00023532. -/
theorem test_trkGains : let g := trkGains 2000 24414
    ((g.1 * 10 ^ 6 + 2 ^ 23) / 2 ^ 24, (g.2 * 10 ^ 8 + 2 ^ 23) / 2 ^ 24) = (21694, 23532) := by decide

end Sys2Proof.Tests
end

section
/-!
SUPPORT and settled statements of 12: the AOC without a floating-point unit (R415).
-/
namespace Sys2Proof.Machine

/-- The fields of an L-R word are its parts (R404). -/
theorem fieldOf_wordLR (op : Nat) (rd rs1 rs2 : Reg) (f : Nat) (hop : op < 64) (hf : f < 1024) :
    let w := wordLR op rd rs1 rs2 f
    fieldOf w 30 25 = op ∧ fieldOf w 24 20 = rd ∧ fieldOf w 19 15 = rs1 ∧ fieldOf w 14 10 = rs2 ∧
      fieldOf w 9 0 = f ∧ fieldOf w 4 0 = f % 32 := by
  have hrd := rd.isLt
  have h1 := rs1.isLt
  have h2 := rs2.isLt
  simp only [fieldOf, wordLR, BitVec.toNat_ofNat, Nat.reducePow, Nat.reduceAdd, Nat.reduceSub]
  omega

/-- The fused operations of opcode 0x15 name a third source in the low bits of FUNC (R413). -/
theorem longSources_float (rd rs1 rs2 : Reg) (f : Nat) (hf : f < 1024) :
    longSources (wordLR 0x15 rd rs1 rs2 f) = if 0x20 ≤ f then [rs1, rs2, Fin.ofNat 32 f] else [rs1, rs2] := by
  obtain ⟨hop, -, h1, h2, hfunc, h3⟩ := fieldOf_wordLR 0x15 rd rs1 rs2 f (by decide) hf
  have e : Fin.ofNat 32 (f % 32) = Fin.ofNat 32 f := Fin.ext (Nat.mod_mod f 32)
  simp only [longSources, longRegs, hop, h1, h2, hfunc, h3, Fin.ofNat_val_eq_self, true_and, e]

/-- A ready word of opcode 0x15 is an illegal instruction in the AOC, whatever its FUNC. -/
theorem State.longInstr_float_aoc (s : State) (rd rs1 rs2 : Reg) (f : Nat) (hf : f < 1024)
    (h : s.ready .aoc (Obligations.shapeLong rd (longSources (wordLR 0x15 rd rs1 rs2 f))) = true) :
    s.longInstr .aoc (wordLR 0x15 rd rs1 rs2 f) =
      (s.issued .aoc (Obligations.shapeLong rd (longSources (wordLR 0x15 rd rs1 rs2 f)))).takeFault 4 illegal := by
  obtain ⟨hop, hrd, -⟩ := fieldOf_wordLR 0x15 rd rs1 rs2 f (by decide) hf
  unfold State.longInstr
  simp only [hop, hrd]
  exact State.run_faults h rfl

/-- The operations with two source fields (R413). -/
theorem State.float2_aoc (s : State) (rd rs1 rs2 : Reg) (f : Nat) (hf : f < 0x20)
    (h : s.ready .aoc (Obligations.shapeLong rd [rs1, rs2]) = true) :
    s.longInstr .aoc (wordLR 0x15 rd rs1 rs2 f) =
      (s.issued .aoc (Obligations.shapeLong rd [rs1, rs2])).takeFault 4 illegal := by
  have e := (longSources_float rd rs1 rs2 f (by omega)).trans (if_neg (by omega))
  rw [← e] at h ⊢
  exact State.longInstr_float_aoc s rd rs1 rs2 f (by omega) h

/-- The fused operations, which have a third source (R413). -/
theorem State.float3_aoc (s : State) (rd rs1 rs2 rs3 : Reg) (k : Nat) (hk : 0 < k ∧ k < 32)
    (h : s.ready .aoc (Obligations.shapeLong rd [rs1, rs2, rs3]) = true) :
    s.longInstr .aoc (wordLR 0x15 rd rs1 rs2 (32 * k + rs3)) =
      (s.issued .aoc (Obligations.shapeLong rd [rs1, rs2, rs3])).takeFault 4 illegal := by
  have h3 := rs3.isLt
  have e : Fin.ofNat 32 (32 * k + rs3) = rs3 := Fin.ext (by simp only [Fin.ofNat]; omega)
  have es := (longSources_float rd rs1 rs2 (32 * k + rs3) (by omega)).trans (if_pos (by omega))
  rw [e] at es
  rw [← es] at h ⊢
  exact State.longInstr_float_aoc s rd rs1 rs2 _ (by omega) h

/-- `CORE` reads as the identity 4 in the AOC, with FP, bit 4, zero. -/
theorem State.csrRead_core_aoc (s : State) : (s.csrRead 4 0x001).1 = 4#32 := rfl

/-- Settles O13: every row of opcode 0x15 is a long operation whose body faults in the AOC. -/
theorem noFloatOnAoc : Obligations.NoFloatOnAoc := by
  refine ⟨fun s rd rs1 rs2 rs3 => ?_, fun s => by rw [State.csrRead_core_aoc]; decide⟩
  have two (q : Reg) (f : Nat) (hf : f < 0x20) (h : s.ready .aoc (Obligations.shapeLong rd [rs1, q]) = true) :=
    congrArg (Host.Outcome.next (φ := Fault) (ρ := Refusal)) (State.float2_aoc s rd rs1 q f hf h)
  have three (k : Nat) (hk : 0 < k ∧ k < 32) (h : s.ready .aoc (Obligations.shapeLong rd [rs1, rs2, rs3]) = true) :=
    congrArg (Host.Outcome.next (φ := Fault) (ρ := Refusal)) (State.float3_aoc s rd rs1 rs2 rs3 k hk h)
  exact ⟨two rs2 0x0 (by decide), two rs2 0x1 (by decide), two rs2 0x2 (by decide), two rs2 0x3 (by decide),
    two 0 0x4 (by decide), two rs2 0x5 (by decide), two rs2 0x6 (by decide), two rs2 0x7 (by decide),
    two rs2 0x8 (by decide), two rs2 0x9 (by decide), two 0 0xa (by decide), two 0 0xc (by decide),
    two 0 0xb (by decide), two 0 0xd (by decide), two 0 0xe (by decide), two 0 0xf (by decide),
    three 1 (by decide), three 2 (by decide), three 3 (by decide)⟩

end Sys2Proof.Machine
end

section
/-!
SUPPORT and settled statements of 12: the cores after a reset of their domain (R398, R469, R613, R614).
-/
namespace Sys2Proof.Machine

/-! ### What keeps the cores and the progress of the final sequence -/

/-- `t` has the cores of `s`, and the same word of `HRV_STAT`, which says whether the final sequence runs (R614). -/
structure KeepsCores (s t : State) : Prop where
  core : t.core = s.core
  stat : t.rd HRV_STAT.adr = s.rd HRV_STAT.adr

namespace KeepsCores

theorem refl (s : State) : KeepsCores s s := ⟨rfl, rfl⟩

section
variable {s t u : State} (h : KeepsCores s t)
include h

theorem trans (g : KeepsCores t u) : KeepsCores s u := ⟨g.core.trans h.core, g.stat.trans h.stat⟩

theorem sealing : t.on HRV_STAT.SEALING = s.on HRV_STAT.SEALING := by
  have e : HRV_STAT.SEALING.adr = HRV_STAT.adr := rfl
  simp only [State.on, State.get, e, h.stat]

/-- An update of neither the cores nor the registers. -/
theorem other (hc : u.core = t.core := by rfl) (hr : u.reg = t.reg := by rfl) : KeepsCores s u :=
  h.trans ⟨hc, congrArg (fun m => SMap.get resetWord m HRV_STAT.adr) hr⟩

theorem ite (g : KeepsCores s u) {c : Prop} {d : Decidable c} : KeepsCores s (if c then t else u) := by
  split
  · exact h
  · exact g

theorem foldl {α : Type} {f : State → α → State} (hf : ∀ t x, KeepsCores t (f t x)) (l : List α) :
    KeepsCores s (l.foldl f t) := by
  induction l generalizing t with
  | nil => exact h
  | cons x l ih => exact ih (h.trans (hf t x))

/-- The update of a register other than `HRV_STAT`. -/
theorem set (f : Fld) (v : Nat) (hf : HRV_STAT.adr ≠ f.adr := by decide) : KeepsCores s (t.set f v) :=
  h.trans ⟨rfl, (State.rd_set t f v _).trans (if_neg hf)⟩

theorem raise (f : Fld) (hf : HRV_STAT.adr ≠ f.adr := by decide) : KeepsCores s (t.raise f) := (h.set f 1 hf).other

theorem clearRegs (lo hi : Nat) (ho : ¬(lo ≤ HRV_STAT.adr ∧ HRV_STAT.adr < hi) := by decide) :
    KeepsCores s (t.clearRegs lo hi) :=
  h.trans ⟨rfl, (State.rd_clearRegs t lo hi _).trans (if_neg ho)⟩

/-! #### Answers of commands -/

theorem finish (w : Waiting) (status : Nat) (params : List Byte) : KeepsCores s (t.finish w status params) := h.other

theorem finishAll (op status : Nat) (params : List Byte) : KeepsCores s (t.finishAll op status params) := by
  unfold State.finishAll
  exact h.foldl (fun t w => (refl t).finish w status params) _

theorem failWaiting : KeepsCores s t.failWaiting := by
  unfold State.failWaiting
  extract_lets finished
  have answered : KeepsCores s finished := h.foldl (fun t w => (refl t).finish w 0x0F00 []) _
  exact h.ite (answered.ite answered.other)

/-! #### Modes and votes -/

theorem lgrLose : KeepsCores s t.lgrLose := by
  unfold State.lgrLose
  exact h.other.raise LGR_STAT.EVLOST

theorem ledgerEvent (type code : Nat) (payload : List Byte) : KeepsCores s (t.ledgerEvent type code payload) := by
  unfold State.ledgerEvent
  exact (h.lgrLose.ite h.other).ite h

theorem sealDue (reason : Nat) : KeepsCores s (t.sealDue reason) := by
  unfold State.sealDue
  exact h.other.ite h

theorem modeTo (m : Nat) : KeepsCores s (t.modeTo m) := by
  unfold State.modeTo
  extract_lets old event owed
  have queued : KeepsCores s event := (h.set APM_MODE.MODE m).ledgerEvent _ _ _
  have due : KeepsCores s owed := (queued.sealDue 2).ite queued
  exact h.ite ((due.raise LGR_STAT.FIELDSEEN).ite due)

theorem dropField : KeepsCores s t.dropField := by
  unfold State.dropField
  exact ((h.set (APM_VOTE.FIELD 0) 0).set (APM_VOTE.FIELD 1) 0).set (APM_VOTE.FIELD 2) 0

/-- The device leaves Field for Yard when a reset begins (R649). -/
theorem leaveField : KeepsCores s (if t.mode = mField then t.dropField.modeTo mYard else t) :=
  (h.dropField.modeTo mYard).ite h

theorem modDom (d : Fin 3) (f : DomSt → DomSt) : KeepsCores s (t.modDom d f) := h.other

theorem domainVote (d : Fin 3) : KeepsCores s (t.domainVote d) := by
  unfold State.domainVote
  extract_lets x back kept leaving cleared
  have up : KeepsCores s back := h.modDom d _
  have stays : KeepsCores s kept := up.other
  have down : KeepsCores s leaving := h.modDom d _
  have quiet : KeepsCores s cleared := (down.set TCH_STAT.CNTASK 0).ite down
  exact ((h.modDom d _).ite (((stays.modeTo mYard).ite stays).ite h)).ite (quiet.other.ite h)

theorem domainVotes : KeepsCores s t.domainVotes := by
  unfold State.domainVotes
  exact ((h.domainVote 0).domainVote 1).domainVote 2

/-! #### Sessions and links -/

theorem releaseHeld (p : Fin 2) : KeepsCores s (t.releaseHeld p) := by
  unfold State.releaseHeld
  split
  · exact h.other
  · exact h

theorem injClear (p : Fin 2) : KeepsCores s (t.injClear p) := by
  have apart : HRV_STAT.adr ≠ RING_INJ.adr p := by revert p; decide
  unfold State.injClear
  have idle := ((h.releaseHeld p).set (RING_INJ.ACTIVE p) 0 apart).set (RING_INJ.KIND p) 0 apart
  exact idle.set (RING_INJ.LEFT p) 0 apart

theorem closeSession (tag : Word) : KeepsCores s (t.closeSession tag) := by
  unfold State.closeSession
  extract_lets without debug
  have closed : KeepsCores s without := h.other
  have unlocked : KeepsCores s { without with openBy := none } := closed.other
  have locked : KeepsCores s debug := (unlocked.set SEC_DBG.OPEN 0).ite closed
  exact (locked.foldl (fun t p => ((refl t).injClear p).ite (refl t)) [0, 1]).ite locked

theorem closeAll : KeepsCores s t.closeAll := by
  unfold State.closeAll
  exact h.foldl (fun t (x : Session) => (refl t).closeSession x.tag) _

theorem holdover : KeepsCores s t.holdover := by
  unfold State.holdover
  have held := ((h.set CPM_CLK_STAT.HOLD 1).set CPM_CLK_STAT.LOCK 0).set CPM_CLK_STAT.SLEW 0
  exact held.other

theorem switchUndo (u : PllUndo) : KeepsCores s (t.switchUndo u) := by
  unfold State.switchUndo
  have back := ((h.set CPM_CLK_CTRL.SRC u.src).set CPM_CLK_STAT.LOCK u.lock).set CPM_CLK_STAT.SLEW u.slew
  exact ((back.set CPM_CLK_STAT.HOLD u.hold).raise CPM_CLK_STAT.SWREF).other

theorem clockLost (p : Fin 2) : KeepsCores s (t.clockLost p) := by
  have apart : HRV_STAT.adr ≠ (readyFlag p).adr := by revert p; decide
  unfold State.clockLost
  extract_lets port clockless flagged
  have lost : KeepsCores s clockless := h.other
  have unready : KeepsCores s flagged := lost.set (readyFlag p) 0 apart
  refine (ite ?_ unready).ite lost
  split
  · exact (unready.switchUndo _).ite unready.holdover
  · exact unready.holdover

theorem linksDown : KeepsCores s t.linksDown := by
  unfold State.linksDown
  extract_lets silent
  have down : KeepsCores s silent := h.other
  exact (down.clockLost 0).clockLost 1

/-! #### Resets of the domains -/

theorem resetLink : KeepsCores s t.resetLink := by
  unfold State.resetLink
  exact (h.closeAll.clearRegs 0x30900000 0x30A00000).other

theorem clearDram : KeepsCores s t.clearDram := h.other

theorem loseDram : KeepsCores s t.loseDram := by
  unfold State.loseDram
  exact finishAll (h.clearDram.other.set _ _) _ _ _

theorem sdramTo (l : Nat) : KeepsCores s (t.sdramTo l) := by
  unfold State.sdramTo
  exact h.other.ite (h.other.ite h.other)

theorem resetMem : KeepsCores s t.resetMem := by
  unfold State.resetMem
  exact (h.clearRegs 0x30800000 0x30900000).clearDram

theorem dropMem : KeepsCores s (t.dropTo5 1) := by
  have arrived (u : State) (g : KeepsCores s u) : KeepsCores s (u.arriveAt 1 5) :=
    ((g.modDom 1 _).loseDram.sdramTo 5).resetMem
  exact arrived _ h.other

theorem dropLink : KeepsCores s (t.dropTo5 2) := by
  have arrived (u : State) (g : KeepsCores s u) : KeepsCores s (u.arriveAt 2 5) := (g.modDom 2 _).linksDown.resetLink
  exact arrived _ h.other

/-- A restart of the cores sees nothing but what is kept. -/
theorem restartCores : KeepsCores s.restartCores t.restartCores :=
  ⟨by simp only [State.restartCores, h.core], h.stat⟩

/-- Of the cores, a reset of the fast domain does no more than restart them (R469). -/
theorem resetFast : KeepsCores s.restartCores t.resetFast := by
  unfold State.resetFast
  extract_lets failed registers cores
  have cleared : KeepsCores s registers := ((h.failWaiting.clearRegs 0x30000000 0x30800000).clearRegs
    0x30A00000 0x30C00000).clearRegs 0x40010200 0x40010400
  have restarted : KeepsCores s.restartCores cores := cleared.other.restartCores
  exact restarted.other

theorem energyBreak : KeepsCores s t.energyBreak := h.other

theorem arriveFast : KeepsCores s.restartCores (t.arriveAt 0 5) :=
  ((h.modDom 0 _).energyBreak.set TCH_STAT.CNTASK 0).resetFast

theorem dropFast : KeepsCores s.restartCores (t.dropTo5 0) := by
  unfold State.dropTo5
  exact h.other.arriveFast

theorem fastReset : KeepsCores s.restartCores t.fastReset := by
  unfold State.fastReset
  exact domainVotes (dropFast h.leaveField.other)

end
end KeepsCores

/-! ### The cores after each reset -/

/-- A reset leaves a core as `Obligations.fresh` says, whether or not it waits for its release (R398, R402, R437, R454,
R469). -/
theorem CoreSt.reset_fresh (held : Bool) : Obligations.fresh (CoreSt.reset held) := by
  unfold Obligations.fresh
  cases held <;> decide

/-- The cores of the fast domain are fresh after their restart (R469). -/
theorem State.restartCores_fresh (s : State) {i : Fin 5} (hi : i ≠ 4) : Obligations.fresh s.restartCores.core[i] := by
  have apart : i.val ≠ 4 := fun e => hi (Fin.ext e)
  simp only [State.restartCores, Fin.getElem_fin, Vector.getElem_set]
  split_ifs
  · exact CoreSt.reset_fresh true
  · exact CoreSt.reset_fresh false
  · exact CoreSt.reset_fresh false
  · exact CoreSt.reset_fresh false
  · omega

@[simp] theorem State.restartCores_on (s : State) (f : Fld) : s.restartCores.on f = s.on f := rfl

theorem KeepsCores.fresh {s t : State} (h : KeepsCores s.restartCores t) {i : Fin 5} (hi : i ≠ 4) :
    Obligations.fresh t.core[i] := by
  rw [h.core]
  exact s.restartCores_fresh hi

@[simp] theorem State.resetAo_core (s : State) (full : Bool) :
    (s.resetAo full).core = s.core.set (4 : Fin 5) (CoreSt.reset false) := by
  cases full <;> rfl

@[simp] theorem State.aoStart_core (s : State) (full : Bool) :
    (s.aoStart full).core = s.core.set (4 : Fin 5) (CoreSt.reset false) :=
  s.resetAo_core full

/-- A core that has been put back to its reset state is fresh. -/
theorem State.fresh_of_set {t : State} {cores : Vector CoreSt 5} {i : Fin 5}
    (h : t.core = cores.set i (CoreSt.reset false)) : Obligations.fresh t.core[i] := by
  rw [h, Fin.getElem_fin, Vector.getElem_set_self]
  exact CoreSt.reset_fresh false

/-- `PORESET` restarts the cores of the fast domain, and the AOC unless the final sequence runs (R613, R614). -/
theorem State.poreset_core (s : State) (h : s.ao.phase ≠ .off) :
    s.poreset.core = if s.on HRV_STAT.SEALING then s.restartCores.core
      else s.restartCores.core.set (4 : Fin 5) (CoreSt.reset false) := by
  unfold State.poreset
  rw [if_neg h]
  extract_lets full pin yard ao marked dropped
  have before : KeepsCores s yard := ((KeepsCores.refl s).raise APM_RSTCAUSE.PIN).leaveField
  have noted : KeepsCores s marked := before.other
  have down : KeepsCores s.restartCores dropped := noted.dropFast.dropMem.dropLink
  have seals : dropped.on HRV_STAT.SEALING = s.on HRV_STAT.SEALING := down.sealing.trans (s.restartCores_on _)
  rw [apply_ite State.core, seals, State.wr_core, State.aoStart_core, down.core]

/-- After `PORESET` every core is fresh, the AOC unless the final sequence runs. -/
theorem State.poreset_fresh (s : State) (h : s.ao.phase ≠ .off) {i : Fin 5}
    (hi : s.on HRV_STAT.SEALING = false ∨ i ≠ 4) : Obligations.fresh s.poreset.core[i] := by
  have cores := s.poreset_core h
  by_cases h4 : i = 4
  · subst h4
    have unsealed : ¬s.on HRV_STAT.SEALING = true := by simpa using hi
    exact State.fresh_of_set (cores.trans (if_neg unsealed))
  · have apart : ((4 : Fin 5) : Nat) ≠ i := fun e => h4 (Fin.ext e.symm)
    rw [cores]
    split
    · exact s.restartCores_fresh h4
    · rw [Fin.getElem_fin, Vector.getElem_set_ne _ _ apart]
      exact s.restartCores_fresh h4

/-! ### The register writes that reset cores -/

/-- A write that the bus carries out, while BRC runs where the register needs it, is the register's own (R25 to R32). -/
theorem State.writeCmd_ok {s : State} {ag : Agent} {a : Nat} (w : Word) (hb : s.busOk ag a true = true)
    (hr : onAoBus a = true → s.on APM_CLKSTAT.BRCRUN = true) :
    s.writeCmd ag a w = { s.regWrite ag a w with answer := some 0 } := by
  have runs : (onAoBus a && !s.on APM_CLKSTAT.BRCRUN) = false := by
    cases ha : onAoBus a
    · rfl
    · simp [hr ha]
  unfold State.busOk at hb
  simp [State.writeCmd, State.busWrite, State.onBus, hb, runs]

/-- A command that writes `w` to the register at `a` leaves what the register's own write leaves. -/
theorem writes_of_regWrite {s : State} {ag : Agent} {a : Nat} {w : Word} {f : State → Prop}
    (h : f { s.regWrite ag a w with answer := some 0 }) : Obligations.writes s ag a (.next (s.writeCmd ag a w)) f :=
  fun hb hr => ⟨_, congrArg _ (State.writeCmd_ok w hb hr), rfl, h⟩

theorem State.regWrite_rstReq (s : State) (ag : Agent) (w : Word) :
    s.regWrite ag APM_RSTREQ.adr w = s.rstReq ag w := rfl

theorem State.regWrite_pairRst (s : State) (ag : Agent) (n : Fin 2) (w : Word) :
    s.regWrite ag (CPM_PAIR_RST.adr n) w = s.pairRstWrite n w := by
  fin_cases n <;> rfl

section
variable (s : State) {ag : Agent} (hag : partyOf ag = .aoc ∨ (partyOf ag).isMgt = true)
include hag

/-- The AOC and the management cores may ask for the reset of the fast domain (R613). -/
theorem State.rstReq_fast :
    s.rstReq ag 2 = ((s.raise APM_RSTCAUSE.REQFAST).set APM_RSTCAUSE.CORE (partyOf ag).core).fastReset := by
  have may : (partyOf ag == .aoc || (partyOf ag).isMgt) = true := by simpa using hag
  simp [State.rstReq, may]

/-- They may ask for that of the always-on domain (R613). -/
theorem State.rstReq_ao :
    s.rstReq ag 1 = ((s.raise APM_RSTCAUSE.REQAO).set APM_RSTCAUSE.CORE (partyOf ag).core).aoRestart := by
  have may : (partyOf ag == .aoc || (partyOf ag).isMgt) = true := by simpa using hag
  simp [State.rstReq, may]

/-- A request for a reset of the fast domain restarts its cores. -/
theorem KeepsCores.rstReq_fast : KeepsCores s.restartCores (s.rstReq ag 2) := by
  rw [s.rstReq_fast hag]
  exact (((KeepsCores.refl s).raise APM_RSTCAUSE.REQFAST).set APM_RSTCAUSE.CORE _).fastReset

/-- A request for a reset of the always-on domain resets the AOC, at once while no final sequence runs (R614). -/
theorem State.rstReq_ao_core (hs : s.on HRV_STAT.SEALING = false) :
    (s.rstReq ag 1).core = s.core.set (4 : Fin 5) (CoreSt.reset false) := by
  have noted : KeepsCores s ((s.raise APM_RSTCAUSE.REQAO).set APM_RSTCAUSE.CORE (partyOf ag).core) :=
    ((KeepsCores.refl s).raise _).set _ _
  rw [s.rstReq_ao hag]
  unfold State.aoRestart
  rw [noted.sealing, hs, if_neg Bool.false_ne_true, State.aoStart_core, noted.core]

end

/-- A one-bit field in bit 0 that is set shows in bit 0 of the word. -/
theorem withField_one_getLsbD (w : Word) : (withField w 0 0 1).getLsbD 0 = true := by
  have set := fieldOf_withField w 0 0 1 (Nat.le_refl 0) (by decide)
  simpa [fieldOf, BitVec.getLsbD, Nat.testBit_zero] using set

/-- A control pair that its register comes to hold is put back to its reset state (R469, R494). -/
theorem State.pairRstWrite_fresh (s : State) (n : Fin 2) (w : Word) (h : w.getLsbD 0 = true) :
    Obligations.fresh (s.pairRstWrite n w).core[(if n = 0 then 0 else 1 : Fin 5)] := by
  unfold State.pairRstWrite
  extract_lets pair ref struck injected
  rw [if_pos h]
  exact State.fresh_of_set (cores := injected.core) rfl

theorem exec_apmRstreqFast (ag : Agent) (s : State) :
    exec (.apmRstreqFast ag) s = .next (s.writeCmd ag APM_RSTREQ.adr 2) := rfl

theorem exec_apmRstreqAo (ag : Agent) (s : State) :
    exec (.apmRstreqAo ag) s = .next (s.writeCmd ag APM_RSTREQ.adr 1) := rfl

theorem exec_cpmPairHold (ag : Agent) (n : Fin 2) (hold : Bool) (s : State) :
    exec (.cpmPairHold ag n hold) s = .next (s.writeCmd ag (CPM_PAIR_RST.adr n)
      (withField (s.keepWord (CPM_PAIR_RST.adr n)) 0 0 (b2n hold))) := rfl

/-- Settles O58: each reset puts the cores of its domain back to `CoreSt.reset`, and what else it does keeps them. -/
theorem coresAfterReset : Obligations.CoresAfterReset := by
  intro s ag full i n fresh pair
  refine ⟨fun hi => ⟨?_, ?_⟩, ?_, fun hi hag => ?_, ?_, fun h hi => ?_, ?_⟩
  · exact (KeepsCores.refl s).arriveFast.fresh hi
  · exact (KeepsCores.refl s).fastReset.fresh hi
  · rintro rfl
    exact State.fresh_of_set (s.resetAo_core full)
  · rw [exec_apmRstreqFast]
    refine writes_of_regWrite ?_
    rw [State.regWrite_rstReq]
    exact (KeepsCores.rstReq_fast s hag).fresh hi
  · rintro rfl hs hag
    rw [exec_apmRstreqAo]
    refine writes_of_regWrite ?_
    rw [State.regWrite_rstReq]
    exact State.fresh_of_set (s.rstReq_ao_core hag hs)
  · exact ⟨_, rfl, s.poreset_fresh h hi⟩
  · rw [exec_cpmPairHold]
    refine writes_of_regWrite ?_
    rw [State.regWrite_pairRst]
    exact s.pairRstWrite_fresh n _ (withField_one_getLsbD _)

end Sys2Proof.Machine
end
